-- ==== Sys2Proof/Word.lean ====
section
/-! DEFINITION. The byte. Everything else the spec counts, sizes or indexes is a Nat or an Int, wrapped to its field's width where it is
stored. -/

namespace Sys2Proof

/-- One byte of memory. -/
abbrev Byte := BitVec 8

end Sys2Proof
end

