-- ==== Sys2Proof/Syntax.lean ====
section
/-! DEFINITION. The commands and events of the block: one constructor of `Instr` per row of spec/opcode_table.json.
The table gives its rows no bits, so the operands are those that the row's rule names: the units concerned, and what
comes from outside the device (levels, stamp times, readings, received words). -/

namespace Sys2Proof

/-- The access paths of the CSR window: a Ridge port or the I3C port (R351); and the boot flash, from which only a coat
of COAT.LOAD or of the start sequence is read (R344). -/
inductive Path where
  | port (n : Fin 12)
  | i3c
  | flash
deriving DecidableEq, Repr

/-- A command descriptor as taken (Table MBX-1), with its mailbox, its descriptor count and the path of its doorbell. -/
structure Desc where
  mb : Nat := 0
  index : Nat := 0
  tag : Nat := 0
  fence : Bool := false
  notify : Bool := false
  rsv : Nat := 0
  a0 : Nat := 0
  a1 : Nat := 0
  a2 : Nat := 0
  a3 : Nat := 0
  a4 : Nat := 0
  a5 : Nat := 0
  a6 : Nat := 0
  path : Path := .i3c
deriving DecidableEq, Repr

/-- A followed reference as its stamps arrive (R18): GREF itself, or the TDC of an AUXT input or of a channel. -/
inductive RefSrc where
  | gref
  | tdc (n : Fin 1040)
deriving DecidableEq, Repr

/-- The output signals of a channel whose edges are placed (R40). -/
inductive Sig where
  | drv | den
deriving DecidableEq, Repr

/-- The compare levels of R41. -/
inductive Level where
  | mid | low | high | illegal
deriving DecidableEq, Repr

/-- A return at its contact over time: its level before the first of its edges, and the edge-clock times, rising, at which it
changes, in edge-time units. -/
structure Wave where
  first : Bool := false
  edges : List Nat := []
deriving DecidableEq, Repr

/-- The timeline configuration registers that R481 governs. -/
inductive PhReg where
  | src | loop | fmin | fmax | limit | hold
deriving DecidableEq, Repr

/-- How the store that a microword was fetched from answered (R138). -/
inductive StoreEcc where
  | clean | corrected | uncorrectable | romParity
deriving DecidableEq, Repr

/-- A microword's fields other than OPC, which the row names (Table MIC-1), with the address it came from. -/
structure Micro where
  int : Bool := true
  cond : Nat := 1
  next : Nat := 0
  dst : Nat := 15
  src : Nat := 15
  imm : Nat := 0
  ecc : StoreEcc := .clean
deriving DecidableEq, Repr

/-- The stamps of one launched edge or reference edge: how many, their sum and the sum of their squares, in edge-time units. -/
structure TapStat where
  n : Nat := 0
  sum : Int := 0
  sq : Nat := 0
deriving DecidableEq, Repr

/-- One trial setting of a sampler scan: the stamped time of the DRV edge, and how many of the trials read the new level (R228). -/
structure ScanPoint where
  t : Int := 0
  hits : Nat := 0
deriving DecidableEq, Repr

/-- The raw statistics of one unit from a self-calibration run (R225 to R230): the stamps by fine code, the reference edges and their
nominal time, the launched DRV and DEN edges of each tap and their nominal time, the scans of the CMH and CML samplers at each tap with
the trials of each setting, and the mean stamps of the CML path at each trim tap and of the CMH path. -/
structure CalRaw where
  unit : Nat := 0
  stamps : Nat := 0
  hist : List Nat := []
  ref : TapStat := {}
  refNominal : Int := 0
  drv : List TapStat := []
  den : List TapStat := []
  nominal : Int := 0
  cmh : List (List ScanPoint) := []
  cml : List (List ScanPoint) := []
  trials : Nat := 0
  cmlPath : List Int := []
  cmhPath : Int := 0
deriving DecidableEq, Repr

/-- The measured phases of one group (R229): for each of the 16 phases the deviations that its 32 channels see, in edge-time units from
p × 4,096. -/
structure CalPhase where
  group : Nat := 0
  dev : List (List Int) := []
deriving DecidableEq, Repr

/-- A Ridge frame as received: its 128 bytes (Table RDG-3), none of them where its codeword could not be corrected, and whether the idle
marker of R285 follows it. -/
structure Frame where
  bytes : List Byte := []
  marker : Bool := false
deriving DecidableEq, Repr

/-- A transaction header (Table RDG-7). -/
structure Txn where
  ttype : Nat := 1
  cst : Nat := 0
  len : Nat := 1
  tag : Nat := 0
  mcode : Nat := 0
  group : Nat := 0
  addr : Nat := 0
  rsv : Nat := 0
deriving DecidableEq, Repr

/-- A capability block (R282). -/
structure Capability where
  kind : Nat := 0x10
  ident : Nat := 1
  port : Nat := 0
  role : Nat := 0
  lanes : Nat := 4
  native : Bool := true
  reversed : Bool := false
  polinv : Nat := 0
  rsv : Nat := 0
deriving DecidableEq, Repr

/-- The IEEE 1588 messages that the profile supports or discards (Table GUY-5). -/
inductive PtpKind where
  | sync | followUp | delayReq | delayResp | pdelayReq | pdelayResp | pdelayRespFollowUp | announce | signaling | management
deriving DecidableEq, Repr

/-- An IEEE 1588 message as received (R294, R315; the fields are the standard's, log entry 40): the data length of its packet in 4 B units;
its kind, domain and sequence; the sender's port identity and, in a response, the identity of the port it answers; whether a second
message follows it; the time it carries in ns and its correction in 2^-16 ns; and for an Announce the grandmaster's priority1, class,
accuracy, variance, priority2 and identity, and the steps to it. -/
structure PtpMsg where
  len : Nat := 16
  kind : PtpKind := .sync
  domain : Nat := 0
  seq : Nat := 0
  src : Nat := 0
  req : Nat := 0
  twoStep : Bool := true
  time : Nat := 0
  corr : Int := 0
  prio1 : Nat := 128
  cls : Nat := 248
  acc : Nat := 0xFE
  var : Nat := 0xFFFF
  prio2 : Nat := 128
  gm : Nat := 0
  steps : Nat := 0
deriving DecidableEq, Repr

/-- A mirrored item (Table REC-6). -/
inductive MirrorItem where
  | journal (mb index cmd tag : Nat) (notify : Bool)
  | completion (mb index : Nat) (entry : Nat)
  | mailbox (mb cfg cplcfg prod cons cplProd cplCons : Nat)
  | result (lot seq bytes : Nat) (data : List Byte)
  | head (lot seq head : Nat)
  | site (site pitch core progId starts : Nat) (lastSeq bin pass fail : Nat) (resultAfter : Bool)
  | coats (baseId : Nat) (skims : List Nat)
  | calib (slotMap : Nat)
  | ptp (status cfg master epoch : Nat)
  | identity (record : Nat)
deriving DecidableEq, Repr

/-- The instructions of the JTAG port (Table TRU-12). -/
inductive Jtag where
  | bypass | idcode | sample | extest | extestPulse | extestTrain | mpHalt | mpMemory | scan | keyUnit
deriving DecidableEq, Repr

/-- The fault that a flow program's handler meets, or its normal end with a bin and 160 user bytes (R371, R372). -/
inductive Handler where
  | none
  | result (site bin user : Nat)
  | fault (site cause : Nat)
deriving DecidableEq, Repr

/-- How the read of a pool granule came out (R85): corrected, uncorrectable and good again after its refetch, or still uncorrectable
then. -/
inductive PoolEcc where
  | corrected | refetched | stuck
deriving DecidableEq, Repr

/-- A read of pattern data in the pool that met an error: its group, its pool page, and the outcome. -/
structure PoolRead where
  group : Fin 32
  page : Nat := 0
  ecc : PoolEcc := .corrected
deriving DecidableEq, Repr

/-- The commands and events: one constructor per row of spec/opcode_table.json, in the table's order. -/
inductive Instr where
  | unsupportedCommand (d : Desc) (cmd : Nat)
  | sysInfo (d : Desc)
  | sysNop (d : Desc)
  | sysAckShutdown (d : Desc)
  | coatLoad (d : Desc)
  | coatApply (d : Desc)
  | coatList (d : Desc)
  | chConfig (d : Desc)
  | chPark (d : Desc)
  | tsetWrite (d : Desc)
  | tsetRead (d : Desc)
  | tsetInvalidate (d : Desc)
  | patBind (d : Desc) (portFail : Bool)
  | patStage (d : Desc) (portFail : Bool)
  | patQuota (d : Desc)
  | patRing (d : Desc)
  | patPrepare (d : Desc)
  | patRelease (d : Desc)
  | seqForm (d : Desc)
  | seqFollow (d : Desc)
  | seqLoad (d : Desc)
  | seqProg (d : Desc)
  | seqStart (d : Desc)
  | seqStop (d : Desc)
  | seqHalt (d : Desc)
  | seqFlag (d : Desc)
  | seqCounter (d : Desc)
  | seqMark (d : Desc)
  | seqPrime (d : Desc)
  | seqService (d : Desc)
  | capConfig (d : Desc)
  | capTrigset (d : Desc)
  | capBus (d : Desc)
  | capArm (d : Desc)
  | capTrig (d : Desc)
  | capDisarm (d : Desc)
  | capClear (d : Desc)
  | capFirstfail (d : Desc)
  | tdcSetup (d : Desc)
  | tdcArm (d : Desc)
  | tdcResult (d : Desc)
  | tdcAbort (d : Desc)
  | tdcRelease (d : Desc)
  | tdcStrip (d : Desc)
  | calRun (d : Desc)
  | calCommit (d : Desc)
  | calDiscard (d : Desc)
  | calSysoff (d : Desc)
  | vcmInfo (d : Desc)
  | vcmErrlog (d : Desc)
  | vcmFill (d : Desc)
  | vcmRetrain (d : Desc)
  | vcmScrub (d : Desc)
  | linkConfig (d : Desc)
  | linkEnable (d : Desc)
  | linkDisable (d : Desc)
  | linkLane (d : Desc)
  | linkAperture (d : Desc)
  | linkStatus (d : Desc)
  | timeGuycfg (d : Desc)
  | timeAlign (d : Desc)
  | timeAccept (d : Desc)
  | timePtpcfg (d : Desc)
  | timeSet (d : Desc)
  | timeRead (d : Desc)
  | timeFwd (d : Desc)
  | secQuote (d : Desc)
  | secLog (d : Desc)
  | secCert (d : Desc)
  | secKeystate (d : Desc)
  | secOwner (d : Desc)
  | secDebug (d : Desc)
  | secSeal (d : Desc)
  | secLot (d : Desc)
  | secRing (d : Desc)
  | secFlow (d : Desc)
  | thmConfig (d : Desc)
  | thmRead (d : Desc)
  | thmShutrec (d : Desc)
  | recRead (d : Desc)
  | recFlush (d : Desc)
  | recCalendar (d : Desc)
  | twinPair (d : Desc)
  | twinUnpair (d : Desc)
  | twinStatus (d : Desc)
  | patBindDone (g : Fin 32)
  | patStageDone (g : Fin 32) (portFailAt : Option Nat)
  | patPrepareDone (p : Fin 32)
  | seqLoadDone (p : Fin 32) (portFail : Bool)
  | calRunDone (units : List CalRaw) (phases : List CalPhase)
  | calCommitDone
  | vcmFillDone (k : Nat)
  | vcmRetrainDone (fail : Option (Fin 128 × Nat))
  | groupRamp
  | descriptorTake (mb : Fin 64)
  | mbDb (path : Path) (mb : Fin 64) (v : Nat)
  | mbCplConsWrite (mb : Fin 64) (v : Nat)
  | mbEnable (mb : Fin 64) (cfg : Nat)
  | mbDisable (mb : Fin 64)
  | evrEnable (cfg : Nat)
  | evrConsWrite (v : Nat)
  | sqCmdArm (g : Fin 32) (seg : Nat)
  | sqCmdResume (g : Fin 32)
  | sqCmdSnap (g : Fin 32)
  | phRegisterWrite (p : Fin 32) (r : PhReg) (v : Nat)
  | srCommit (r : Fin 48) (v : Nat)
  | cuStailWrite (g : Fin 32) (v : Nat)
  | resConsWrite (v : Nat)
  | twMresConsWrite (v : Nat)
  | duQuotaWrite (c : Fin 8) (quota : Bool) (v : Nat)
  | rcRead (path : Path) (off : Nat)
  | latchedPairRead (path : Path) (off : Nat)
  | registerWrite (path : Path) (off : Nat) (wide : Bool) (v : Nat)
  | nop (g : Fin 32) (w : Micro)
  | mov (g : Fin 32) (w : Micro)
  | ldi (g : Fin 32) (w : Micro)
  | add (g : Fin 32) (w : Micro)
  | addi (g : Fin 32) (w : Micro)
  | sub (g : Fin 32) (w : Micro)
  | and (g : Fin 32) (w : Micro)
  | or (g : Fin 32) (w : Micro)
  | xor (g : Fin 32) (w : Micro)
  | shl (g : Fin 32) (w : Micro)
  | shr (g : Fin 32) (w : Micro)
  | cmp (g : Fin 32) (w : Micro)
  | cmpi (g : Fin 32) (w : Micro)
  | ldent (g : Fin 32) (w : Micro)
  | fld (g : Fin 32) (w : Micro)
  | issue (g : Fin 32) (w : Micro)
  | push (g : Fin 32) (w : Micro)
  | pop (g : Fin 32) (w : Micro)
  | topw (g : Fin 32) (w : Micro)
  | ldins (g : Fin 32) (w : Micro)
  | disp (g : Fin 32) (w : Micro)
  | setf (g : Fin 32) (w : Micro)
  | clrl (g : Fin 32) (w : Micro)
  | armc (g : Fin 32) (w : Micro)
  | pndg (g : Fin 32) (w : Micro)
  | setstop (g : Fin 32) (w : Micro)
  | post (g : Fin 32) (w : Micro)
  | test (g : Fin 32) (w : Micro) (result : Nat)
  | reti (g : Fin 32) (w : Micro)
  | csrr (g : Fin 32) (w : Micro)
  | csrw (g : Fin 32) (w : Micro)
  | reservedOpcode (g : Fin 32) (w : Micro)
  | interruptTake (g : Fin 32)
  | primerTimeout (g : Fin 32)
  | loopBegin (p : Fin 32)
  | loopEnd (p : Fin 32)
  | call (p : Fin 32)
  | ret (p : Fin 32)
  | wait (p : Fin 32)
  | setflag (p : Fin 32)
  | startInstant (p : Fin 32)
  | startDeadline (d : Desc)
  | vectorStart (p : Fin 32) (reads : List PoolRead)
  | underrun (p : Fin 32) (g : Fin 32)
  | boundary (p : Fin 32)
  | mapSegmentPublish (p : Fin 32)
  | edgePlacement (c : Fin 1024) (sig : Sig)
  | markPulseEnd (n : Fin 8)
  | strobeSample (c : Fin 1024) (cmh cml : Wave)
  | judgementResolve (c : Fin 1024)
  | evaluation (p : Fin 32)
  | triggerTimeout (p : Fin 32)
  | busLineEnd (n : Fin 32)
  | acquisitionOpen (p : Fin 32)
  | rearm (p : Fin 32)
  | disarmEnd (p : Fin 32)
  | recordRelease (g : Fin 32)
  | stopInstant (p : Fin 32)
  | stoppingComplete (p : Fin 32)
  | coatWaitTimeout (k : Nat)
  | refStamp (src : RefSrc) (rising : Bool) (coarse : Nat) (fine : Fin 1024)
  | refMissingTimeout (p : Fin 32)
  | acqTimeout (p : Fin 32)
  | holdLimit (p : Fin 32)
  | grefTimeout
  | grefFreqCheck (ppm : Int)
  | grefReturn
  | multiplierLock
  | tdcx00CalDone (x : CalRaw)
  | gpegPulse (coarse : Nat) (fine : Fin 1024) (width64 : Nat)
  | echoDrive
  | reflectionTimeout
  | pegWindowMiss
  | timeAlignTimeout
  | xtrigEdge (n : Fin 8) (rising : Bool) (tPs durPs : Nat)
  | parkNAssert (lowNs : Nat)
  | parkNRelease (highNs : Nat)
  | tdcArmInstant (code : Fin 1040)
  | tdcStamp (code : Fin 1040) (cml : Bool) (rising : Bool) (coarse : Nat) (fine : Fin 1024)
  | freqGateWindow (code : Fin 1040)
  | measurementTimeout (code : Fin 1040)
  | vcmReadDone (a : Nat) (err : Nat)
  | rowRepair (vp : Fin 128)
  | refreshInterval (vp : Fin 128)
  | thermalSample (die : List (Nat × Option Int)) (hbm : List (Nat × Option Int))
  | dieTrip (sensor : Fin 96)
  | throttleTick
  | avsTick (ack : Bool) (mv ma margin : Nat)
  | pmbusTimeout
  | porstNAssert (lowNs : Nat)
  | porstNRelease
  | warmrstNAssert (lowNs : Nat)
  | warmrstNRelease
  | pwrfailNAssert (lowNs : Nat)
  | startPhaseEnd (die : List (Nat × Option Int)) (selfTestFail : Nat) (vcmFail : Option (Fin 128 × Nat)) (td0 : CalRaw)
  | xspiTimeout (ptype copy : Nat)
  | i3cWrite (off : Nat) (data : List Byte)
  | i3cPointer (off : Nat)
  | emergencyPark
  | i3cTimeout
  | jtagInstruction (op : Jtag)
  | codewordReceive (lane : Fin 48) (tag : Nat) (line : List Byte) (uncorrectable commaMissed marker : Bool)
  | laneLockTimeout (lane : Fin 48)
  | frameReceive (port : Fin 12) (f : Frame)
  | nak (port : Fin 12) (fseq : Nat)
  | ackTimeout (port : Fin 12)
  | ackSendTimer (port : Fin 12)
  | credit (port : Fin 12) (kind count : Nat)
  | restripe (port : Fin 12) (map gen : Nat)
  | restripeAck (port : Fin 12) (map gen : Nat)
  | idleReq (port : Fin 12)
  | idleAck (port : Fin 12)
  | idleNak (port : Fin 12)
  | idleDelayTimeout (port : Fin 12)
  | exitBurst (port : Fin 12)
  | wakeTx (port : Fin 12)
  | soak (lane : Fin 48) (pass : Bool)
  | soakEnd (lane : Fin 48) (uncorrectable serHigh : Bool)
  | laneTrainDone (lane : Fin 48) (pre post : Nat)
  | slowLaneCheck (port : Fin 12) (counts : List (Nat × Nat))
  | signalDetect (port : Fin 12)
  | signalLoss (port : Fin 12) (lanes : Nat)
  | capabilityBlock (port : Fin 12) (cap : Capability)
  | equalizeDone (port : Fin 12) (fir : List (Nat × Nat))
  | alignDone (port : Fin 12)
  | trainingTimeout (port : Fin 12)
  | backoffEnd (port : Fin 12)
  | mrd (port : Fin 12) (h : Txn) (corrected : Nat)
  | mwr (port : Fin 12) (h : Txn) (data : List Byte)
  | cpl (port : Fin 12) (h : Txn) (data : List Byte)
  | mrdTimeout (port : Fin 12) (tag : Nat)
  | creditStall (port : Fin 12)
  | msg (port : Fin 12) (h : Txn) (data : List Byte)
  | startAt (port : Fin 12) (id mask peg seg report : Nat)
  | ptp (port : Fin 12) (m : PtpMsg)
  | announceTimeout
  | tsqEntryTimeout (port : Fin 12)
  | tsqHoldTimeout (port : Fin 12)
  | workItemPost (cls producer type key payload : Nat) (held : Bool)
  | workItemReady (id : Nat)
  | workItemDispatch (server : Fin 17)
  | workItemDone (server : Fin 17) (results : List Handler)
  | duLoadWindow
  | flowBudgetTimer (core : Fin 16) (site : Nat)
  | flowHangTimer (core : Fin 16)
  | flowEntryReturn (core : Fin 16)
  | flowEntryTimeout (core : Fin 16)
  | signatureDone
  | reservationWriteDone (ok : Bool)
  | sessionKeyGenerated
  | sealTimer
  | challengeExpiry
  | flushTimer
  | flushDone (badCopies : List Nat)
  | recReadRetry
  | lifeSecond
  | railSample (mv : List (Nat × Nat))
  | laneHour (lane : Fin 48) (bin : Nat)
  | calendarCheck
  | heartbeatSend
  | heartbeat (seq pstate : Nat)
  | heartbeatMiss
  | failing
  | mirror (items : List MirrorItem)
  | mirrorAck (n : Nat)
  | pair (ident : Nat) (half senior : Bool) (pages : List (Nat × Nat)) (complete : Bool)
  | syncDone
  | twinPairTimeout
  | twinAliveTimeout (high : Bool)
  | twinAliveRange
  | twinAliveReturn
  | sidebandTimeout
  | internalFault (groups : Nat)
  | stageChunkTimeout (g : Fin 32)
  | deepStoreRowFeed (r : Fin 48) (rows : Nat)
  | refreshIssue (vp : Fin 128) (allBank : Bool)
  | vcmWriteDrain (vp : Fin 128)
  | ptpMessageInterval (port : Fin 12) (kind : PtpKind)
deriving DecidableEq, Repr

end Sys2Proof
end

