-- ==== Sys2Proof/Config.lean ====
section
/-! DEFINITION. What the spec leaves open or takes from outside itself, as constants without a body: nothing can
evaluate them or prove a value of them. -/

namespace Sys2Proof.Config

/-- The values that the spec leaves open where the device goes on, numbered by the counter of the state (log entry 4). -/
opaque freeNat : Nat → Nat

/-- SHAKE256 with a 32-byte output (R379), as a number; the standard is not part of the spec (log entry 5). -/
opaque shake256 : List Byte → Nat

/-- XMSS verification (R377): the public key and the message as numbers, and the signature (log entry 5). -/
opaque xmssOk : Nat → Nat → List Byte → Bool

/-- The signature block that the key unit makes: the key's public value, its leaf index and the digest (log entry 5). -/
opaque xmssSign : Nat → Nat → Nat → List Byte

/-- The ICERT statement with its signature block, as numbered bytes (R404, Table TRU-6; made at manufacture, log entry 5). -/
opaque icert : Nat → BitVec 8

/-- Whether a bin counts as a pass in the site table (Table REC-6; the spec names no bins, log entry 4). -/
opaque binPass : Nat → Bool

/-- The AES key unwrap under KEK_FW and the AES-256-GCM of a signed package (R379, R380): its plaintext, or none when the unwrap or
the tag fails (log entry 5). -/
opaque openImage : Nat → List Byte → Option (List Byte)

/-- A 40-bit word of the microcode ROM at an address (R148; the ROM's content is not in the spec, log entry 6). -/
opaque romWord : Nat → Nat

/-- The path map of the mask ROM (R150): DIN and DOUT of an address, the routine that owns it, and that routine's word budget that
remains there (the ROM's content is not in the spec, log entry 6). -/
opaque romDin : Nat → Nat
opaque romDout : Nat → Nat
opaque romOwner : Nat → Nat
opaque romBudget : Nat → Nat

/-- The identity code of the mask ROM (Table MIC-7, log entry 6). -/
opaque romId : Nat

/-- The tracker's loop (R22): bandwidth code, damping code, the error in 1/16 sub-beat and the present FREQ give the
next FREQ; the gains behind the programmed bandwidth are not in the spec (log entry 7). -/
opaque loopFreq : Nat → Nat → Int → Nat → Nat

/-- The edge-clock time that the loop predicts for the next reference edge: bandwidth code, damping code, the error, FREQ
and the time predicted for the present edge (log entry 7). -/
opaque loopTime : Nat → Nat → Int → Nat → Nat → Nat

/-- The calibration that Glaolman stores at manufacture (R231; a property of each device, log entry 94): of a point, a unit and a signal
(DRV 0, DEN 1, CMH 2, CML 3) the offset and the step from tap i to the next; of a point and a TDC its offset and the width of a fine
code; the CML trim; of a channel the package delay of a signal (R221); of a point and a group the trim of a phase and the temperature
at the measurement; and of a point the TEMP, EPOCH and TIME of its header. -/
opaque factoryOffset : Nat → Nat → Nat → Int
opaque factoryStep : Nat → Nat → Nat → Nat → Nat
opaque factoryTdOff : Nat → Nat → Int
opaque factoryWidth : Nat → Nat → Nat → Nat
opaque factoryCmlTrim : Nat → Nat → Nat
opaque packageDelay : Nat → Nat → Nat
opaque factoryTrim : Nat → Nat → Nat → Int
opaque factoryTemp : Nat → Nat → Int
opaque factoryMean : Nat → Int
opaque factoryEpoch : Nat → Nat
opaque factoryTime : Nat → Nat

/-- The design delay of a channel's loopback path into its TDC, for DRV 0 and DEN 1 (R227; not in the spec, log entry 94). -/
opaque loopbackDelay : Nat → Nat → Int

/-- The GPEG path delay of the device, in edge-time units (R300; measured at manufacture, log entry 94). -/
opaque gpegDelay : Nat

/-- The manufacturer code of IDCODE, 11 bits (Table PKG-10). The spec does not state it. -/
opaque makerCode : BitVec 11

/-- Whether a VCM port's bank is out of hard spare rows (R259; a property of each DRAM stack, log entry 33). -/
opaque noHardSpare : Nat → Nat → Bool

end Sys2Proof.Config
end

