-- ==== Sys2Proof/Machine/Regs.lean ====
section
/-! DEFINITION. The registers of the CSR window: one name per register and per field, with the field's bits,
access code (R8) and reset value, and each register's place in its block (R350 to R353). Made from the register
tables TLN-5, CHN-8, VSP-8, SEQ-11, MIC-10, CAP-9, TDC-8, CAL-8, VCM-3, RDG-12, GUY-7, MBX-8, DSP-7, TRU-15, PWR-8
and REC-11 (R38, R67, R106, R135, R155, R189, R219, R242, R263, R297, R323, R353, R375, R409, R431, R459). -/

namespace Sys2Proof.Machine

/-- The access codes of Table SCO-4 (R8); RSV fields are not kept, since they read 0 and ignore writes. -/
inductive Acc where
  | RW | RO | WO | W1C | RC
deriving DecidableEq, Repr

/-- The blocks of the CSR window in which registers sit (R350 to R352). -/
inductive Blk where
  | device | mailbox | port | ring | vstack | vport | group | channel | tdc | bin
deriving DecidableEq, Repr

/-- Every register of the spec's register tables, a numbered range under one name. -/
inductive Reg where
  | PT_MEMBERS
  | PH_SRC
  | PH_LOOP
  | PH_FMIN
  | PH_FMAX
  | PH_LIMIT
  | PH_HOLD
  | PH_FREQ
  | PH_ERR
  | PT_PHASE_LO
  | PT_PHASE_HI
  | PT_STATUS
  | CH_CFG
  | CH_SER_POLY
  | CH_SER_SEED
  | CH_SER_SH_LO
  | CH_SER_SH_HI
  | CH_UTAB_LO
  | CH_UTAB_HI
  | CH_STATUS
  | CH_PARKN
  | PG_VEC_BASE
  | PG_TS_BASE
  | PG_TAG_BASE
  | PG_LIMIT
  | PG_QUOTA
  | PG_USE
  | PG_PIN
  | PG_LEAD
  | PG_STATUS
  | PT_SUPPLY
  | POOL_FREE
  | POOL_ERR
  | SR_CFG
  | SR_COMMIT
  | SR_HEAD
  | SR_TAIL
  | SR_STATUS
  | SQ_TBL_BASE
  | SQ_TBL_LEN
  | PT_RUN
  | PT_POS
  | PT_PASS
  | PT_STACK
  | PT_FLAGS
  | PT_CNT
  | PT_CNT_CFG
  | PT_RESP
  | PT_VEC_LO
  | PT_VEC_HI
  | SQ_FMASK
  | MK_ROUTE
  | MK_OFF
  | XT_CFG
  | XT_GLITCH
  | SQ_UCTL
  | SQ_UPC
  | SQ_USTAT
  | SQ_INTP
  | SQ_CMD
  | SQ_TRACE
  | SQ_PATCH
  | SQ_PRIME
  | SQ_MATCH
  | UC_LOAD
  | CH_FAILCNT_LO
  | CH_FAILCNT_HI
  | CU_CFG
  | CU_RAWMASK
  | CU_REDMASK
  | CU_REDINT
  | CU_AREA_BASE
  | CU_AREA_SIZE
  | CU_DEST
  | CU_DRING_BASE
  | CU_DRING_SIZE
  | CU_SHEAD
  | CU_STAIL
  | CU_FILL
  | CU_STATUS
  | CU_RUNFAIL
  | TR_CARE
  | TR_VAL
  | PC_STATE
  | PC_MISSED
  | TR_CTL
  | TR_STG
  | TR_TMO
  | TR_STATE
  | TR_FIRE
  | TB_SRC
  | TB_STATE
  | TD_STATE
  | TD_COUNT
  | TD_STAMPS
  | TD_LOSS
  | TD_OFF
  | TD_BIN
  | ES_MASK
  | ES_CFG
  | ES_INT
  | CAL_RUN
  | CAL_MAP
  | CAL_GTEMP
  | CAL_GSTAT
  | CAL_APPLY
  | CAL_CHFAIL
  | CH_SYSOFF
  | VCM_STATE
  | VCM_INT
  | VCM_SCRUB
  | VCM_ERRADDR_LO
  | VCM_ERRADDR_HI
  | VS_STAT
  | VP_STAT
  | VP_ERR
  | VP_CNT
  | LK_CFG
  | LK_STATE
  | LK_PARTNER_LO
  | LK_PARTNER_HI
  | LK_PINFO
  | LK_LANE
  | LK_FIR
  | LK_SLOW
  | LK_ERR
  | LK_CNT
  | LK_TXN
  | LK_APER
  | GY_CFG
  | GY_HUB
  | GY_ASYM
  | GY_BOFF
  | GY_RESID
  | GY_RT
  | GY_STATUS
  | GY_CNT
  | GY_BEAT_LO
  | GY_BEAT_HI
  | TM_NS_LO
  | TM_NS_HI
  | TM_FRAC
  | TM_EPOCH
  | TM_INCR_HI
  | TM_INCR_LO
  | TM_CFG
  | TM_STATUS
  | TM_FWD
  | PP_CFG
  | PP_ASYM
  | PP_DELAY
  | PP_STAT
  | SYS_ID
  | SYS_REL
  | SYS_DEVID_LO
  | SYS_DEVID_HI
  | SYS_STATE
  | SYS_UNITS_G
  | SYS_UNITS_P
  | CSR_SEL
  | EVR_CFG
  | EVR_PROD
  | EVR_CONS
  | EVR_STAT
  | MB_CFG
  | MB_CPLCFG
  | MB_DB
  | MB_PROD
  | MB_CONS
  | MB_CPL_PROD
  | MB_CPL_CONS
  | MB_STAT
  | DU_STAT
  | DU_HSEL
  | DU_QUOTA
  | DU_CLASS
  | DU_DEPTH
  | DU_HELD
  | DU_REFUSE
  | DU_CANCEL
  | DU_HIST
  | DU_LOAD
  | FC_STATE
  | SEC_STATE
  | SEC_BOOT
  | SEC_LOG
  | SEC_SKEY
  | SEC_LEFT_S
  | SEC_LEFT_I
  | SEC_LOT
  | SEC_SEQ_LO
  | SEC_SEQ_HI
  | RES_BASE
  | RES_SIZE
  | RES_PROD
  | RES_CONS
  | SEC_CNT
  | THM_STATE
  | THM_CFG
  | THM_VCORE
  | THM_SEEN
  | THM_CNT
  | THM_FAILMAP
  | THM_SENSOR
  | THM_SHUT_ID
  | REC_STAT
  | REC_AGE
  | REC_ONTIME_LO
  | REC_ONTIME_HI
  | TW_STATE
  | TW_PARTNER_LO
  | TW_PARTNER_HI
  | TW_LAG
  | TW_MRES_BASE
  | TW_MRES_SIZE
  | TW_MRES_PROD
  | TW_MRES_CONS
deriving DecidableEq, Repr

/-- Every field of the register tables but the RSV ones, named register_FIELD. -/
inductive Fld where
  | PT_MEMBERS_MASK
  | PH_SRC_KIND
  | PH_SRC_EDGE
  | PH_SRC_INDEX
  | PH_LOOP_BW_KHZ
  | PH_LOOP_ZETA
  | PH_LOOP_LOCK_EDGES
  | PH_LOOP_ACQ_TIMEOUT
  | PH_FMIN_FMIN
  | PH_FMAX_FMAX
  | PH_LIMIT_POLICY
  | PH_LIMIT_ERR_LIM
  | PH_HOLD_HOLD_LIMIT
  | PH_FREQ_FREQ
  | PH_ERR_ERR_RMS
  | PH_ERR_ERR_PEAK
  | PT_PHASE_LO_PHASE
  | PT_PHASE_HI_PHASE
  | PT_STATUS_TRK
  | PT_STATUS_REF_LOST
  | PT_STATUS_CAUSE
  | PT_STATUS_GREF_HOLD
  | PT_STATUS_WR_IGNORED
  | PT_STATUS_GLITCH_CNT
  | CH_CFG_DRV_INV
  | CH_CFG_DEN_INV
  | CH_CFG_CMH_INV
  | CH_CFG_CML_INV
  | CH_CFG_SER_MODE
  | CH_CFG_U_LEN
  | CH_CFG_CMP_MASK
  | CH_SER_POLY_POLY
  | CH_SER_SEED_SEED
  | CH_SER_SH_LO_SHIFT
  | CH_SER_SH_HI_SHIFT
  | CH_UTAB_LO_ENTRY
  | CH_UTAB_HI_ENTRY
  | CH_STATUS_PARKED
  | CH_STATUS_PARK_CAUSE
  | CH_STATUS_STALE
  | CH_STATUS_REF_USE
  | CH_STATUS_EDGE_CLASH
  | CH_STATUS_BAD_SYM
  | CH_STATUS_BAD_TS
  | CH_STATUS_ILLEGAL_CMP
  | CH_STATUS_CLASH_CNT
  | CH_PARKN_PARKN_GLITCH
  | PG_VEC_BASE_BASE
  | PG_TS_BASE_BASE
  | PG_TAG_BASE_BASE
  | PG_LIMIT_LIMIT
  | PG_QUOTA_CAP_PAGES
  | PG_QUOTA_PAT_PAGES
  | PG_USE_BORROWED
  | PG_USE_HELD
  | PG_PIN_RESERVE
  | PG_PIN_RESIDENT
  | PG_LEAD_LEAD_NS
  | PG_LEAD_LEAD_MIN
  | PG_STATUS_LEAD_LOW
  | PG_STATUS_UNDERRUN
  | PG_STATUS_DATA_ERROR
  | PG_STATUS_NOT_LOADED
  | PG_STATUS_LEAD_LOW_CNT
  | PG_STATUS_RECLAIM_CNT
  | PT_SUPPLY_PREPARED
  | PT_SUPPLY_STREAM
  | PT_SUPPLY_LEAD_POLICY
  | PT_SUPPLY_RING
  | POOL_FREE_UNALLOC
  | POOL_FREE_FREE
  | POOL_ERR_CORR
  | POOL_ERR_WIN_REJECT_CNT
  | SR_CFG_USE
  | SR_CFG_PITCH
  | SR_CFG_PAGES
  | SR_COMMIT_HEAD
  | SR_HEAD_HEAD
  | SR_TAIL_TAIL
  | SR_STATUS_REJECT
  | SR_STATUS_RING_OVF
  | SQ_TBL_BASE_BASE
  | SQ_TBL_LEN_COUNT
  | PT_RUN_STATE
  | PT_RUN_RESUMABLE
  | PT_RUN_DEFER
  | PT_RUN_DROP
  | PT_RUN_PEND
  | PT_RUN_STOP_CAUSE
  | PT_RUN_DEFER_CNT
  | PT_POS_IMODE
  | PT_POS_IP
  | PT_POS_SEG
  | PT_PASS_PASS
  | PT_STACK_LOOP_DEPTH
  | PT_STACK_CALL_DEPTH
  | PT_STACK_PEND_TARGET
  | PT_FLAGS_FLAG
  | PT_CNT_COUNT
  | PT_CNT_CFG_EVT
  | PT_CNT_CFG_SEL
  | PT_RESP_RESP_LAT
  | PT_VEC_LO_COUNT
  | PT_VEC_HI_COUNT
  | SQ_FMASK_MASK
  | MK_ROUTE_EN
  | MK_ROUTE_POL
  | MK_ROUTE_FORM
  | MK_ROUTE_PITCH
  | MK_ROUTE_BIT
  | MK_ROUTE_WIDTH
  | MK_OFF_OFFSET
  | XT_CFG_POL
  | XT_GLITCH_COUNT
  | SQ_UCTL_UMODE
  | SQ_UCTL_URUN
  | SQ_UPC_UPATCH
  | SQ_UPC_UPC
  | SQ_USTAT_UFAULT
  | SQ_USTAT_UCAUSE
  | SQ_USTAT_CMD_REJ
  | SQ_USTAT_CORR_CNT
  | SQ_INTP_PEND
  | SQ_INTP_LAT_MAX
  | SQ_CMD_CODE
  | SQ_CMD_SEG
  | SQ_TRACE_EN
  | SQ_TRACE_SEG
  | SQ_PATCH_RELEASE
  | SQ_PATCH_NWORDS
  | SQ_PRIME_RESULT
  | SQ_MATCH_WORD
  | UC_LOAD_LSTAT
  | CH_FAILCNT_LO_COUNT
  | CH_FAILCNT_HI_FC_SAT
  | CH_FAILCNT_HI_COUNT
  | CU_CFG_FL
  | CU_CFG_RAW
  | CU_CFG_RED
  | CU_CFG_STRIP
  | CU_CFG_RAWSEL
  | CU_CFG_CLR_ON_START
  | CU_RAWMASK_MASK
  | CU_REDMASK_MASK
  | CU_REDINT_VECTORS
  | CU_AREA_BASE_BASE
  | CU_AREA_SIZE_SIZE
  | CU_DEST_KIND
  | CU_DEST_PORT
  | CU_DRING_BASE_BASE
  | CU_DRING_SIZE_PAGES
  | CU_SHEAD_HEAD
  | CU_STAIL_TAIL
  | CU_FILL_PEAK
  | CU_FILL_USED
  | CU_STATUS_OVF
  | CU_STATUS_OVF_CAUSE
  | CU_STATUS_SPILLED
  | CU_RUNFAIL_MAP
  | TR_CARE_CARE
  | TR_VAL_VAL
  | PC_STATE_ASTATE
  | PC_STATE_MODE
  | PC_STATE_TSRC
  | PC_STATE_WINDONE
  | PC_MISSED_COUNT
  | TR_CTL_EN
  | TR_CTL_NSTAGE
  | TR_STG_COMB
  | TR_STG_LINE
  | TR_STG_VIEW
  | TR_STG_QUAL
  | TR_STG_COUNT
  | TR_TMO_TIMEOUT
  | TR_STATE_STAGE
  | TR_STATE_TMO_CNT
  | TR_FIRE_FIRE_CNT
  | TB_SRC_EN
  | TB_SRC_PITCH
  | TB_SRC_STAGE
  | TB_SRC_WIDTH
  | TB_STATE_LINE
  | TD_STATE_MSTATE
  | TD_STATE_USE
  | TD_STATE_LAST_STATUS
  | TD_STATE_GAP
  | TD_STATE_OWNER
  | TD_COUNT_COUNT
  | TD_STAMPS_STAMPS
  | TD_LOSS_DEAD_CNT
  | TD_LOSS_OVR_CNT
  | TD_OFF_OFFSET
  | TD_BIN_VALUE
  | ES_MASK_MASK
  | ES_CFG_SIG
  | ES_CFG_EDGE
  | ES_INT_VECTORS
  | CAL_RUN_STATE
  | CAL_RUN_FAILS
  | CAL_MAP_SLOT
  | CAL_MAP_STAGE
  | CAL_MAP_VALID
  | CAL_MAP_STAGED
  | CAL_GTEMP_TEMP
  | CAL_GTEMP_APPLIED_T
  | CAL_GSTAT_DRIFT
  | CAL_GSTAT_CATCHUP
  | CAL_GSTAT_DRIFT_SEEN
  | CAL_GSTAT_NOSENSE
  | CAL_GSTAT_DRIFT_CNT
  | CAL_APPLY_OFFSET
  | CAL_CHFAIL_FAIL
  | CH_SYSOFF_OFFSET
  | VCM_STATE_STATE
  | VCM_STATE_RETIRE_PEND
  | VCM_STATE_NOSPARE
  | VCM_INT_INT_MAX
  | VCM_INT_INT_CNT
  | VCM_SCRUB_EN
  | VCM_SCRUB_PASSES
  | VCM_ERRADDR_LO_ADDR
  | VCM_ERRADDR_HI_ADDR
  | VS_STAT_TMODE
  | VS_STAT_CATCHUP_SEEN
  | VS_STAT_THROTTLE_SEEN
  | VS_STAT_NOREAD
  | VS_STAT_TEMP
  | VP_STAT_RMODE
  | VP_STAT_WQ_DEPTH
  | VP_STAT_DEBT
  | VP_ERR_CE_CNT
  | VP_ERR_UE_CNT
  | VP_ERR_RETIRED
  | VP_CNT_FWD_CNT
  | VP_CNT_URG_CNT
  | LK_CFG_ROLE
  | LK_CFG_MODE
  | LK_CFG_FIR_FIXED
  | LK_CFG_LANES
  | LK_CFG_IDLE_DELAY
  | LK_STATE_STATE
  | LK_STATE_LMAP
  | LK_STATE_GEN
  | LK_STATE_COMPAT
  | LK_STATE_ATTEMPT
  | LK_STATE_SIGDET
  | LK_STATE_CAUSE
  | LK_PARTNER_LO_ID
  | LK_PARTNER_HI_ID
  | LK_PINFO_KIND
  | LK_PINFO_PORT
  | LK_LANE_LSTATE
  | LK_LANE_LOST_SEEN
  | LK_LANE_DROP_SEEN
  | LK_LANE_POLINV
  | LK_LANE_REVERSED
  | LK_LANE_FAULTS
  | LK_LANE_UCW_CNT
  | LK_FIR_PRE
  | LK_FIR_POST
  | LK_SLOW_SLOW_THR
  | LK_ERR_NAK_CNT
  | LK_ERR_CRC_CNT
  | LK_CNT_REPLAY_CNT
  | LK_CNT_RESTRIPE_CNT
  | LK_CNT_RETRAIN_CNT
  | LK_TXN_UR_CNT
  | LK_TXN_DROP_MSG
  | LK_APER_APBASE
  | GY_CFG_PEG_LOG
  | GY_CFG_ECHO
  | GY_CFG_REFL
  | GY_CFG_THRESH
  | GY_HUB_HUB_TURN
  | GY_ASYM_ASYM
  | GY_BOFF_BEAT_OFF
  | GY_RESID_R
  | GY_RT_RT
  | GY_STATUS_ALIGNED
  | GY_STATUS_SHIFT_HOLD
  | GY_STATUS_SHIFT_SEEN
  | GY_STATUS_PATH_SEEN
  | GY_STATUS_SCAUSE
  | GY_STATUS_NO_REFL
  | GY_STATUS_ALIGN_ARMED
  | GY_STATUS_CALPEND
  | GY_STATUS_MISS_CNT
  | GY_CNT_REFL_MISS
  | GY_CNT_BADW
  | GY_CNT_SLIP_CNT
  | GY_BEAT_LO_BEAT
  | GY_BEAT_HI_BEAT
  | TM_NS_LO_NS
  | TM_NS_HI_NS
  | TM_FRAC_FRAC
  | TM_EPOCH_EPOCH
  | TM_INCR_HI_INT
  | TM_INCR_LO_FRAC
  | TM_CFG_DOMAIN
  | TM_CFG_PRIO1
  | TM_CFG_PRIO2
  | TM_CFG_BC
  | TM_CFG_SLAVE_ONLY
  | TM_STATUS_LOCKED
  | TM_STATUS_HOLDOVER
  | TM_STATUS_SLEWING
  | TM_STATUS_GREF_DISC
  | TM_STATUS_STEP_SEEN
  | TM_STATUS_EPOCH_SEEN
  | TM_STATUS_SLAVE_PORT
  | TM_STATUS_HOLD_CNT
  | TM_FWD_FWD
  | PP_CFG_EN
  | PP_CFG_DELAY
  | PP_CFG_LOG_SYNC
  | PP_CFG_LOG_ANN
  | PP_CFG_LOG_DREQ
  | PP_CFG_ANN_TMO
  | PP_CFG_PATH_THR
  | PP_ASYM_ASYM
  | PP_DELAY_DELAY
  | PP_STAT_PSTATE
  | PP_STAT_PATH_CHANGE
  | PP_STAT_TSQ_OVF
  | PP_STAT_IGNORING
  | PP_STAT_RUN
  | PP_STAT_TSQ_DEPTH
  | PP_STAT_DISCARD
  | SYS_ID_PART
  | SYS_ID_STEP
  | SYS_REL_MP_REL
  | SYS_REL_FC_REL
  | SYS_DEVID_LO_ID
  | SYS_DEVID_HI_ID
  | SYS_STATE_READY
  | SYS_STATE_UNITS_PEND
  | SYS_UNITS_G_G_EN
  | SYS_UNITS_P_X_EN
  | SYS_UNITS_P_P_EN
  | CSR_SEL_KIND
  | CSR_SEL_INDEX
  | EVR_CFG_EN
  | EVR_CFG_NOTIFY
  | EVR_CFG_LOG_SIZE
  | EVR_CFG_EVR_PAGE
  | EVR_PROD_COUNT
  | EVR_CONS_COUNT
  | EVR_STAT_EVR_LOST
  | MB_CFG_EN
  | MB_CFG_PRIO
  | MB_CFG_LOG_SIZE
  | MB_CFG_CMD_PAGE
  | MB_CPLCFG_CPL_PAGE
  | MB_DB_PROD
  | MB_PROD_COUNT
  | MB_CONS_COUNT
  | MB_CPL_PROD_COUNT
  | MB_CPL_CONS_COUNT
  | MB_STAT_ERR
  | MB_STAT_ECAUSE
  | MB_STAT_CPL_WAIT
  | MB_STAT_OUTSTANDING
  | DU_STAT_SHED
  | DU_STAT_QCFG_ERR
  | DU_STAT_REFUSE_SEEN
  | DU_STAT_HELD
  | DU_STAT_SEQ_DROP
  | DU_HSEL_LEVEL
  | DU_QUOTA_MAX
  | DU_QUOTA_GUAR
  | DU_CLASS_PRIO
  | DU_CLASS_PLIM
  | DU_DEPTH_VALUE
  | DU_HELD_VALUE
  | DU_REFUSE_VALUE
  | DU_CANCEL_RCANCEL
  | DU_CANCEL_CANCEL
  | DU_HIST_COUNT
  | DU_LOAD_VALUE
  | FC_STATE_STATE
  | FC_STATE_HANG
  | FC_STATE_SITES
  | SEC_STATE_DBG
  | SEC_STATE_OWNER
  | SEC_STATE_NOSIGN
  | SEC_STATE_LOG_FULL
  | SEC_STATE_RING_FULL
  | SEC_STATE_ROOT_SLOT
  | SEC_STATE_REVOKED
  | SEC_BOOT_BSTAT
  | SEC_BOOT_BPTYPE
  | SEC_BOOT_COPYB
  | SEC_LOG_COUNT
  | SEC_SKEY_SKEY_ID
  | SEC_LEFT_S_LEFT
  | SEC_LEFT_I_LEFT
  | SEC_LOT_LOT
  | SEC_SEQ_LO_SEQ
  | SEC_SEQ_HI_SEQ
  | RES_BASE_BASE
  | RES_SIZE_PAGES
  | RES_PROD_COUNT
  | RES_CONS_COUNT
  | SEC_CNT_SEALS
  | SEC_CNT_QUOTES
  | THM_STATE_STAGE
  | THM_STATE_CAP_STEP
  | THM_STATE_SHUT_PEND
  | THM_STATE_AVS_HOLD
  | THM_STATE_FAST
  | THM_STATE_TMAX
  | THM_CFG_TLIM
  | THM_CFG_PCAP
  | THM_VCORE_VSET
  | THM_VCORE_PWR
  | THM_SEEN_THROTTLE_SEEN
  | THM_SEEN_REFUSE_SEEN
  | THM_SEEN_CRIT_SEEN
  | THM_SEEN_RST_GLITCH
  | THM_CNT_THROTTLE_CNT
  | THM_CNT_CRIT_CNT
  | THM_CNT_FAILED
  | THM_FAILMAP_MAP
  | THM_SENSOR_VALUE
  | THM_SHUT_ID_SHUT_ID
  | REC_STAT_FLUSHING
  | REC_STAT_FLUSH_PEND
  | REC_STAT_WR_FAULT
  | REC_STAT_LASTING_SEEN
  | REC_STAT_STALE_CNT
  | REC_AGE_SECONDS
  | REC_ONTIME_LO_SECONDS
  | REC_ONTIME_HI_SECONDS
  | TW_STATE_STATE
  | TW_STATE_HALF
  | TW_STATE_SENIOR
  | TW_STATE_LINE
  | TW_STATE_SIDEBAND_FAULT
  | TW_STATE_TAKEOVER_SEEN
  | TW_STATE_SEPARATED_SEEN
  | TW_STATE_HB_MISS
  | TW_PARTNER_LO_ID
  | TW_PARTNER_HI_ID
  | TW_LAG_PENDING
  | TW_LAG_ACK_MAX
  | TW_MRES_BASE_BASE
  | TW_MRES_SIZE_PAGES
  | TW_MRES_PROD_COUNT
  | TW_MRES_CONS_COUNT
deriving DecidableEq, Repr

/-- What a register table says of one field. `pair` marks the registers whose two halves [31:16] and [15:0] hold
consecutive entries (TD_BIN, DU_DEPTH, THM_SENSOR and the like): such a field is indexed by entry. -/
structure FldInfo where
  reg : Reg
  hi : Nat
  lo : Nat
  acc : Acc
  reset : Nat
  pair : Bool := false
deriving DecidableEq, Repr

/-- Bits, access code and reset value of every field. Reset values that a table leaves open (a dash) are the
model's and are named in the assumption log (entry 2). -/
def Fld.info : Fld → FldInfo
  | .PT_MEMBERS_MASK => ⟨.PT_MEMBERS, 31, 0, .RO, 0, false⟩
  | .PH_SRC_KIND => ⟨.PH_SRC, 31, 30, .RW, 0, false⟩
  | .PH_SRC_EDGE => ⟨.PH_SRC, 29, 29, .RW, 0, false⟩
  | .PH_SRC_INDEX => ⟨.PH_SRC, 9, 0, .RW, 0, false⟩
  | .PH_LOOP_BW_KHZ => ⟨.PH_LOOP, 31, 20, .RW, 2000, false⟩
  | .PH_LOOP_ZETA => ⟨.PH_LOOP, 19, 14, .RW, 16, false⟩
  | .PH_LOOP_LOCK_EDGES => ⟨.PH_LOOP, 13, 11, .RW, 2, false⟩
  | .PH_LOOP_ACQ_TIMEOUT => ⟨.PH_LOOP, 10, 0, .RW, 100, false⟩
  | .PH_FMIN_FMIN => ⟨.PH_FMIN, 31, 0, .RW, 3355443, false⟩
  | .PH_FMAX_FMAX => ⟨.PH_FMAX, 31, 0, .RW, 107374182, false⟩
  | .PH_LIMIT_POLICY => ⟨.PH_LIMIT, 31, 30, .RW, 1, false⟩
  | .PH_LIMIT_ERR_LIM => ⟨.PH_LIMIT, 29, 16, .RW, 328, false⟩
  | .PH_HOLD_HOLD_LIMIT => ⟨.PH_HOLD, 19, 0, .RW, 1000, false⟩
  | .PH_FREQ_FREQ => ⟨.PH_FREQ, 31, 0, .RO, 0, false⟩
  | .PH_ERR_ERR_RMS => ⟨.PH_ERR, 31, 16, .RO, 0, false⟩
  | .PH_ERR_ERR_PEAK => ⟨.PH_ERR, 15, 0, .RC, 0, false⟩
  | .PT_PHASE_LO_PHASE => ⟨.PT_PHASE_LO, 31, 0, .RO, 0, false⟩
  | .PT_PHASE_HI_PHASE => ⟨.PT_PHASE_HI, 31, 0, .RO, 0, false⟩
  | .PT_STATUS_TRK => ⟨.PT_STATUS, 31, 30, .RO, 0, false⟩
  | .PT_STATUS_REF_LOST => ⟨.PT_STATUS, 29, 29, .W1C, 0, false⟩
  | .PT_STATUS_CAUSE => ⟨.PT_STATUS, 28, 26, .W1C, 0, false⟩
  | .PT_STATUS_GREF_HOLD => ⟨.PT_STATUS, 25, 25, .RO, 0, false⟩
  | .PT_STATUS_WR_IGNORED => ⟨.PT_STATUS, 24, 24, .W1C, 0, false⟩
  | .PT_STATUS_GLITCH_CNT => ⟨.PT_STATUS, 15, 0, .RC, 0, false⟩
  | .CH_CFG_DRV_INV => ⟨.CH_CFG, 31, 31, .RW, 0, false⟩
  | .CH_CFG_DEN_INV => ⟨.CH_CFG, 30, 30, .RW, 0, false⟩
  | .CH_CFG_CMH_INV => ⟨.CH_CFG, 29, 29, .RW, 0, false⟩
  | .CH_CFG_CML_INV => ⟨.CH_CFG, 28, 28, .RW, 0, false⟩
  | .CH_CFG_SER_MODE => ⟨.CH_CFG, 27, 26, .RW, 0, false⟩
  | .CH_CFG_U_LEN => ⟨.CH_CFG, 25, 22, .RW, 0, false⟩
  | .CH_CFG_CMP_MASK => ⟨.CH_CFG, 21, 21, .RW, 0, false⟩
  | .CH_SER_POLY_POLY => ⟨.CH_SER_POLY, 31, 0, .RW, 0, false⟩
  | .CH_SER_SEED_SEED => ⟨.CH_SER_SEED, 31, 0, .RW, 1, false⟩
  | .CH_SER_SH_LO_SHIFT => ⟨.CH_SER_SH_LO, 31, 0, .RW, 0, false⟩
  | .CH_SER_SH_HI_SHIFT => ⟨.CH_SER_SH_HI, 31, 0, .RW, 0, false⟩
  | .CH_UTAB_LO_ENTRY => ⟨.CH_UTAB_LO, 31, 0, .RW, 0, false⟩
  | .CH_UTAB_HI_ENTRY => ⟨.CH_UTAB_HI, 31, 0, .RW, 0, false⟩
  | .CH_STATUS_PARKED => ⟨.CH_STATUS, 31, 31, .RO, 1, false⟩
  | .CH_STATUS_PARK_CAUSE => ⟨.CH_STATUS, 30, 28, .RO, 1, false⟩
  | .CH_STATUS_STALE => ⟨.CH_STATUS, 27, 27, .RO, 0, false⟩
  | .CH_STATUS_REF_USE => ⟨.CH_STATUS, 26, 26, .RO, 0, false⟩
  | .CH_STATUS_EDGE_CLASH => ⟨.CH_STATUS, 25, 25, .W1C, 0, false⟩
  | .CH_STATUS_BAD_SYM => ⟨.CH_STATUS, 24, 24, .W1C, 0, false⟩
  | .CH_STATUS_BAD_TS => ⟨.CH_STATUS, 23, 23, .W1C, 0, false⟩
  | .CH_STATUS_ILLEGAL_CMP => ⟨.CH_STATUS, 22, 22, .W1C, 0, false⟩
  | .CH_STATUS_CLASH_CNT => ⟨.CH_STATUS, 15, 0, .RC, 0, false⟩
  | .CH_PARKN_PARKN_GLITCH => ⟨.CH_PARKN, 15, 0, .RC, 0, false⟩
  | .PG_VEC_BASE_BASE => ⟨.PG_VEC_BASE, 31, 0, .RO, 0, false⟩
  | .PG_TS_BASE_BASE => ⟨.PG_TS_BASE, 31, 0, .RO, 0, false⟩
  | .PG_TAG_BASE_BASE => ⟨.PG_TAG_BASE, 31, 0, .RO, 0, false⟩
  | .PG_LIMIT_LIMIT => ⟨.PG_LIMIT, 27, 0, .RO, 0, false⟩
  | .PG_QUOTA_CAP_PAGES => ⟨.PG_QUOTA, 31, 16, .RO, 256, false⟩
  | .PG_QUOTA_PAT_PAGES => ⟨.PG_QUOTA, 15, 0, .RO, 1088, false⟩
  | .PG_USE_BORROWED => ⟨.PG_USE, 31, 16, .RO, 0, false⟩
  | .PG_USE_HELD => ⟨.PG_USE, 15, 0, .RO, 0, false⟩
  | .PG_PIN_RESERVE => ⟨.PG_PIN, 31, 16, .RO, 0, false⟩
  | .PG_PIN_RESIDENT => ⟨.PG_PIN, 15, 0, .RO, 0, false⟩
  | .PG_LEAD_LEAD_NS => ⟨.PG_LEAD, 31, 16, .RO, 0, false⟩
  | .PG_LEAD_LEAD_MIN => ⟨.PG_LEAD, 15, 0, .RC, 65535, false⟩
  | .PG_STATUS_LEAD_LOW => ⟨.PG_STATUS, 31, 31, .W1C, 0, false⟩
  | .PG_STATUS_UNDERRUN => ⟨.PG_STATUS, 30, 30, .W1C, 0, false⟩
  | .PG_STATUS_DATA_ERROR => ⟨.PG_STATUS, 29, 29, .W1C, 0, false⟩
  | .PG_STATUS_NOT_LOADED => ⟨.PG_STATUS, 28, 28, .W1C, 0, false⟩
  | .PG_STATUS_LEAD_LOW_CNT => ⟨.PG_STATUS, 23, 16, .RC, 0, false⟩
  | .PG_STATUS_RECLAIM_CNT => ⟨.PG_STATUS, 15, 0, .RC, 0, false⟩
  | .PT_SUPPLY_PREPARED => ⟨.PT_SUPPLY, 31, 31, .RO, 0, false⟩
  | .PT_SUPPLY_STREAM => ⟨.PT_SUPPLY, 30, 30, .RO, 0, false⟩
  | .PT_SUPPLY_LEAD_POLICY => ⟨.PT_SUPPLY, 29, 29, .RW, 0, false⟩
  | .PT_SUPPLY_RING => ⟨.PT_SUPPLY, 5, 0, .RO, 63, false⟩
  | .POOL_FREE_UNALLOC => ⟨.POOL_FREE, 31, 16, .RO, 4096, false⟩
  | .POOL_FREE_FREE => ⟨.POOL_FREE, 15, 0, .RO, 4096, false⟩
  | .POOL_ERR_CORR => ⟨.POOL_ERR, 31, 16, .RC, 0, false⟩
  | .POOL_ERR_WIN_REJECT_CNT => ⟨.POOL_ERR, 15, 0, .RC, 0, false⟩
  | .SR_CFG_USE => ⟨.SR_CFG, 31, 30, .RO, 0, false⟩
  | .SR_CFG_PITCH => ⟨.SR_CFG, 29, 25, .RO, 0, false⟩
  | .SR_CFG_PAGES => ⟨.SR_CFG, 24, 12, .RO, 0, false⟩
  | .SR_COMMIT_HEAD => ⟨.SR_COMMIT, 63, 0, .WO, 0, false⟩
  | .SR_HEAD_HEAD => ⟨.SR_HEAD, 63, 0, .RO, 0, false⟩
  | .SR_TAIL_TAIL => ⟨.SR_TAIL, 63, 0, .RO, 0, false⟩
  | .SR_STATUS_REJECT => ⟨.SR_STATUS, 31, 31, .W1C, 0, false⟩
  | .SR_STATUS_RING_OVF => ⟨.SR_STATUS, 30, 30, .W1C, 0, false⟩
  | .SQ_TBL_BASE_BASE => ⟨.SQ_TBL_BASE, 31, 0, .RO, 0, false⟩
  | .SQ_TBL_LEN_COUNT => ⟨.SQ_TBL_LEN, 20, 0, .RO, 0, false⟩
  | .PT_RUN_STATE => ⟨.PT_RUN, 31, 29, .RO, 0, false⟩
  | .PT_RUN_RESUMABLE => ⟨.PT_RUN, 28, 28, .RO, 0, false⟩
  | .PT_RUN_DEFER => ⟨.PT_RUN, 27, 27, .W1C, 0, false⟩
  | .PT_RUN_DROP => ⟨.PT_RUN, 26, 26, .W1C, 0, false⟩
  | .PT_RUN_PEND => ⟨.PT_RUN, 25, 25, .RO, 0, false⟩
  | .PT_RUN_STOP_CAUSE => ⟨.PT_RUN, 24, 20, .RO, 0, false⟩
  | .PT_RUN_DEFER_CNT => ⟨.PT_RUN, 15, 0, .RC, 0, false⟩
  | .PT_POS_IMODE => ⟨.PT_POS, 31, 31, .RO, 0, false⟩
  | .PT_POS_IP => ⟨.PT_POS, 29, 20, .RO, 0, false⟩
  | .PT_POS_SEG => ⟨.PT_POS, 19, 0, .RO, 0, false⟩
  | .PT_PASS_PASS => ⟨.PT_PASS, 31, 0, .RO, 0, false⟩
  | .PT_STACK_LOOP_DEPTH => ⟨.PT_STACK, 31, 27, .RO, 0, false⟩
  | .PT_STACK_CALL_DEPTH => ⟨.PT_STACK, 26, 22, .RO, 0, false⟩
  | .PT_STACK_PEND_TARGET => ⟨.PT_STACK, 19, 0, .RO, 0, false⟩
  | .PT_FLAGS_FLAG => ⟨.PT_FLAGS, 15, 0, .RW, 0, false⟩
  | .PT_CNT_COUNT => ⟨.PT_CNT, 31, 0, .RW, 0, false⟩
  | .PT_CNT_CFG_EVT => ⟨.PT_CNT_CFG, 5, 4, .RW, 0, false⟩
  | .PT_CNT_CFG_SEL => ⟨.PT_CNT_CFG, 2, 0, .RW, 0, false⟩
  | .PT_RESP_RESP_LAT => ⟨.PT_RESP, 7, 0, .RW, 0, false⟩
  | .PT_VEC_LO_COUNT => ⟨.PT_VEC_LO, 31, 0, .RO, 0, false⟩
  | .PT_VEC_HI_COUNT => ⟨.PT_VEC_HI, 31, 0, .RO, 0, false⟩
  | .SQ_FMASK_MASK => ⟨.SQ_FMASK, 31, 0, .RW, 4294967295, false⟩
  | .MK_ROUTE_EN => ⟨.MK_ROUTE, 31, 31, .RW, 0, false⟩
  | .MK_ROUTE_POL => ⟨.MK_ROUTE, 30, 30, .RW, 0, false⟩
  | .MK_ROUTE_FORM => ⟨.MK_ROUTE, 29, 29, .RW, 0, false⟩
  | .MK_ROUTE_PITCH => ⟨.MK_ROUTE, 28, 24, .RW, 0, false⟩
  | .MK_ROUTE_BIT => ⟨.MK_ROUTE, 23, 22, .RW, 0, false⟩
  | .MK_ROUTE_WIDTH => ⟨.MK_ROUTE, 21, 14, .RW, 2, false⟩
  | .MK_OFF_OFFSET => ⟨.MK_OFF, 23, 0, .RW, 0, false⟩
  | .XT_CFG_POL => ⟨.XT_CFG, 7, 0, .RW, 0, false⟩
  | .XT_GLITCH_COUNT => ⟨.XT_GLITCH, 15, 0, .RC, 0, false⟩
  | .SQ_UCTL_UMODE => ⟨.SQ_UCTL, 31, 31, .RO, 0, false⟩
  | .SQ_UCTL_URUN => ⟨.SQ_UCTL, 30, 30, .RO, 0, false⟩
  | .SQ_UPC_UPATCH => ⟨.SQ_UPC, 14, 14, .RO, 0, false⟩
  | .SQ_UPC_UPC => ⟨.SQ_UPC, 13, 0, .RO, 0, false⟩
  | .SQ_USTAT_UFAULT => ⟨.SQ_USTAT, 31, 31, .W1C, 0, false⟩
  | .SQ_USTAT_UCAUSE => ⟨.SQ_USTAT, 30, 28, .RO, 0, false⟩
  | .SQ_USTAT_CMD_REJ => ⟨.SQ_USTAT, 27, 27, .W1C, 0, false⟩
  | .SQ_USTAT_CORR_CNT => ⟨.SQ_USTAT, 15, 0, .RC, 0, false⟩
  | .SQ_INTP_PEND => ⟨.SQ_INTP, 31, 29, .RO, 0, false⟩
  | .SQ_INTP_LAT_MAX => ⟨.SQ_INTP, 15, 0, .RC, 0, false⟩
  | .SQ_CMD_CODE => ⟨.SQ_CMD, 31, 28, .WO, 0, false⟩
  | .SQ_CMD_SEG => ⟨.SQ_CMD, 19, 0, .WO, 0, false⟩
  | .SQ_TRACE_EN => ⟨.SQ_TRACE, 31, 31, .RW, 0, false⟩
  | .SQ_TRACE_SEG => ⟨.SQ_TRACE, 19, 0, .RW, 0, false⟩
  | .SQ_PATCH_RELEASE => ⟨.SQ_PATCH, 31, 16, .RO, 0, false⟩
  | .SQ_PATCH_NWORDS => ⟨.SQ_PATCH, 10, 0, .RO, 0, false⟩
  | .SQ_PRIME_RESULT => ⟨.SQ_PRIME, 31, 0, .RO, 0, false⟩
  | .SQ_MATCH_WORD => ⟨.SQ_MATCH, 31, 0, .RO, 0, false⟩
  | .UC_LOAD_LSTAT => ⟨.UC_LOAD, 31, 28, .RO, 15, false⟩
  | .CH_FAILCNT_LO_COUNT => ⟨.CH_FAILCNT_LO, 31, 0, .RO, 0, false⟩
  | .CH_FAILCNT_HI_FC_SAT => ⟨.CH_FAILCNT_HI, 31, 31, .RO, 0, false⟩
  | .CH_FAILCNT_HI_COUNT => ⟨.CH_FAILCNT_HI, 15, 0, .RO, 0, false⟩
  | .CU_CFG_FL => ⟨.CU_CFG, 31, 31, .RW, 0, false⟩
  | .CU_CFG_RAW => ⟨.CU_CFG, 30, 30, .RW, 0, false⟩
  | .CU_CFG_RED => ⟨.CU_CFG, 29, 29, .RW, 0, false⟩
  | .CU_CFG_STRIP => ⟨.CU_CFG, 28, 28, .RW, 0, false⟩
  | .CU_CFG_RAWSEL => ⟨.CU_CFG, 27, 27, .RW, 0, false⟩
  | .CU_CFG_CLR_ON_START => ⟨.CU_CFG, 26, 26, .RW, 0, false⟩
  | .CU_RAWMASK_MASK => ⟨.CU_RAWMASK, 31, 0, .RW, 0, false⟩
  | .CU_REDMASK_MASK => ⟨.CU_REDMASK, 31, 0, .RW, 0, false⟩
  | .CU_REDINT_VECTORS => ⟨.CU_REDINT, 31, 0, .RW, 0, false⟩
  | .CU_AREA_BASE_BASE => ⟨.CU_AREA_BASE, 31, 0, .RW, 0, false⟩
  | .CU_AREA_SIZE_SIZE => ⟨.CU_AREA_SIZE, 31, 0, .RW, 0, false⟩
  | .CU_DEST_KIND => ⟨.CU_DEST, 31, 30, .RW, 0, false⟩
  | .CU_DEST_PORT => ⟨.CU_DEST, 29, 26, .RW, 0, false⟩
  | .CU_DRING_BASE_BASE => ⟨.CU_DRING_BASE, 63, 0, .RW, 0, false⟩
  | .CU_DRING_SIZE_PAGES => ⟨.CU_DRING_SIZE, 31, 0, .RW, 0, false⟩
  | .CU_SHEAD_HEAD => ⟨.CU_SHEAD, 63, 0, .RO, 0, false⟩
  | .CU_STAIL_TAIL => ⟨.CU_STAIL, 63, 0, .RW, 0, false⟩
  | .CU_FILL_PEAK => ⟨.CU_FILL, 31, 16, .RC, 0, false⟩
  | .CU_FILL_USED => ⟨.CU_FILL, 15, 0, .RO, 0, false⟩
  | .CU_STATUS_OVF => ⟨.CU_STATUS, 31, 31, .W1C, 0, false⟩
  | .CU_STATUS_OVF_CAUSE => ⟨.CU_STATUS, 30, 28, .RO, 0, false⟩
  | .CU_STATUS_SPILLED => ⟨.CU_STATUS, 27, 27, .W1C, 0, false⟩
  | .CU_RUNFAIL_MAP => ⟨.CU_RUNFAIL, 31, 0, .RO, 0, false⟩
  | .TR_CARE_CARE => ⟨.TR_CARE, 31, 0, .RW, 0, false⟩
  | .TR_VAL_VAL => ⟨.TR_VAL, 31, 0, .RW, 0, false⟩
  | .PC_STATE_ASTATE => ⟨.PC_STATE, 31, 29, .RO, 0, false⟩
  | .PC_STATE_MODE => ⟨.PC_STATE, 28, 28, .RO, 0, false⟩
  | .PC_STATE_TSRC => ⟨.PC_STATE, 27, 24, .RO, 0, false⟩
  | .PC_STATE_WINDONE => ⟨.PC_STATE, 15, 0, .RO, 0, false⟩
  | .PC_MISSED_COUNT => ⟨.PC_MISSED, 31, 0, .RC, 0, false⟩
  | .TR_CTL_EN => ⟨.TR_CTL, 31, 31, .RW, 0, false⟩
  | .TR_CTL_NSTAGE => ⟨.TR_CTL, 30, 29, .RW, 0, false⟩
  | .TR_STG_COMB => ⟨.TR_STG, 31, 30, .RW, 0, false⟩
  | .TR_STG_LINE => ⟨.TR_STG, 29, 25, .RW, 0, false⟩
  | .TR_STG_VIEW => ⟨.TR_STG, 24, 24, .RW, 0, false⟩
  | .TR_STG_QUAL => ⟨.TR_STG, 23, 23, .RW, 0, false⟩
  | .TR_STG_COUNT => ⟨.TR_STG, 15, 0, .RW, 1, false⟩
  | .TR_TMO_TIMEOUT => ⟨.TR_TMO, 31, 0, .RW, 0, false⟩
  | .TR_STATE_STAGE => ⟨.TR_STATE, 31, 30, .RO, 0, false⟩
  | .TR_STATE_TMO_CNT => ⟨.TR_STATE, 15, 0, .RC, 0, false⟩
  | .TR_FIRE_FIRE_CNT => ⟨.TR_FIRE, 31, 0, .RC, 0, false⟩
  | .TB_SRC_EN => ⟨.TB_SRC, 31, 31, .RW, 0, false⟩
  | .TB_SRC_PITCH => ⟨.TB_SRC, 30, 26, .RW, 0, false⟩
  | .TB_SRC_STAGE => ⟨.TB_SRC, 25, 24, .RW, 0, false⟩
  | .TB_SRC_WIDTH => ⟨.TB_SRC, 23, 16, .RW, 1, false⟩
  | .TB_STATE_LINE => ⟨.TB_STATE, 31, 0, .RO, 0, false⟩
  | .TD_STATE_MSTATE => ⟨.TD_STATE, 31, 30, .RO, 0, false⟩
  | .TD_STATE_USE => ⟨.TD_STATE, 29, 28, .RO, 0, false⟩
  | .TD_STATE_LAST_STATUS => ⟨.TD_STATE, 27, 24, .RO, 0, false⟩
  | .TD_STATE_GAP => ⟨.TD_STATE, 23, 23, .W1C, 0, false⟩
  | .TD_STATE_OWNER => ⟨.TD_STATE, 10, 0, .RO, 0, false⟩
  | .TD_COUNT_COUNT => ⟨.TD_COUNT, 31, 0, .RO, 0, false⟩
  | .TD_STAMPS_STAMPS => ⟨.TD_STAMPS, 31, 0, .RC, 0, false⟩
  | .TD_LOSS_DEAD_CNT => ⟨.TD_LOSS, 31, 16, .RC, 0, false⟩
  | .TD_LOSS_OVR_CNT => ⟨.TD_LOSS, 15, 0, .RC, 0, false⟩
  | .TD_OFF_OFFSET => ⟨.TD_OFF, 31, 0, .RO, 0, false⟩
  | .TD_BIN_VALUE => ⟨.TD_BIN, 15, 0, .RO, 0, true⟩
  | .ES_MASK_MASK => ⟨.ES_MASK, 31, 0, .RW, 0, false⟩
  | .ES_CFG_SIG => ⟨.ES_CFG, 31, 31, .RW, 0, false⟩
  | .ES_CFG_EDGE => ⟨.ES_CFG, 30, 29, .RW, 0, false⟩
  | .ES_INT_VECTORS => ⟨.ES_INT, 31, 0, .RW, 0, false⟩
  | .CAL_RUN_STATE => ⟨.CAL_RUN, 31, 30, .RO, 0, false⟩
  | .CAL_RUN_FAILS => ⟨.CAL_RUN, 15, 0, .RO, 0, false⟩
  | .CAL_MAP_SLOT => ⟨.CAL_MAP, 14, 0, .RO, 18056, false⟩
  | .CAL_MAP_STAGE => ⟨.CAL_MAP, 17, 15, .RO, 5, false⟩
  | .CAL_MAP_VALID => ⟨.CAL_MAP, 22, 18, .RO, 31, false⟩
  | .CAL_MAP_STAGED => ⟨.CAL_MAP, 23, 23, .RO, 0, false⟩
  | .CAL_GTEMP_TEMP => ⟨.CAL_GTEMP, 31, 16, .RO, 0, false⟩
  | .CAL_GTEMP_APPLIED_T => ⟨.CAL_GTEMP, 15, 0, .RO, 0, false⟩
  | .CAL_GSTAT_DRIFT => ⟨.CAL_GSTAT, 31, 31, .RO, 0, false⟩
  | .CAL_GSTAT_CATCHUP => ⟨.CAL_GSTAT, 30, 30, .RO, 0, false⟩
  | .CAL_GSTAT_DRIFT_SEEN => ⟨.CAL_GSTAT, 29, 29, .W1C, 0, false⟩
  | .CAL_GSTAT_NOSENSE => ⟨.CAL_GSTAT, 28, 28, .RO, 0, false⟩
  | .CAL_GSTAT_DRIFT_CNT => ⟨.CAL_GSTAT, 15, 0, .RC, 0, false⟩
  | .CAL_APPLY_OFFSET => ⟨.CAL_APPLY, 31, 0, .RO, 0, false⟩
  | .CAL_CHFAIL_FAIL => ⟨.CAL_CHFAIL, 3, 0, .RO, 0, false⟩
  | .CH_SYSOFF_OFFSET => ⟨.CH_SYSOFF, 22, 0, .RW, 0, false⟩
  | .VCM_STATE_STATE => ⟨.VCM_STATE, 31, 30, .RO, 0, false⟩
  | .VCM_STATE_RETIRE_PEND => ⟨.VCM_STATE, 29, 29, .RO, 0, false⟩
  | .VCM_STATE_NOSPARE => ⟨.VCM_STATE, 15, 0, .RO, 0, false⟩
  | .VCM_INT_INT_MAX => ⟨.VCM_INT, 31, 16, .RC, 0, false⟩
  | .VCM_INT_INT_CNT => ⟨.VCM_INT, 15, 0, .RC, 0, false⟩
  | .VCM_SCRUB_EN => ⟨.VCM_SCRUB, 31, 31, .RW, 1, false⟩
  | .VCM_SCRUB_PASSES => ⟨.VCM_SCRUB, 15, 0, .RO, 0, false⟩
  | .VCM_ERRADDR_LO_ADDR => ⟨.VCM_ERRADDR_LO, 31, 0, .RO, 0, false⟩
  | .VCM_ERRADDR_HI_ADDR => ⟨.VCM_ERRADDR_HI, 4, 0, .RO, 0, false⟩
  | .VS_STAT_TMODE => ⟨.VS_STAT, 31, 30, .RO, 0, false⟩
  | .VS_STAT_CATCHUP_SEEN => ⟨.VS_STAT, 29, 29, .W1C, 0, false⟩
  | .VS_STAT_THROTTLE_SEEN => ⟨.VS_STAT, 28, 28, .W1C, 0, false⟩
  | .VS_STAT_NOREAD => ⟨.VS_STAT, 27, 27, .RO, 0, false⟩
  | .VS_STAT_TEMP => ⟨.VS_STAT, 15, 0, .RO, 0, false⟩
  | .VP_STAT_RMODE => ⟨.VP_STAT, 31, 30, .RO, 0, false⟩
  | .VP_STAT_WQ_DEPTH => ⟨.VP_STAT, 29, 23, .RO, 0, false⟩
  | .VP_STAT_DEBT => ⟨.VP_STAT, 15, 0, .RO, 0, false⟩
  | .VP_ERR_CE_CNT => ⟨.VP_ERR, 31, 16, .RC, 0, false⟩
  | .VP_ERR_UE_CNT => ⟨.VP_ERR, 15, 8, .RC, 0, false⟩
  | .VP_ERR_RETIRED => ⟨.VP_ERR, 7, 0, .RO, 0, false⟩
  | .VP_CNT_FWD_CNT => ⟨.VP_CNT, 31, 16, .RC, 0, false⟩
  | .VP_CNT_URG_CNT => ⟨.VP_CNT, 15, 8, .RC, 0, false⟩
  | .LK_CFG_ROLE => ⟨.LK_CFG, 31, 30, .RW, 0, false⟩
  | .LK_CFG_MODE => ⟨.LK_CFG, 29, 28, .RW, 2, false⟩
  | .LK_CFG_FIR_FIXED => ⟨.LK_CFG, 27, 27, .RW, 0, false⟩
  | .LK_CFG_LANES => ⟨.LK_CFG, 26, 23, .RW, 15, false⟩
  | .LK_CFG_IDLE_DELAY => ⟨.LK_CFG, 15, 0, .RW, 10000, false⟩
  | .LK_STATE_STATE => ⟨.LK_STATE, 31, 28, .RO, 0, false⟩
  | .LK_STATE_LMAP => ⟨.LK_STATE, 27, 24, .RO, 0, false⟩
  | .LK_STATE_GEN => ⟨.LK_STATE, 23, 20, .RO, 0, false⟩
  | .LK_STATE_COMPAT => ⟨.LK_STATE, 19, 19, .RO, 0, false⟩
  | .LK_STATE_ATTEMPT => ⟨.LK_STATE, 18, 17, .RO, 0, false⟩
  | .LK_STATE_SIGDET => ⟨.LK_STATE, 16, 16, .RO, 0, false⟩
  | .LK_STATE_CAUSE => ⟨.LK_STATE, 15, 12, .RO, 0, false⟩
  | .LK_PARTNER_LO_ID => ⟨.LK_PARTNER_LO, 31, 0, .RO, 0, false⟩
  | .LK_PARTNER_HI_ID => ⟨.LK_PARTNER_HI, 31, 0, .RO, 0, false⟩
  | .LK_PINFO_KIND => ⟨.LK_PINFO, 31, 24, .RO, 0, false⟩
  | .LK_PINFO_PORT => ⟨.LK_PINFO, 23, 20, .RO, 0, false⟩
  | .LK_LANE_LSTATE => ⟨.LK_LANE, 31, 29, .RO, 0, false⟩
  | .LK_LANE_LOST_SEEN => ⟨.LK_LANE, 28, 28, .W1C, 0, false⟩
  | .LK_LANE_DROP_SEEN => ⟨.LK_LANE, 27, 27, .W1C, 0, false⟩
  | .LK_LANE_POLINV => ⟨.LK_LANE, 26, 26, .RO, 0, false⟩
  | .LK_LANE_REVERSED => ⟨.LK_LANE, 25, 25, .RO, 0, false⟩
  | .LK_LANE_FAULTS => ⟨.LK_LANE, 23, 16, .RO, 0, false⟩
  | .LK_LANE_UCW_CNT => ⟨.LK_LANE, 15, 0, .RC, 0, false⟩
  | .LK_FIR_PRE => ⟨.LK_FIR, 12, 8, .RW, 0, false⟩
  | .LK_FIR_POST => ⟨.LK_FIR, 4, 0, .RW, 0, false⟩
  | .LK_SLOW_SLOW_THR => ⟨.LK_SLOW, 15, 0, .RW, 4096, false⟩
  | .LK_ERR_NAK_CNT => ⟨.LK_ERR, 31, 16, .RC, 0, false⟩
  | .LK_ERR_CRC_CNT => ⟨.LK_ERR, 15, 0, .RC, 0, false⟩
  | .LK_CNT_REPLAY_CNT => ⟨.LK_CNT, 31, 16, .RC, 0, false⟩
  | .LK_CNT_RESTRIPE_CNT => ⟨.LK_CNT, 15, 8, .RC, 0, false⟩
  | .LK_CNT_RETRAIN_CNT => ⟨.LK_CNT, 7, 0, .RC, 0, false⟩
  | .LK_TXN_UR_CNT => ⟨.LK_TXN, 31, 16, .RC, 0, false⟩
  | .LK_TXN_DROP_MSG => ⟨.LK_TXN, 15, 0, .RC, 0, false⟩
  | .LK_APER_APBASE => ⟨.LK_APER, 1, 0, .RO, 0, false⟩
  | .GY_CFG_PEG_LOG => ⟨.GY_CFG, 31, 28, .RW, 3, false⟩
  | .GY_CFG_ECHO => ⟨.GY_CFG, 27, 27, .RW, 1, false⟩
  | .GY_CFG_REFL => ⟨.GY_CFG, 26, 26, .RW, 1, false⟩
  | .GY_CFG_THRESH => ⟨.GY_CFG, 25, 18, .RW, 20, false⟩
  | .GY_HUB_HUB_TURN => ⟨.GY_HUB, 31, 0, .RW, 0, false⟩
  | .GY_ASYM_ASYM => ⟨.GY_ASYM, 23, 0, .RW, 0, false⟩
  | .GY_BOFF_BEAT_OFF => ⟨.GY_BOFF, 21, 0, .RO, 0, false⟩
  | .GY_RESID_R => ⟨.GY_RESID, 31, 0, .RO, 0, false⟩
  | .GY_RT_RT => ⟨.GY_RT, 31, 0, .RO, 0, false⟩
  | .GY_STATUS_ALIGNED => ⟨.GY_STATUS, 31, 31, .RO, 0, false⟩
  | .GY_STATUS_SHIFT_HOLD => ⟨.GY_STATUS, 30, 30, .RO, 0, false⟩
  | .GY_STATUS_SHIFT_SEEN => ⟨.GY_STATUS, 29, 29, .W1C, 0, false⟩
  | .GY_STATUS_PATH_SEEN => ⟨.GY_STATUS, 28, 28, .W1C, 0, false⟩
  | .GY_STATUS_SCAUSE => ⟨.GY_STATUS, 27, 26, .RO, 0, false⟩
  | .GY_STATUS_NO_REFL => ⟨.GY_STATUS, 25, 25, .RO, 0, false⟩
  | .GY_STATUS_ALIGN_ARMED => ⟨.GY_STATUS, 24, 24, .RO, 0, false⟩
  | .GY_STATUS_CALPEND => ⟨.GY_STATUS, 23, 23, .RO, 0, false⟩
  | .GY_STATUS_MISS_CNT => ⟨.GY_STATUS, 15, 0, .RC, 0, false⟩
  | .GY_CNT_REFL_MISS => ⟨.GY_CNT, 31, 16, .RC, 0, false⟩
  | .GY_CNT_BADW => ⟨.GY_CNT, 15, 8, .RC, 0, false⟩
  | .GY_CNT_SLIP_CNT => ⟨.GY_CNT, 7, 0, .RC, 0, false⟩
  | .GY_BEAT_LO_BEAT => ⟨.GY_BEAT_LO, 31, 0, .RO, 0, false⟩
  | .GY_BEAT_HI_BEAT => ⟨.GY_BEAT_HI, 15, 0, .RO, 0, false⟩
  | .TM_NS_LO_NS => ⟨.TM_NS_LO, 31, 0, .RO, 0, false⟩
  | .TM_NS_HI_NS => ⟨.TM_NS_HI, 31, 0, .RO, 0, false⟩
  | .TM_FRAC_FRAC => ⟨.TM_FRAC, 31, 0, .RO, 0, false⟩
  | .TM_EPOCH_EPOCH => ⟨.TM_EPOCH, 15, 0, .RO, 0, false⟩
  | .TM_INCR_HI_INT => ⟨.TM_INCR_HI, 31, 0, .RO, 1, false⟩
  | .TM_INCR_LO_FRAC => ⟨.TM_INCR_LO, 31, 0, .RO, 0, false⟩
  | .TM_CFG_DOMAIN => ⟨.TM_CFG, 31, 25, .RW, 0, false⟩
  | .TM_CFG_PRIO1 => ⟨.TM_CFG, 24, 17, .RW, 128, false⟩
  | .TM_CFG_PRIO2 => ⟨.TM_CFG, 16, 9, .RW, 128, false⟩
  | .TM_CFG_BC => ⟨.TM_CFG, 8, 8, .RW, 0, false⟩
  | .TM_CFG_SLAVE_ONLY => ⟨.TM_CFG, 7, 7, .RW, 0, false⟩
  | .TM_STATUS_LOCKED => ⟨.TM_STATUS, 31, 31, .RO, 0, false⟩
  | .TM_STATUS_HOLDOVER => ⟨.TM_STATUS, 30, 30, .RO, 0, false⟩
  | .TM_STATUS_SLEWING => ⟨.TM_STATUS, 29, 29, .RO, 0, false⟩
  | .TM_STATUS_GREF_DISC => ⟨.TM_STATUS, 28, 28, .RO, 0, false⟩
  | .TM_STATUS_STEP_SEEN => ⟨.TM_STATUS, 27, 27, .W1C, 0, false⟩
  | .TM_STATUS_EPOCH_SEEN => ⟨.TM_STATUS, 26, 26, .W1C, 0, false⟩
  | .TM_STATUS_SLAVE_PORT => ⟨.TM_STATUS, 25, 21, .RO, 31, false⟩
  | .TM_STATUS_HOLD_CNT => ⟨.TM_STATUS, 15, 0, .RC, 0, false⟩
  | .TM_FWD_FWD => ⟨.TM_FWD, 11, 0, .RW, 0, false⟩
  | .PP_CFG_EN => ⟨.PP_CFG, 31, 31, .RW, 0, false⟩
  | .PP_CFG_DELAY => ⟨.PP_CFG, 30, 30, .RW, 0, false⟩
  | .PP_CFG_LOG_SYNC => ⟨.PP_CFG, 29, 27, .RW, 3, false⟩
  | .PP_CFG_LOG_ANN => ⟨.PP_CFG, 26, 24, .RW, 3, false⟩
  | .PP_CFG_LOG_DREQ => ⟨.PP_CFG, 23, 20, .RW, 7, false⟩
  | .PP_CFG_ANN_TMO => ⟨.PP_CFG, 19, 16, .RW, 3, false⟩
  | .PP_CFG_PATH_THR => ⟨.PP_CFG, 15, 0, .RW, 20, false⟩
  | .PP_ASYM_ASYM => ⟨.PP_ASYM, 31, 0, .RW, 0, false⟩
  | .PP_DELAY_DELAY => ⟨.PP_DELAY, 31, 0, .RO, 0, false⟩
  | .PP_STAT_PSTATE => ⟨.PP_STAT, 31, 28, .RO, 1, false⟩
  | .PP_STAT_PATH_CHANGE => ⟨.PP_STAT, 27, 27, .W1C, 0, false⟩
  | .PP_STAT_TSQ_OVF => ⟨.PP_STAT, 26, 26, .W1C, 0, false⟩
  | .PP_STAT_IGNORING => ⟨.PP_STAT, 25, 25, .RO, 0, false⟩
  | .PP_STAT_RUN => ⟨.PP_STAT, 24, 20, .RO, 0, false⟩
  | .PP_STAT_TSQ_DEPTH => ⟨.PP_STAT, 19, 13, .RO, 0, false⟩
  | .PP_STAT_DISCARD => ⟨.PP_STAT, 12, 0, .RC, 0, false⟩
  | .SYS_ID_PART => ⟨.SYS_ID, 31, 16, .RO, 4132, false⟩
  | .SYS_ID_STEP => ⟨.SYS_ID, 15, 8, .RO, 33, false⟩
  | .SYS_REL_MP_REL => ⟨.SYS_REL, 31, 16, .RO, 770, false⟩
  | .SYS_REL_FC_REL => ⟨.SYS_REL, 15, 0, .RO, 770, false⟩
  | .SYS_DEVID_LO_ID => ⟨.SYS_DEVID_LO, 31, 0, .RO, 1, false⟩
  | .SYS_DEVID_HI_ID => ⟨.SYS_DEVID_HI, 31, 0, .RO, 0, false⟩
  | .SYS_STATE_READY => ⟨.SYS_STATE, 31, 31, .RO, 0, false⟩
  | .SYS_STATE_UNITS_PEND => ⟨.SYS_STATE, 30, 30, .RO, 0, false⟩
  | .SYS_UNITS_G_G_EN => ⟨.SYS_UNITS_G, 31, 0, .RO, 4294967295, false⟩
  | .SYS_UNITS_P_X_EN => ⟨.SYS_UNITS_P, 13, 12, .RO, 3, false⟩
  | .SYS_UNITS_P_P_EN => ⟨.SYS_UNITS_P, 11, 0, .RO, 4095, false⟩
  | .CSR_SEL_KIND => ⟨.CSR_SEL, 31, 30, .RW, 0, false⟩
  | .CSR_SEL_INDEX => ⟨.CSR_SEL, 10, 0, .RW, 0, false⟩
  | .EVR_CFG_EN => ⟨.EVR_CFG, 31, 31, .RW, 0, false⟩
  | .EVR_CFG_NOTIFY => ⟨.EVR_CFG, 30, 30, .RW, 0, false⟩
  | .EVR_CFG_LOG_SIZE => ⟨.EVR_CFG, 29, 27, .RW, 0, false⟩
  | .EVR_CFG_EVR_PAGE => ⟨.EVR_CFG, 15, 0, .RW, 0, false⟩
  | .EVR_PROD_COUNT => ⟨.EVR_PROD, 31, 0, .RO, 0, false⟩
  | .EVR_CONS_COUNT => ⟨.EVR_CONS, 31, 0, .RW, 0, false⟩
  | .EVR_STAT_EVR_LOST => ⟨.EVR_STAT, 31, 16, .RC, 0, false⟩
  | .MB_CFG_EN => ⟨.MB_CFG, 31, 31, .RW, 0, false⟩
  | .MB_CFG_PRIO => ⟨.MB_CFG, 30, 28, .RW, 7, false⟩
  | .MB_CFG_LOG_SIZE => ⟨.MB_CFG, 27, 25, .RW, 0, false⟩
  | .MB_CFG_CMD_PAGE => ⟨.MB_CFG, 15, 0, .RW, 0, false⟩
  | .MB_CPLCFG_CPL_PAGE => ⟨.MB_CPLCFG, 15, 0, .RW, 0, false⟩
  | .MB_DB_PROD => ⟨.MB_DB, 31, 0, .WO, 0, false⟩
  | .MB_PROD_COUNT => ⟨.MB_PROD, 31, 0, .RO, 0, false⟩
  | .MB_CONS_COUNT => ⟨.MB_CONS, 31, 0, .RO, 0, false⟩
  | .MB_CPL_PROD_COUNT => ⟨.MB_CPL_PROD, 31, 0, .RO, 0, false⟩
  | .MB_CPL_CONS_COUNT => ⟨.MB_CPL_CONS, 31, 0, .RW, 0, false⟩
  | .MB_STAT_ERR => ⟨.MB_STAT, 31, 31, .W1C, 0, false⟩
  | .MB_STAT_ECAUSE => ⟨.MB_STAT, 30, 28, .RO, 0, false⟩
  | .MB_STAT_CPL_WAIT => ⟨.MB_STAT, 27, 27, .RO, 0, false⟩
  | .MB_STAT_OUTSTANDING => ⟨.MB_STAT, 4, 0, .RO, 0, false⟩
  | .DU_STAT_SHED => ⟨.DU_STAT, 31, 31, .RO, 0, false⟩
  | .DU_STAT_QCFG_ERR => ⟨.DU_STAT, 30, 30, .W1C, 0, false⟩
  | .DU_STAT_REFUSE_SEEN => ⟨.DU_STAT, 29, 29, .W1C, 0, false⟩
  | .DU_STAT_HELD => ⟨.DU_STAT, 21, 8, .RO, 0, false⟩
  | .DU_STAT_SEQ_DROP => ⟨.DU_STAT, 7, 0, .RC, 0, false⟩
  | .DU_HSEL_LEVEL => ⟨.DU_HSEL, 2, 0, .RW, 0, false⟩
  | .DU_QUOTA_MAX => ⟨.DU_QUOTA, 31, 16, .RW, 0, false⟩
  | .DU_QUOTA_GUAR => ⟨.DU_QUOTA, 15, 0, .RW, 0, false⟩
  | .DU_CLASS_PRIO => ⟨.DU_CLASS, 31, 29, .RW, 0, false⟩
  | .DU_CLASS_PLIM => ⟨.DU_CLASS, 15, 0, .RW, 0, false⟩
  | .DU_DEPTH_VALUE => ⟨.DU_DEPTH, 15, 0, .RO, 0, true⟩
  | .DU_HELD_VALUE => ⟨.DU_HELD, 15, 0, .RO, 0, true⟩
  | .DU_REFUSE_VALUE => ⟨.DU_REFUSE, 15, 0, .RC, 0, true⟩
  | .DU_CANCEL_RCANCEL => ⟨.DU_CANCEL, 31, 16, .RC, 0, false⟩
  | .DU_CANCEL_CANCEL => ⟨.DU_CANCEL, 15, 0, .RC, 0, false⟩
  | .DU_HIST_COUNT => ⟨.DU_HIST, 31, 0, .RC, 0, false⟩
  | .DU_LOAD_VALUE => ⟨.DU_LOAD, 15, 0, .RO, 0, true⟩
  | .FC_STATE_STATE => ⟨.FC_STATE, 15, 13, .RO, 0, true⟩
  | .FC_STATE_HANG => ⟨.FC_STATE, 12, 12, .RO, 0, true⟩
  | .FC_STATE_SITES => ⟨.FC_STATE, 8, 0, .RO, 0, true⟩
  | .SEC_STATE_DBG => ⟨.SEC_STATE, 31, 30, .RO, 0, false⟩
  | .SEC_STATE_OWNER => ⟨.SEC_STATE, 29, 29, .RO, 0, false⟩
  | .SEC_STATE_NOSIGN => ⟨.SEC_STATE, 28, 28, .RO, 0, false⟩
  | .SEC_STATE_LOG_FULL => ⟨.SEC_STATE, 27, 27, .RO, 0, false⟩
  | .SEC_STATE_RING_FULL => ⟨.SEC_STATE, 26, 26, .RO, 0, false⟩
  | .SEC_STATE_ROOT_SLOT => ⟨.SEC_STATE, 25, 25, .RO, 0, false⟩
  | .SEC_STATE_REVOKED => ⟨.SEC_STATE, 24, 23, .RO, 0, false⟩
  | .SEC_BOOT_BSTAT => ⟨.SEC_BOOT, 31, 28, .RO, 0, false⟩
  | .SEC_BOOT_BPTYPE => ⟨.SEC_BOOT, 27, 20, .RO, 0, false⟩
  | .SEC_BOOT_COPYB => ⟨.SEC_BOOT, 19, 19, .RO, 0, false⟩
  | .SEC_LOG_COUNT => ⟨.SEC_LOG, 31, 0, .RO, 0, false⟩
  | .SEC_SKEY_SKEY_ID => ⟨.SEC_SKEY, 31, 0, .RO, 0, false⟩
  | .SEC_LEFT_S_LEFT => ⟨.SEC_LEFT_S, 16, 0, .RO, 0, false⟩
  | .SEC_LEFT_I_LEFT => ⟨.SEC_LEFT_I, 20, 0, .RO, 1048576, false⟩
  | .SEC_LOT_LOT => ⟨.SEC_LOT, 31, 0, .RO, 0, false⟩
  | .SEC_SEQ_LO_SEQ => ⟨.SEC_SEQ_LO, 31, 0, .RO, 0, false⟩
  | .SEC_SEQ_HI_SEQ => ⟨.SEC_SEQ_HI, 31, 0, .RO, 0, false⟩
  | .RES_BASE_BASE => ⟨.RES_BASE, 63, 0, .RO, 0, false⟩
  | .RES_SIZE_PAGES => ⟨.RES_SIZE, 16, 0, .RO, 0, false⟩
  | .RES_PROD_COUNT => ⟨.RES_PROD, 63, 0, .RO, 0, false⟩
  | .RES_CONS_COUNT => ⟨.RES_CONS, 63, 0, .RW, 0, false⟩
  | .SEC_CNT_SEALS => ⟨.SEC_CNT, 31, 16, .RC, 0, false⟩
  | .SEC_CNT_QUOTES => ⟨.SEC_CNT, 15, 0, .RC, 0, false⟩
  | .THM_STATE_STAGE => ⟨.THM_STATE, 31, 30, .RO, 0, false⟩
  | .THM_STATE_CAP_STEP => ⟨.THM_STATE, 29, 25, .RO, 0, false⟩
  | .THM_STATE_SHUT_PEND => ⟨.THM_STATE, 24, 24, .RO, 0, false⟩
  | .THM_STATE_AVS_HOLD => ⟨.THM_STATE, 23, 23, .RO, 0, false⟩
  | .THM_STATE_FAST => ⟨.THM_STATE, 22, 22, .RO, 0, false⟩
  | .THM_STATE_TMAX => ⟨.THM_STATE, 15, 0, .RO, 0, false⟩
  | .THM_CFG_TLIM => ⟨.THM_CFG, 31, 24, .RW, 100, false⟩
  | .THM_CFG_PCAP => ⟨.THM_CFG, 23, 16, .RW, 110, false⟩
  | .THM_VCORE_VSET => ⟨.THM_VCORE, 31, 22, .RO, 700, false⟩
  | .THM_VCORE_PWR => ⟨.THM_VCORE, 15, 0, .RO, 0, false⟩
  | .THM_SEEN_THROTTLE_SEEN => ⟨.THM_SEEN, 31, 31, .W1C, 0, false⟩
  | .THM_SEEN_REFUSE_SEEN => ⟨.THM_SEEN, 30, 30, .W1C, 0, false⟩
  | .THM_SEEN_CRIT_SEEN => ⟨.THM_SEEN, 29, 29, .W1C, 0, false⟩
  | .THM_SEEN_RST_GLITCH => ⟨.THM_SEEN, 15, 0, .RC, 0, false⟩
  | .THM_CNT_THROTTLE_CNT => ⟨.THM_CNT, 31, 16, .RC, 0, false⟩
  | .THM_CNT_CRIT_CNT => ⟨.THM_CNT, 15, 8, .RC, 0, false⟩
  | .THM_CNT_FAILED => ⟨.THM_CNT, 7, 0, .RO, 0, false⟩
  | .THM_FAILMAP_MAP => ⟨.THM_FAILMAP, 31, 0, .RO, 0, false⟩
  | .THM_SENSOR_VALUE => ⟨.THM_SENSOR, 15, 0, .RO, 0, true⟩
  | .THM_SHUT_ID_SHUT_ID => ⟨.THM_SHUT_ID, 31, 0, .RO, 0, false⟩
  | .REC_STAT_FLUSHING => ⟨.REC_STAT, 31, 31, .RO, 0, false⟩
  | .REC_STAT_FLUSH_PEND => ⟨.REC_STAT, 30, 30, .RO, 0, false⟩
  | .REC_STAT_WR_FAULT => ⟨.REC_STAT, 29, 29, .W1C, 0, false⟩
  | .REC_STAT_LASTING_SEEN => ⟨.REC_STAT, 28, 28, .W1C, 0, false⟩
  | .REC_STAT_STALE_CNT => ⟨.REC_STAT, 15, 0, .RC, 0, false⟩
  | .REC_AGE_SECONDS => ⟨.REC_AGE, 31, 0, .RO, 0, false⟩
  | .REC_ONTIME_LO_SECONDS => ⟨.REC_ONTIME_LO, 31, 0, .RO, 0, false⟩
  | .REC_ONTIME_HI_SECONDS => ⟨.REC_ONTIME_HI, 31, 0, .RO, 0, false⟩
  | .TW_STATE_STATE => ⟨.TW_STATE, 31, 28, .RO, 0, false⟩
  | .TW_STATE_HALF => ⟨.TW_STATE, 27, 27, .RO, 0, false⟩
  | .TW_STATE_SENIOR => ⟨.TW_STATE, 26, 26, .RO, 0, false⟩
  | .TW_STATE_LINE => ⟨.TW_STATE, 25, 24, .RO, 0, false⟩
  | .TW_STATE_SIDEBAND_FAULT => ⟨.TW_STATE, 23, 23, .W1C, 0, false⟩
  | .TW_STATE_TAKEOVER_SEEN => ⟨.TW_STATE, 22, 22, .W1C, 0, false⟩
  | .TW_STATE_SEPARATED_SEEN => ⟨.TW_STATE, 21, 21, .W1C, 0, false⟩
  | .TW_STATE_HB_MISS => ⟨.TW_STATE, 15, 0, .RC, 0, false⟩
  | .TW_PARTNER_LO_ID => ⟨.TW_PARTNER_LO, 31, 0, .RO, 0, false⟩
  | .TW_PARTNER_HI_ID => ⟨.TW_PARTNER_HI, 31, 0, .RO, 0, false⟩
  | .TW_LAG_PENDING => ⟨.TW_LAG, 31, 16, .RO, 0, false⟩
  | .TW_LAG_ACK_MAX => ⟨.TW_LAG, 15, 0, .RC, 0, false⟩
  | .TW_MRES_BASE_BASE => ⟨.TW_MRES_BASE, 63, 0, .RO, 0, false⟩
  | .TW_MRES_SIZE_PAGES => ⟨.TW_MRES_SIZE, 16, 0, .RO, 0, false⟩
  | .TW_MRES_PROD_COUNT => ⟨.TW_MRES_PROD, 63, 0, .RO, 0, false⟩
  | .TW_MRES_CONS_COUNT => ⟨.TW_MRES_CONS, 63, 0, .RW, 0, false⟩

/-- The fields of a register, in table order. -/
def Reg.fields : Reg → List Fld
  | .PT_MEMBERS => [.PT_MEMBERS_MASK]
  | .PH_SRC => [.PH_SRC_KIND, .PH_SRC_EDGE, .PH_SRC_INDEX]
  | .PH_LOOP => [.PH_LOOP_BW_KHZ, .PH_LOOP_ZETA, .PH_LOOP_LOCK_EDGES, .PH_LOOP_ACQ_TIMEOUT]
  | .PH_FMIN => [.PH_FMIN_FMIN]
  | .PH_FMAX => [.PH_FMAX_FMAX]
  | .PH_LIMIT => [.PH_LIMIT_POLICY, .PH_LIMIT_ERR_LIM]
  | .PH_HOLD => [.PH_HOLD_HOLD_LIMIT]
  | .PH_FREQ => [.PH_FREQ_FREQ]
  | .PH_ERR => [.PH_ERR_ERR_RMS, .PH_ERR_ERR_PEAK]
  | .PT_PHASE_LO => [.PT_PHASE_LO_PHASE]
  | .PT_PHASE_HI => [.PT_PHASE_HI_PHASE]
  | .PT_STATUS => [.PT_STATUS_TRK, .PT_STATUS_REF_LOST, .PT_STATUS_CAUSE, .PT_STATUS_GREF_HOLD, .PT_STATUS_WR_IGNORED, .PT_STATUS_GLITCH_CNT]
  | .CH_CFG => [.CH_CFG_DRV_INV, .CH_CFG_DEN_INV, .CH_CFG_CMH_INV, .CH_CFG_CML_INV, .CH_CFG_SER_MODE, .CH_CFG_U_LEN, .CH_CFG_CMP_MASK]
  | .CH_SER_POLY => [.CH_SER_POLY_POLY]
  | .CH_SER_SEED => [.CH_SER_SEED_SEED]
  | .CH_SER_SH_LO => [.CH_SER_SH_LO_SHIFT]
  | .CH_SER_SH_HI => [.CH_SER_SH_HI_SHIFT]
  | .CH_UTAB_LO => [.CH_UTAB_LO_ENTRY]
  | .CH_UTAB_HI => [.CH_UTAB_HI_ENTRY]
  | .CH_STATUS => [.CH_STATUS_PARKED, .CH_STATUS_PARK_CAUSE, .CH_STATUS_STALE, .CH_STATUS_REF_USE, .CH_STATUS_EDGE_CLASH, .CH_STATUS_BAD_SYM, .CH_STATUS_BAD_TS, .CH_STATUS_ILLEGAL_CMP, .CH_STATUS_CLASH_CNT]
  | .CH_PARKN => [.CH_PARKN_PARKN_GLITCH]
  | .PG_VEC_BASE => [.PG_VEC_BASE_BASE]
  | .PG_TS_BASE => [.PG_TS_BASE_BASE]
  | .PG_TAG_BASE => [.PG_TAG_BASE_BASE]
  | .PG_LIMIT => [.PG_LIMIT_LIMIT]
  | .PG_QUOTA => [.PG_QUOTA_CAP_PAGES, .PG_QUOTA_PAT_PAGES]
  | .PG_USE => [.PG_USE_BORROWED, .PG_USE_HELD]
  | .PG_PIN => [.PG_PIN_RESERVE, .PG_PIN_RESIDENT]
  | .PG_LEAD => [.PG_LEAD_LEAD_NS, .PG_LEAD_LEAD_MIN]
  | .PG_STATUS => [.PG_STATUS_LEAD_LOW, .PG_STATUS_UNDERRUN, .PG_STATUS_DATA_ERROR, .PG_STATUS_NOT_LOADED, .PG_STATUS_LEAD_LOW_CNT, .PG_STATUS_RECLAIM_CNT]
  | .PT_SUPPLY => [.PT_SUPPLY_PREPARED, .PT_SUPPLY_STREAM, .PT_SUPPLY_LEAD_POLICY, .PT_SUPPLY_RING]
  | .POOL_FREE => [.POOL_FREE_UNALLOC, .POOL_FREE_FREE]
  | .POOL_ERR => [.POOL_ERR_CORR, .POOL_ERR_WIN_REJECT_CNT]
  | .SR_CFG => [.SR_CFG_USE, .SR_CFG_PITCH, .SR_CFG_PAGES]
  | .SR_COMMIT => [.SR_COMMIT_HEAD]
  | .SR_HEAD => [.SR_HEAD_HEAD]
  | .SR_TAIL => [.SR_TAIL_TAIL]
  | .SR_STATUS => [.SR_STATUS_REJECT, .SR_STATUS_RING_OVF]
  | .SQ_TBL_BASE => [.SQ_TBL_BASE_BASE]
  | .SQ_TBL_LEN => [.SQ_TBL_LEN_COUNT]
  | .PT_RUN => [.PT_RUN_STATE, .PT_RUN_RESUMABLE, .PT_RUN_DEFER, .PT_RUN_DROP, .PT_RUN_PEND, .PT_RUN_STOP_CAUSE, .PT_RUN_DEFER_CNT]
  | .PT_POS => [.PT_POS_IMODE, .PT_POS_IP, .PT_POS_SEG]
  | .PT_PASS => [.PT_PASS_PASS]
  | .PT_STACK => [.PT_STACK_LOOP_DEPTH, .PT_STACK_CALL_DEPTH, .PT_STACK_PEND_TARGET]
  | .PT_FLAGS => [.PT_FLAGS_FLAG]
  | .PT_CNT => [.PT_CNT_COUNT]
  | .PT_CNT_CFG => [.PT_CNT_CFG_EVT, .PT_CNT_CFG_SEL]
  | .PT_RESP => [.PT_RESP_RESP_LAT]
  | .PT_VEC_LO => [.PT_VEC_LO_COUNT]
  | .PT_VEC_HI => [.PT_VEC_HI_COUNT]
  | .SQ_FMASK => [.SQ_FMASK_MASK]
  | .MK_ROUTE => [.MK_ROUTE_EN, .MK_ROUTE_POL, .MK_ROUTE_FORM, .MK_ROUTE_PITCH, .MK_ROUTE_BIT, .MK_ROUTE_WIDTH]
  | .MK_OFF => [.MK_OFF_OFFSET]
  | .XT_CFG => [.XT_CFG_POL]
  | .XT_GLITCH => [.XT_GLITCH_COUNT]
  | .SQ_UCTL => [.SQ_UCTL_UMODE, .SQ_UCTL_URUN]
  | .SQ_UPC => [.SQ_UPC_UPATCH, .SQ_UPC_UPC]
  | .SQ_USTAT => [.SQ_USTAT_UFAULT, .SQ_USTAT_UCAUSE, .SQ_USTAT_CMD_REJ, .SQ_USTAT_CORR_CNT]
  | .SQ_INTP => [.SQ_INTP_PEND, .SQ_INTP_LAT_MAX]
  | .SQ_CMD => [.SQ_CMD_CODE, .SQ_CMD_SEG]
  | .SQ_TRACE => [.SQ_TRACE_EN, .SQ_TRACE_SEG]
  | .SQ_PATCH => [.SQ_PATCH_RELEASE, .SQ_PATCH_NWORDS]
  | .SQ_PRIME => [.SQ_PRIME_RESULT]
  | .SQ_MATCH => [.SQ_MATCH_WORD]
  | .UC_LOAD => [.UC_LOAD_LSTAT]
  | .CH_FAILCNT_LO => [.CH_FAILCNT_LO_COUNT]
  | .CH_FAILCNT_HI => [.CH_FAILCNT_HI_FC_SAT, .CH_FAILCNT_HI_COUNT]
  | .CU_CFG => [.CU_CFG_FL, .CU_CFG_RAW, .CU_CFG_RED, .CU_CFG_STRIP, .CU_CFG_RAWSEL, .CU_CFG_CLR_ON_START]
  | .CU_RAWMASK => [.CU_RAWMASK_MASK]
  | .CU_REDMASK => [.CU_REDMASK_MASK]
  | .CU_REDINT => [.CU_REDINT_VECTORS]
  | .CU_AREA_BASE => [.CU_AREA_BASE_BASE]
  | .CU_AREA_SIZE => [.CU_AREA_SIZE_SIZE]
  | .CU_DEST => [.CU_DEST_KIND, .CU_DEST_PORT]
  | .CU_DRING_BASE => [.CU_DRING_BASE_BASE]
  | .CU_DRING_SIZE => [.CU_DRING_SIZE_PAGES]
  | .CU_SHEAD => [.CU_SHEAD_HEAD]
  | .CU_STAIL => [.CU_STAIL_TAIL]
  | .CU_FILL => [.CU_FILL_PEAK, .CU_FILL_USED]
  | .CU_STATUS => [.CU_STATUS_OVF, .CU_STATUS_OVF_CAUSE, .CU_STATUS_SPILLED]
  | .CU_RUNFAIL => [.CU_RUNFAIL_MAP]
  | .TR_CARE => [.TR_CARE_CARE]
  | .TR_VAL => [.TR_VAL_VAL]
  | .PC_STATE => [.PC_STATE_ASTATE, .PC_STATE_MODE, .PC_STATE_TSRC, .PC_STATE_WINDONE]
  | .PC_MISSED => [.PC_MISSED_COUNT]
  | .TR_CTL => [.TR_CTL_EN, .TR_CTL_NSTAGE]
  | .TR_STG => [.TR_STG_COMB, .TR_STG_LINE, .TR_STG_VIEW, .TR_STG_QUAL, .TR_STG_COUNT]
  | .TR_TMO => [.TR_TMO_TIMEOUT]
  | .TR_STATE => [.TR_STATE_STAGE, .TR_STATE_TMO_CNT]
  | .TR_FIRE => [.TR_FIRE_FIRE_CNT]
  | .TB_SRC => [.TB_SRC_EN, .TB_SRC_PITCH, .TB_SRC_STAGE, .TB_SRC_WIDTH]
  | .TB_STATE => [.TB_STATE_LINE]
  | .TD_STATE => [.TD_STATE_MSTATE, .TD_STATE_USE, .TD_STATE_LAST_STATUS, .TD_STATE_GAP, .TD_STATE_OWNER]
  | .TD_COUNT => [.TD_COUNT_COUNT]
  | .TD_STAMPS => [.TD_STAMPS_STAMPS]
  | .TD_LOSS => [.TD_LOSS_DEAD_CNT, .TD_LOSS_OVR_CNT]
  | .TD_OFF => [.TD_OFF_OFFSET]
  | .TD_BIN => [.TD_BIN_VALUE]
  | .ES_MASK => [.ES_MASK_MASK]
  | .ES_CFG => [.ES_CFG_SIG, .ES_CFG_EDGE]
  | .ES_INT => [.ES_INT_VECTORS]
  | .CAL_RUN => [.CAL_RUN_STATE, .CAL_RUN_FAILS]
  | .CAL_MAP => [.CAL_MAP_SLOT, .CAL_MAP_STAGE, .CAL_MAP_VALID, .CAL_MAP_STAGED]
  | .CAL_GTEMP => [.CAL_GTEMP_TEMP, .CAL_GTEMP_APPLIED_T]
  | .CAL_GSTAT => [.CAL_GSTAT_DRIFT, .CAL_GSTAT_CATCHUP, .CAL_GSTAT_DRIFT_SEEN, .CAL_GSTAT_NOSENSE, .CAL_GSTAT_DRIFT_CNT]
  | .CAL_APPLY => [.CAL_APPLY_OFFSET]
  | .CAL_CHFAIL => [.CAL_CHFAIL_FAIL]
  | .CH_SYSOFF => [.CH_SYSOFF_OFFSET]
  | .VCM_STATE => [.VCM_STATE_STATE, .VCM_STATE_RETIRE_PEND, .VCM_STATE_NOSPARE]
  | .VCM_INT => [.VCM_INT_INT_MAX, .VCM_INT_INT_CNT]
  | .VCM_SCRUB => [.VCM_SCRUB_EN, .VCM_SCRUB_PASSES]
  | .VCM_ERRADDR_LO => [.VCM_ERRADDR_LO_ADDR]
  | .VCM_ERRADDR_HI => [.VCM_ERRADDR_HI_ADDR]
  | .VS_STAT => [.VS_STAT_TMODE, .VS_STAT_CATCHUP_SEEN, .VS_STAT_THROTTLE_SEEN, .VS_STAT_NOREAD, .VS_STAT_TEMP]
  | .VP_STAT => [.VP_STAT_RMODE, .VP_STAT_WQ_DEPTH, .VP_STAT_DEBT]
  | .VP_ERR => [.VP_ERR_CE_CNT, .VP_ERR_UE_CNT, .VP_ERR_RETIRED]
  | .VP_CNT => [.VP_CNT_FWD_CNT, .VP_CNT_URG_CNT]
  | .LK_CFG => [.LK_CFG_ROLE, .LK_CFG_MODE, .LK_CFG_FIR_FIXED, .LK_CFG_LANES, .LK_CFG_IDLE_DELAY]
  | .LK_STATE => [.LK_STATE_STATE, .LK_STATE_LMAP, .LK_STATE_GEN, .LK_STATE_COMPAT, .LK_STATE_ATTEMPT, .LK_STATE_SIGDET, .LK_STATE_CAUSE]
  | .LK_PARTNER_LO => [.LK_PARTNER_LO_ID]
  | .LK_PARTNER_HI => [.LK_PARTNER_HI_ID]
  | .LK_PINFO => [.LK_PINFO_KIND, .LK_PINFO_PORT]
  | .LK_LANE => [.LK_LANE_LSTATE, .LK_LANE_LOST_SEEN, .LK_LANE_DROP_SEEN, .LK_LANE_POLINV, .LK_LANE_REVERSED, .LK_LANE_FAULTS, .LK_LANE_UCW_CNT]
  | .LK_FIR => [.LK_FIR_PRE, .LK_FIR_POST]
  | .LK_SLOW => [.LK_SLOW_SLOW_THR]
  | .LK_ERR => [.LK_ERR_NAK_CNT, .LK_ERR_CRC_CNT]
  | .LK_CNT => [.LK_CNT_REPLAY_CNT, .LK_CNT_RESTRIPE_CNT, .LK_CNT_RETRAIN_CNT]
  | .LK_TXN => [.LK_TXN_UR_CNT, .LK_TXN_DROP_MSG]
  | .LK_APER => [.LK_APER_APBASE]
  | .GY_CFG => [.GY_CFG_PEG_LOG, .GY_CFG_ECHO, .GY_CFG_REFL, .GY_CFG_THRESH]
  | .GY_HUB => [.GY_HUB_HUB_TURN]
  | .GY_ASYM => [.GY_ASYM_ASYM]
  | .GY_BOFF => [.GY_BOFF_BEAT_OFF]
  | .GY_RESID => [.GY_RESID_R]
  | .GY_RT => [.GY_RT_RT]
  | .GY_STATUS => [.GY_STATUS_ALIGNED, .GY_STATUS_SHIFT_HOLD, .GY_STATUS_SHIFT_SEEN, .GY_STATUS_PATH_SEEN, .GY_STATUS_SCAUSE, .GY_STATUS_NO_REFL, .GY_STATUS_ALIGN_ARMED, .GY_STATUS_CALPEND, .GY_STATUS_MISS_CNT]
  | .GY_CNT => [.GY_CNT_REFL_MISS, .GY_CNT_BADW, .GY_CNT_SLIP_CNT]
  | .GY_BEAT_LO => [.GY_BEAT_LO_BEAT]
  | .GY_BEAT_HI => [.GY_BEAT_HI_BEAT]
  | .TM_NS_LO => [.TM_NS_LO_NS]
  | .TM_NS_HI => [.TM_NS_HI_NS]
  | .TM_FRAC => [.TM_FRAC_FRAC]
  | .TM_EPOCH => [.TM_EPOCH_EPOCH]
  | .TM_INCR_HI => [.TM_INCR_HI_INT]
  | .TM_INCR_LO => [.TM_INCR_LO_FRAC]
  | .TM_CFG => [.TM_CFG_DOMAIN, .TM_CFG_PRIO1, .TM_CFG_PRIO2, .TM_CFG_BC, .TM_CFG_SLAVE_ONLY]
  | .TM_STATUS => [.TM_STATUS_LOCKED, .TM_STATUS_HOLDOVER, .TM_STATUS_SLEWING, .TM_STATUS_GREF_DISC, .TM_STATUS_STEP_SEEN, .TM_STATUS_EPOCH_SEEN, .TM_STATUS_SLAVE_PORT, .TM_STATUS_HOLD_CNT]
  | .TM_FWD => [.TM_FWD_FWD]
  | .PP_CFG => [.PP_CFG_EN, .PP_CFG_DELAY, .PP_CFG_LOG_SYNC, .PP_CFG_LOG_ANN, .PP_CFG_LOG_DREQ, .PP_CFG_ANN_TMO, .PP_CFG_PATH_THR]
  | .PP_ASYM => [.PP_ASYM_ASYM]
  | .PP_DELAY => [.PP_DELAY_DELAY]
  | .PP_STAT => [.PP_STAT_PSTATE, .PP_STAT_PATH_CHANGE, .PP_STAT_TSQ_OVF, .PP_STAT_IGNORING, .PP_STAT_RUN, .PP_STAT_TSQ_DEPTH, .PP_STAT_DISCARD]
  | .SYS_ID => [.SYS_ID_PART, .SYS_ID_STEP]
  | .SYS_REL => [.SYS_REL_MP_REL, .SYS_REL_FC_REL]
  | .SYS_DEVID_LO => [.SYS_DEVID_LO_ID]
  | .SYS_DEVID_HI => [.SYS_DEVID_HI_ID]
  | .SYS_STATE => [.SYS_STATE_READY, .SYS_STATE_UNITS_PEND]
  | .SYS_UNITS_G => [.SYS_UNITS_G_G_EN]
  | .SYS_UNITS_P => [.SYS_UNITS_P_X_EN, .SYS_UNITS_P_P_EN]
  | .CSR_SEL => [.CSR_SEL_KIND, .CSR_SEL_INDEX]
  | .EVR_CFG => [.EVR_CFG_EN, .EVR_CFG_NOTIFY, .EVR_CFG_LOG_SIZE, .EVR_CFG_EVR_PAGE]
  | .EVR_PROD => [.EVR_PROD_COUNT]
  | .EVR_CONS => [.EVR_CONS_COUNT]
  | .EVR_STAT => [.EVR_STAT_EVR_LOST]
  | .MB_CFG => [.MB_CFG_EN, .MB_CFG_PRIO, .MB_CFG_LOG_SIZE, .MB_CFG_CMD_PAGE]
  | .MB_CPLCFG => [.MB_CPLCFG_CPL_PAGE]
  | .MB_DB => [.MB_DB_PROD]
  | .MB_PROD => [.MB_PROD_COUNT]
  | .MB_CONS => [.MB_CONS_COUNT]
  | .MB_CPL_PROD => [.MB_CPL_PROD_COUNT]
  | .MB_CPL_CONS => [.MB_CPL_CONS_COUNT]
  | .MB_STAT => [.MB_STAT_ERR, .MB_STAT_ECAUSE, .MB_STAT_CPL_WAIT, .MB_STAT_OUTSTANDING]
  | .DU_STAT => [.DU_STAT_SHED, .DU_STAT_QCFG_ERR, .DU_STAT_REFUSE_SEEN, .DU_STAT_HELD, .DU_STAT_SEQ_DROP]
  | .DU_HSEL => [.DU_HSEL_LEVEL]
  | .DU_QUOTA => [.DU_QUOTA_MAX, .DU_QUOTA_GUAR]
  | .DU_CLASS => [.DU_CLASS_PRIO, .DU_CLASS_PLIM]
  | .DU_DEPTH => [.DU_DEPTH_VALUE]
  | .DU_HELD => [.DU_HELD_VALUE]
  | .DU_REFUSE => [.DU_REFUSE_VALUE]
  | .DU_CANCEL => [.DU_CANCEL_RCANCEL, .DU_CANCEL_CANCEL]
  | .DU_HIST => [.DU_HIST_COUNT]
  | .DU_LOAD => [.DU_LOAD_VALUE]
  | .FC_STATE => [.FC_STATE_STATE, .FC_STATE_HANG, .FC_STATE_SITES]
  | .SEC_STATE => [.SEC_STATE_DBG, .SEC_STATE_OWNER, .SEC_STATE_NOSIGN, .SEC_STATE_LOG_FULL, .SEC_STATE_RING_FULL, .SEC_STATE_ROOT_SLOT, .SEC_STATE_REVOKED]
  | .SEC_BOOT => [.SEC_BOOT_BSTAT, .SEC_BOOT_BPTYPE, .SEC_BOOT_COPYB]
  | .SEC_LOG => [.SEC_LOG_COUNT]
  | .SEC_SKEY => [.SEC_SKEY_SKEY_ID]
  | .SEC_LEFT_S => [.SEC_LEFT_S_LEFT]
  | .SEC_LEFT_I => [.SEC_LEFT_I_LEFT]
  | .SEC_LOT => [.SEC_LOT_LOT]
  | .SEC_SEQ_LO => [.SEC_SEQ_LO_SEQ]
  | .SEC_SEQ_HI => [.SEC_SEQ_HI_SEQ]
  | .RES_BASE => [.RES_BASE_BASE]
  | .RES_SIZE => [.RES_SIZE_PAGES]
  | .RES_PROD => [.RES_PROD_COUNT]
  | .RES_CONS => [.RES_CONS_COUNT]
  | .SEC_CNT => [.SEC_CNT_SEALS, .SEC_CNT_QUOTES]
  | .THM_STATE => [.THM_STATE_STAGE, .THM_STATE_CAP_STEP, .THM_STATE_SHUT_PEND, .THM_STATE_AVS_HOLD, .THM_STATE_FAST, .THM_STATE_TMAX]
  | .THM_CFG => [.THM_CFG_TLIM, .THM_CFG_PCAP]
  | .THM_VCORE => [.THM_VCORE_VSET, .THM_VCORE_PWR]
  | .THM_SEEN => [.THM_SEEN_THROTTLE_SEEN, .THM_SEEN_REFUSE_SEEN, .THM_SEEN_CRIT_SEEN, .THM_SEEN_RST_GLITCH]
  | .THM_CNT => [.THM_CNT_THROTTLE_CNT, .THM_CNT_CRIT_CNT, .THM_CNT_FAILED]
  | .THM_FAILMAP => [.THM_FAILMAP_MAP]
  | .THM_SENSOR => [.THM_SENSOR_VALUE]
  | .THM_SHUT_ID => [.THM_SHUT_ID_SHUT_ID]
  | .REC_STAT => [.REC_STAT_FLUSHING, .REC_STAT_FLUSH_PEND, .REC_STAT_WR_FAULT, .REC_STAT_LASTING_SEEN, .REC_STAT_STALE_CNT]
  | .REC_AGE => [.REC_AGE_SECONDS]
  | .REC_ONTIME_LO => [.REC_ONTIME_LO_SECONDS]
  | .REC_ONTIME_HI => [.REC_ONTIME_HI_SECONDS]
  | .TW_STATE => [.TW_STATE_STATE, .TW_STATE_HALF, .TW_STATE_SENIOR, .TW_STATE_LINE, .TW_STATE_SIDEBAND_FAULT, .TW_STATE_TAKEOVER_SEEN, .TW_STATE_SEPARATED_SEEN, .TW_STATE_HB_MISS]
  | .TW_PARTNER_LO => [.TW_PARTNER_LO_ID]
  | .TW_PARTNER_HI => [.TW_PARTNER_HI_ID]
  | .TW_LAG => [.TW_LAG_PENDING, .TW_LAG_ACK_MAX]
  | .TW_MRES_BASE => [.TW_MRES_BASE_BASE]
  | .TW_MRES_SIZE => [.TW_MRES_SIZE_PAGES]
  | .TW_MRES_PROD => [.TW_MRES_PROD_COUNT]
  | .TW_MRES_CONS => [.TW_MRES_CONS_COUNT]

/-- Where a register stands: its block, its offset in the block, how many stand in a row and the size in bytes
(R352, Table MBX-12). -/
structure Place where
  blk : Blk
  off : Nat
  count : Nat
  size : Nat
deriving DecidableEq, Repr

/-- The place of every register. -/
def Reg.place : Reg → Place
  | .PT_MEMBERS => ⟨.group, 0, 1, 4⟩
  | .PH_SRC => ⟨.group, 4, 1, 4⟩
  | .PH_LOOP => ⟨.group, 8, 1, 4⟩
  | .PH_FMIN => ⟨.group, 12, 1, 4⟩
  | .PH_FMAX => ⟨.group, 16, 1, 4⟩
  | .PH_LIMIT => ⟨.group, 20, 1, 4⟩
  | .PH_HOLD => ⟨.group, 24, 1, 4⟩
  | .PH_FREQ => ⟨.group, 28, 1, 4⟩
  | .PH_ERR => ⟨.group, 32, 1, 4⟩
  | .PT_PHASE_LO => ⟨.group, 36, 1, 4⟩
  | .PT_PHASE_HI => ⟨.group, 40, 1, 4⟩
  | .PT_STATUS => ⟨.group, 44, 1, 4⟩
  | .CH_CFG => ⟨.channel, 0, 1, 4⟩
  | .CH_SER_POLY => ⟨.channel, 4, 1, 4⟩
  | .CH_SER_SEED => ⟨.channel, 8, 1, 4⟩
  | .CH_SER_SH_LO => ⟨.channel, 12, 1, 4⟩
  | .CH_SER_SH_HI => ⟨.channel, 16, 1, 4⟩
  | .CH_UTAB_LO => ⟨.channel, 20, 1, 4⟩
  | .CH_UTAB_HI => ⟨.channel, 24, 1, 4⟩
  | .CH_STATUS => ⟨.channel, 28, 1, 4⟩
  | .CH_PARKN => ⟨.channel, 32, 1, 4⟩
  | .PG_VEC_BASE => ⟨.group, 1024, 1, 4⟩
  | .PG_TS_BASE => ⟨.group, 1028, 1, 4⟩
  | .PG_TAG_BASE => ⟨.group, 1032, 1, 4⟩
  | .PG_LIMIT => ⟨.group, 1036, 1, 4⟩
  | .PG_QUOTA => ⟨.group, 1040, 1, 4⟩
  | .PG_USE => ⟨.group, 1044, 1, 4⟩
  | .PG_PIN => ⟨.group, 1048, 1, 4⟩
  | .PG_LEAD => ⟨.group, 1052, 1, 4⟩
  | .PG_STATUS => ⟨.group, 1056, 1, 4⟩
  | .PT_SUPPLY => ⟨.group, 1060, 1, 4⟩
  | .POOL_FREE => ⟨.device, 1344, 1, 4⟩
  | .POOL_ERR => ⟨.device, 1348, 1, 4⟩
  | .SR_CFG => ⟨.ring, 0, 1, 4⟩
  | .SR_COMMIT => ⟨.ring, 8, 1, 8⟩
  | .SR_HEAD => ⟨.ring, 16, 1, 8⟩
  | .SR_TAIL => ⟨.ring, 24, 1, 8⟩
  | .SR_STATUS => ⟨.ring, 32, 1, 4⟩
  | .SQ_TBL_BASE => ⟨.group, 256, 1, 4⟩
  | .SQ_TBL_LEN => ⟨.group, 260, 1, 4⟩
  | .PT_RUN => ⟨.group, 264, 1, 4⟩
  | .PT_POS => ⟨.group, 268, 1, 4⟩
  | .PT_PASS => ⟨.group, 272, 1, 4⟩
  | .PT_STACK => ⟨.group, 276, 1, 4⟩
  | .PT_FLAGS => ⟨.group, 280, 1, 4⟩
  | .PT_CNT => ⟨.group, 284, 4, 4⟩
  | .PT_CNT_CFG => ⟨.group, 300, 4, 4⟩
  | .PT_RESP => ⟨.group, 316, 1, 4⟩
  | .PT_VEC_LO => ⟨.group, 320, 1, 4⟩
  | .PT_VEC_HI => ⟨.group, 324, 1, 4⟩
  | .SQ_FMASK => ⟨.group, 328, 8, 4⟩
  | .MK_ROUTE => ⟨.device, 256, 8, 4⟩
  | .MK_OFF => ⟨.device, 288, 8, 4⟩
  | .XT_CFG => ⟨.device, 320, 1, 4⟩
  | .XT_GLITCH => ⟨.device, 324, 8, 4⟩
  | .SQ_UCTL => ⟨.group, 512, 1, 4⟩
  | .SQ_UPC => ⟨.group, 516, 1, 4⟩
  | .SQ_USTAT => ⟨.group, 520, 1, 4⟩
  | .SQ_INTP => ⟨.group, 524, 1, 4⟩
  | .SQ_CMD => ⟨.group, 528, 1, 4⟩
  | .SQ_TRACE => ⟨.group, 532, 1, 4⟩
  | .SQ_PATCH => ⟨.group, 536, 1, 4⟩
  | .SQ_PRIME => ⟨.group, 540, 1, 4⟩
  | .SQ_MATCH => ⟨.group, 544, 64, 4⟩
  | .UC_LOAD => ⟨.device, 384, 1, 4⟩
  | .CH_FAILCNT_LO => ⟨.channel, 128, 1, 4⟩
  | .CH_FAILCNT_HI => ⟨.channel, 132, 1, 4⟩
  | .CU_CFG => ⟨.group, 1152, 1, 4⟩
  | .CU_RAWMASK => ⟨.group, 1156, 1, 4⟩
  | .CU_REDMASK => ⟨.group, 1160, 1, 4⟩
  | .CU_REDINT => ⟨.group, 1164, 1, 4⟩
  | .CU_AREA_BASE => ⟨.group, 1168, 1, 4⟩
  | .CU_AREA_SIZE => ⟨.group, 1172, 1, 4⟩
  | .CU_DEST => ⟨.group, 1176, 1, 4⟩
  | .CU_DRING_BASE => ⟨.group, 1184, 1, 8⟩
  | .CU_DRING_SIZE => ⟨.group, 1192, 1, 4⟩
  | .CU_SHEAD => ⟨.group, 1200, 1, 8⟩
  | .CU_STAIL => ⟨.group, 1208, 1, 8⟩
  | .CU_FILL => ⟨.group, 1216, 1, 4⟩
  | .CU_STATUS => ⟨.group, 1220, 1, 4⟩
  | .CU_RUNFAIL => ⟨.group, 1224, 1, 4⟩
  | .TR_CARE => ⟨.group, 1228, 4, 4⟩
  | .TR_VAL => ⟨.group, 1244, 4, 4⟩
  | .PC_STATE => ⟨.group, 1260, 1, 4⟩
  | .PC_MISSED => ⟨.group, 1264, 1, 4⟩
  | .TR_CTL => ⟨.group, 1268, 1, 4⟩
  | .TR_STG => ⟨.group, 1272, 4, 4⟩
  | .TR_TMO => ⟨.group, 1288, 4, 4⟩
  | .TR_STATE => ⟨.group, 1304, 1, 4⟩
  | .TR_FIRE => ⟨.group, 1308, 1, 4⟩
  | .TB_SRC => ⟨.device, 512, 32, 4⟩
  | .TB_STATE => ⟨.device, 640, 1, 4⟩
  | .TD_STATE => ⟨.tdc, 0, 1, 4⟩
  | .TD_COUNT => ⟨.tdc, 4, 1, 4⟩
  | .TD_STAMPS => ⟨.tdc, 8, 1, 4⟩
  | .TD_LOSS => ⟨.tdc, 12, 1, 4⟩
  | .TD_OFF => ⟨.tdc, 16, 1, 4⟩
  | .TD_BIN => ⟨.bin, 0, 512, 4⟩
  | .ES_MASK => ⟨.group, 1536, 1, 4⟩
  | .ES_CFG => ⟨.group, 1540, 1, 4⟩
  | .ES_INT => ⟨.group, 1544, 1, 4⟩
  | .CAL_RUN => ⟨.device, 1280, 1, 4⟩
  | .CAL_MAP => ⟨.device, 1284, 1, 4⟩
  | .CAL_GTEMP => ⟨.group, 1600, 1, 4⟩
  | .CAL_GSTAT => ⟨.group, 1604, 1, 4⟩
  | .CAL_APPLY => ⟨.channel, 256, 4, 4⟩
  | .CAL_CHFAIL => ⟨.channel, 272, 1, 4⟩
  | .CH_SYSOFF => ⟨.channel, 276, 4, 4⟩
  | .VCM_STATE => ⟨.device, 1408, 1, 4⟩
  | .VCM_INT => ⟨.device, 1412, 1, 4⟩
  | .VCM_SCRUB => ⟨.device, 1416, 1, 4⟩
  | .VCM_ERRADDR_LO => ⟨.device, 1420, 1, 4⟩
  | .VCM_ERRADDR_HI => ⟨.device, 1424, 1, 4⟩
  | .VS_STAT => ⟨.vstack, 0, 1, 4⟩
  | .VP_STAT => ⟨.vport, 0, 1, 4⟩
  | .VP_ERR => ⟨.vport, 4, 1, 4⟩
  | .VP_CNT => ⟨.vport, 8, 1, 4⟩
  | .LK_CFG => ⟨.port, 0, 1, 4⟩
  | .LK_STATE => ⟨.port, 4, 1, 4⟩
  | .LK_PARTNER_LO => ⟨.port, 8, 1, 4⟩
  | .LK_PARTNER_HI => ⟨.port, 12, 1, 4⟩
  | .LK_PINFO => ⟨.port, 16, 1, 4⟩
  | .LK_LANE => ⟨.port, 20, 4, 4⟩
  | .LK_FIR => ⟨.port, 36, 4, 4⟩
  | .LK_SLOW => ⟨.port, 52, 1, 4⟩
  | .LK_ERR => ⟨.port, 56, 1, 4⟩
  | .LK_CNT => ⟨.port, 60, 1, 4⟩
  | .LK_TXN => ⟨.port, 64, 1, 4⟩
  | .LK_APER => ⟨.port, 68, 1, 4⟩
  | .GY_CFG => ⟨.device, 1536, 1, 4⟩
  | .GY_HUB => ⟨.device, 1540, 1, 4⟩
  | .GY_ASYM => ⟨.device, 1544, 1, 4⟩
  | .GY_BOFF => ⟨.device, 1548, 1, 4⟩
  | .GY_RESID => ⟨.device, 1552, 1, 4⟩
  | .GY_RT => ⟨.device, 1556, 1, 4⟩
  | .GY_STATUS => ⟨.device, 1560, 1, 4⟩
  | .GY_CNT => ⟨.device, 1564, 1, 4⟩
  | .GY_BEAT_LO => ⟨.device, 1568, 1, 4⟩
  | .GY_BEAT_HI => ⟨.device, 1572, 1, 4⟩
  | .TM_NS_LO => ⟨.device, 1576, 1, 4⟩
  | .TM_NS_HI => ⟨.device, 1580, 1, 4⟩
  | .TM_FRAC => ⟨.device, 1584, 1, 4⟩
  | .TM_EPOCH => ⟨.device, 1588, 1, 4⟩
  | .TM_INCR_HI => ⟨.device, 1592, 1, 4⟩
  | .TM_INCR_LO => ⟨.device, 1596, 1, 4⟩
  | .TM_CFG => ⟨.device, 1600, 1, 4⟩
  | .TM_STATUS => ⟨.device, 1604, 1, 4⟩
  | .TM_FWD => ⟨.device, 1608, 1, 4⟩
  | .PP_CFG => ⟨.port, 128, 1, 4⟩
  | .PP_ASYM => ⟨.port, 132, 1, 4⟩
  | .PP_DELAY => ⟨.port, 136, 1, 4⟩
  | .PP_STAT => ⟨.port, 140, 1, 4⟩
  | .SYS_ID => ⟨.device, 0, 1, 4⟩
  | .SYS_REL => ⟨.device, 4, 1, 4⟩
  | .SYS_DEVID_LO => ⟨.device, 8, 1, 4⟩
  | .SYS_DEVID_HI => ⟨.device, 12, 1, 4⟩
  | .SYS_STATE => ⟨.device, 16, 1, 4⟩
  | .SYS_UNITS_G => ⟨.device, 20, 1, 4⟩
  | .SYS_UNITS_P => ⟨.device, 24, 1, 4⟩
  | .CSR_SEL => ⟨.device, 28, 1, 4⟩
  | .EVR_CFG => ⟨.device, 32, 1, 4⟩
  | .EVR_PROD => ⟨.device, 36, 1, 4⟩
  | .EVR_CONS => ⟨.device, 40, 1, 4⟩
  | .EVR_STAT => ⟨.device, 44, 1, 4⟩
  | .MB_CFG => ⟨.mailbox, 0, 1, 4⟩
  | .MB_CPLCFG => ⟨.mailbox, 4, 1, 4⟩
  | .MB_DB => ⟨.mailbox, 8, 1, 4⟩
  | .MB_PROD => ⟨.mailbox, 12, 1, 4⟩
  | .MB_CONS => ⟨.mailbox, 16, 1, 4⟩
  | .MB_CPL_PROD => ⟨.mailbox, 20, 1, 4⟩
  | .MB_CPL_CONS => ⟨.mailbox, 24, 1, 4⟩
  | .MB_STAT => ⟨.mailbox, 28, 1, 4⟩
  | .DU_STAT => ⟨.device, 1792, 1, 4⟩
  | .DU_HSEL => ⟨.device, 1796, 1, 4⟩
  | .DU_QUOTA => ⟨.device, 1800, 8, 4⟩
  | .DU_CLASS => ⟨.device, 1832, 8, 4⟩
  | .DU_DEPTH => ⟨.device, 1864, 4, 4⟩
  | .DU_HELD => ⟨.device, 1880, 4, 4⟩
  | .DU_REFUSE => ⟨.device, 1896, 4, 4⟩
  | .DU_CANCEL => ⟨.device, 1912, 1, 4⟩
  | .DU_HIST => ⟨.device, 1916, 16, 4⟩
  | .DU_LOAD => ⟨.device, 1980, 9, 4⟩
  | .FC_STATE => ⟨.device, 2016, 8, 4⟩
  | .SEC_STATE => ⟨.device, 3072, 1, 4⟩
  | .SEC_BOOT => ⟨.device, 3076, 1, 4⟩
  | .SEC_LOG => ⟨.device, 3080, 1, 4⟩
  | .SEC_SKEY => ⟨.device, 3084, 1, 4⟩
  | .SEC_LEFT_S => ⟨.device, 3088, 1, 4⟩
  | .SEC_LEFT_I => ⟨.device, 3092, 1, 4⟩
  | .SEC_LOT => ⟨.device, 3096, 1, 4⟩
  | .SEC_SEQ_LO => ⟨.device, 3100, 1, 4⟩
  | .SEC_SEQ_HI => ⟨.device, 3104, 1, 4⟩
  | .RES_BASE => ⟨.device, 3112, 1, 8⟩
  | .RES_SIZE => ⟨.device, 3120, 1, 4⟩
  | .RES_PROD => ⟨.device, 3128, 1, 8⟩
  | .RES_CONS => ⟨.device, 3136, 1, 8⟩
  | .SEC_CNT => ⟨.device, 3144, 1, 4⟩
  | .THM_STATE => ⟨.device, 2048, 1, 4⟩
  | .THM_CFG => ⟨.device, 2052, 1, 4⟩
  | .THM_VCORE => ⟨.device, 2056, 1, 4⟩
  | .THM_SEEN => ⟨.device, 2060, 1, 4⟩
  | .THM_CNT => ⟨.device, 2064, 1, 4⟩
  | .THM_FAILMAP => ⟨.device, 2068, 3, 4⟩
  | .THM_SENSOR => ⟨.device, 2080, 48, 4⟩
  | .THM_SHUT_ID => ⟨.device, 2272, 1, 4⟩
  | .REC_STAT => ⟨.device, 2560, 1, 4⟩
  | .REC_AGE => ⟨.device, 2564, 1, 4⟩
  | .REC_ONTIME_LO => ⟨.device, 2568, 1, 4⟩
  | .REC_ONTIME_HI => ⟨.device, 2572, 1, 4⟩
  | .TW_STATE => ⟨.device, 3584, 1, 4⟩
  | .TW_PARTNER_LO => ⟨.device, 3588, 1, 4⟩
  | .TW_PARTNER_HI => ⟨.device, 3592, 1, 4⟩
  | .TW_LAG => ⟨.device, 3596, 1, 4⟩
  | .TW_MRES_BASE => ⟨.device, 3600, 1, 8⟩
  | .TW_MRES_SIZE => ⟨.device, 3608, 1, 4⟩
  | .TW_MRES_PROD => ⟨.device, 3616, 1, 8⟩
  | .TW_MRES_CONS => ⟨.device, 3624, 1, 8⟩

/-- All registers of one block, in table order. -/
def Blk.regs : Blk → List Reg
  | .device => [.POOL_FREE, .POOL_ERR, .MK_ROUTE, .MK_OFF, .XT_CFG, .XT_GLITCH, .UC_LOAD, .TB_SRC, .TB_STATE, .CAL_RUN, .CAL_MAP, .VCM_STATE, .VCM_INT, .VCM_SCRUB, .VCM_ERRADDR_LO, .VCM_ERRADDR_HI, .GY_CFG, .GY_HUB, .GY_ASYM, .GY_BOFF, .GY_RESID, .GY_RT, .GY_STATUS, .GY_CNT, .GY_BEAT_LO, .GY_BEAT_HI, .TM_NS_LO, .TM_NS_HI, .TM_FRAC, .TM_EPOCH, .TM_INCR_HI, .TM_INCR_LO, .TM_CFG, .TM_STATUS, .TM_FWD, .SYS_ID, .SYS_REL, .SYS_DEVID_LO, .SYS_DEVID_HI, .SYS_STATE, .SYS_UNITS_G, .SYS_UNITS_P, .CSR_SEL, .EVR_CFG, .EVR_PROD, .EVR_CONS, .EVR_STAT, .DU_STAT, .DU_HSEL, .DU_QUOTA, .DU_CLASS, .DU_DEPTH, .DU_HELD, .DU_REFUSE, .DU_CANCEL, .DU_HIST, .DU_LOAD, .FC_STATE, .SEC_STATE, .SEC_BOOT, .SEC_LOG, .SEC_SKEY, .SEC_LEFT_S, .SEC_LEFT_I, .SEC_LOT, .SEC_SEQ_LO, .SEC_SEQ_HI, .RES_BASE, .RES_SIZE, .RES_PROD, .RES_CONS, .SEC_CNT, .THM_STATE, .THM_CFG, .THM_VCORE, .THM_SEEN, .THM_CNT, .THM_FAILMAP, .THM_SENSOR, .THM_SHUT_ID, .REC_STAT, .REC_AGE, .REC_ONTIME_LO, .REC_ONTIME_HI, .TW_STATE, .TW_PARTNER_LO, .TW_PARTNER_HI, .TW_LAG, .TW_MRES_BASE, .TW_MRES_SIZE, .TW_MRES_PROD, .TW_MRES_CONS]
  | .mailbox => [.MB_CFG, .MB_CPLCFG, .MB_DB, .MB_PROD, .MB_CONS, .MB_CPL_PROD, .MB_CPL_CONS, .MB_STAT]
  | .port => [.LK_CFG, .LK_STATE, .LK_PARTNER_LO, .LK_PARTNER_HI, .LK_PINFO, .LK_LANE, .LK_FIR, .LK_SLOW, .LK_ERR, .LK_CNT, .LK_TXN, .LK_APER, .PP_CFG, .PP_ASYM, .PP_DELAY, .PP_STAT]
  | .ring => [.SR_CFG, .SR_COMMIT, .SR_HEAD, .SR_TAIL, .SR_STATUS]
  | .vstack => [.VS_STAT]
  | .vport => [.VP_STAT, .VP_ERR, .VP_CNT]
  | .group => [.PT_MEMBERS, .PH_SRC, .PH_LOOP, .PH_FMIN, .PH_FMAX, .PH_LIMIT, .PH_HOLD, .PH_FREQ, .PH_ERR, .PT_PHASE_LO, .PT_PHASE_HI, .PT_STATUS, .PG_VEC_BASE, .PG_TS_BASE, .PG_TAG_BASE, .PG_LIMIT, .PG_QUOTA, .PG_USE, .PG_PIN, .PG_LEAD, .PG_STATUS, .PT_SUPPLY, .SQ_TBL_BASE, .SQ_TBL_LEN, .PT_RUN, .PT_POS, .PT_PASS, .PT_STACK, .PT_FLAGS, .PT_CNT, .PT_CNT_CFG, .PT_RESP, .PT_VEC_LO, .PT_VEC_HI, .SQ_FMASK, .SQ_UCTL, .SQ_UPC, .SQ_USTAT, .SQ_INTP, .SQ_CMD, .SQ_TRACE, .SQ_PATCH, .SQ_PRIME, .SQ_MATCH, .CU_CFG, .CU_RAWMASK, .CU_REDMASK, .CU_REDINT, .CU_AREA_BASE, .CU_AREA_SIZE, .CU_DEST, .CU_DRING_BASE, .CU_DRING_SIZE, .CU_SHEAD, .CU_STAIL, .CU_FILL, .CU_STATUS, .CU_RUNFAIL, .TR_CARE, .TR_VAL, .PC_STATE, .PC_MISSED, .TR_CTL, .TR_STG, .TR_TMO, .TR_STATE, .TR_FIRE, .ES_MASK, .ES_CFG, .ES_INT, .CAL_GTEMP, .CAL_GSTAT]
  | .channel => [.CH_CFG, .CH_SER_POLY, .CH_SER_SEED, .CH_SER_SH_LO, .CH_SER_SH_HI, .CH_UTAB_LO, .CH_UTAB_HI, .CH_STATUS, .CH_PARKN, .CH_FAILCNT_LO, .CH_FAILCNT_HI, .CAL_APPLY, .CAL_CHFAIL, .CH_SYSOFF]
  | .tdc => [.TD_STATE, .TD_COUNT, .TD_STAMPS, .TD_LOSS, .TD_OFF]
  | .bin => [.TD_BIN]

end Sys2Proof.Machine
end

