-- ==== Sys2Proof/Machine/Bits.lean ====
section
/-! DEFINITION. Bit fields of numbers (R7), signed readings, saturation, and little-endian byte strings. -/

namespace Sys2Proof.Machine

/-- Bits [hi:lo] of a number, bit 0 least significant (R7). -/
def bits (v hi lo : Nat) : Nat := (v >>> lo) % 2 ^ (hi + 1 - lo)

/-- Bit n of a number as a Boolean. -/
def bit (v n : Nat) : Bool := v.testBit n

/-- 1 for true, 0 for false. -/
def b2n (b : Bool) : Nat := if b then 1 else 0

/-- A number with bits [hi:lo] replaced. -/
def putBits (v hi lo x : Nat) : Nat :=
  v - (bits v hi lo) * 2 ^ lo + (x % 2 ^ (hi + 1 - lo)) * 2 ^ lo

/-- The two's complement reading of a w-bit number. -/
def sint (w v : Nat) : Int :=
  if v % 2 ^ w < 2 ^ (w - 1) then ((v % 2 ^ w : Nat) : Int) else ((v % 2 ^ w : Nat) : Int) - (2 ^ w : Nat)

/-- The w-bit two's complement encoding of an integer. -/
def unsint (w : Nat) (i : Int) : Nat := (i % ((2 ^ w : Nat) : Int)).toNat

/-- Addition that stops at the largest number of w bits (a saturating counter). -/
def satAdd (w a b : Nat) : Nat := min (a + b) (2 ^ w - 1)

/-- The least multiple of n at or above a, in units of n. -/
def ceilDiv (a n : Nat) : Nat := (a + n - 1) / n

/-- Integer division rounded to the nearest, halves upward; the divisor is positive. -/
def roundDiv (a : Int) (n : Nat) : Int := (2 * a + n) / (2 * n)

/-- The bits of a mask, ascending, below n. -/
def maskBits (n m : Nat) : List Nat := (List.range n).filter (fun i => m.testBit i)

/-- The number of bits set below n. -/
def popCount (n m : Nat) : Nat := (maskBits n m).length

/-- The mask with exactly the listed bits. -/
def maskOf (l : List Nat) : Nat := l.foldl (fun m i => m ||| 2 ^ i) 0

/-- Values packed upward from bit 0 without gaps, each with its width (R478, R354). -/
def pack : List (Nat × Nat) → Nat
  | [] => 0
  | (w, v) :: r => v % 2 ^ w + 2 ^ w * pack r

/-- The little-endian bytes of a number, n of them. -/
def bytesOf : Nat → Nat → List Byte
  | 0, _ => []
  | n + 1, v => BitVec.ofNat 8 v :: bytesOf n (v / 256)

/-- The number that a little-endian byte string spells. -/
def ofBytes : List Byte → Nat
  | [] => 0
  | b :: r => b.toNat + 256 * ofBytes r

/-- The least and greatest of a nonempty list, and a default otherwise. -/
def listMin (d : Nat) (l : List Nat) : Nat :=
  match l with | [] => d | a :: r => r.foldl min a
def listMax (d : Nat) (l : List Nat) : Nat :=
  match l with | [] => d | a :: r => r.foldl max a

/-- Floor of the square root, by binary digits from bit b down. -/
def isqrtFrom (n : Nat) : Nat → Nat → Nat
  | 0, r => if (r + 1) * (r + 1) ≤ n then r + 1 else r
  | b + 1, r => isqrtFrom n b (if (r + 2 ^ (b + 1)) * (r + 2 ^ (b + 1)) ≤ n then r + 2 ^ (b + 1) else r)
def isqrt (n : Nat) : Nat := isqrtFrom n 100 0

end Sys2Proof.Machine
end

