-- ==== Sys2Proof/Machine/Tab.lean ====
section
/-! DEFINITION. Sparse tables held as lists of key and value in one canonical form (keys strictly rising, no entry
equal to what an unlisted key reads as), and byte memory built the same way. -/

namespace Sys2Proof.Machine

/-- A sparse table with natural-number keys. -/
abbrev Tab (α : Type) := List (Nat × α)

/-- The value at a key: the listed one, else the default. -/
def tget {α : Type} (d : α) (t : Tab α) (k : Nat) : α :=
  match t with
  | [] => d
  | (k', v) :: r => if k' = k then v else tget d r k

/-- The table without a key. -/
def terase {α : Type} (t : Tab α) (k : Nat) : Tab α := t.filter (fun e => e.1 != k)

/-- Insert before the first larger key. -/
def tinsert {α : Type} (t : Tab α) (k : Nat) (v : α) : Tab α :=
  match t with
  | [] => [(k, v)]
  | (k', v') :: r => if k < k' then (k, v) :: (k', v') :: r else (k', v') :: tinsert r k v

/-- Write a key: storing the default removes the entry, so that equal tables are equal lists. -/
def tset {α : Type} [DecidableEq α] (d : α) (t : Tab α) (k : Nat) (v : α) : Tab α :=
  if v = d then terase t k else tinsert (terase t k) k v

/-- Canonical form: keys strictly rising. -/
def tsorted {α : Type} : Tab α → Bool
  | [] => true
  | [_] => true
  | (a, _) :: (b, w) :: r => a < b && tsorted ((b, w) :: r)

/-- Canonical form: keys strictly rising and no entry equal to the default. -/
def twf {α : Type} [DecidableEq α] (d : α) (t : Tab α) : Bool :=
  tsorted t && t.all (fun e => e.2 != d)

/-- Byte memory: the listed cells; every other address reads 0 (log entry 3; R260 writes VCM to zero). -/
abbrev Mem := List Host.Cell

namespace Mem

/-- What an unlisted address reads as. -/
def blank : Byte := 0#8

/-- Read one byte. -/
def rd (m : Mem) (a : Nat) : Byte := tget blank m a

/-- Write one byte. -/
def wr (m : Mem) (a : Nat) (b : Byte) : Mem := tset blank m a b

/-- Write a byte string at consecutive addresses. -/
def wrs (m : Mem) (a : Nat) : List Byte → Mem
  | [] => m
  | b :: r => wrs (wr m a b) (a + 1) r

/-- Read n bytes. -/
def rds (m : Mem) (a : Nat) : Nat → List Byte
  | 0 => []
  | n + 1 => rd m a :: rds m (a + 1) n

/-- Read n bytes as a little-endian number. -/
def rdn (m : Mem) (a n : Nat) : Nat := ofBytes (rds m a n)

/-- Write a number as n little-endian bytes. -/
def wrn (m : Mem) (a n v : Nat) : Mem := wrs m a (bytesOf n v)

/-- Write one byte value over a range. -/
def fill (m : Mem) (a : Nat) (b : Byte) : Nat → Mem
  | 0 => m
  | n + 1 => fill (wr m a b) (a + 1) b n

/-- The canonical form of a memory. -/
def wf (m : Mem) : Bool := twf blank m

end Mem

end Sys2Proof.Machine
end

