-- ==== Sys2Proof/Machine/State.lean ====
section
/-! DEFINITION. The state of the block: every register field (in `regs`), the memories, and everything else the spec
gives the device to keep, as plain data. Every default is the reset value; where the spec states none, the value is the
model's and INVENTORY.md names the log entry. -/

namespace Sys2Proof.Machine

/-- Why a step stops the machine. No meaning of this model raises a fault: the device itself reports every error
through a status, an event or a flag. -/
inductive Fault where
  /-- Raised by nothing: the block has no stop of its own (safe). -/
  | none
deriving DecidableEq, Repr

/-- Why a step is refused. -/
inductive Refusal where
  /-- Raised by the dispatch for a row without a meaning; no arm uses it now (safe). -/
  | notModelled (mnemonic : String)
deriving DecidableEq, Repr

/-- The key of one register field: the field, its unit number, and its number within a numbered range. -/
structure RKey where
  fld : Fld
  unit : Nat
  idx : Nat
deriving DecidableEq, Repr

/-- The register file: fields that differ from their reset values. -/
abbrev Regs := List (RKey × Nat)

/-- The outcome of a judgement (R53). -/
inductive Judge where
  | pass | fail | none
deriving DecidableEq, Repr

/-- The calibration of one signal as an edge takes it: the offset and the tap table, empty for the nominal one (R57, R236, R238). -/
structure SigCal where
  off : Int := 0
  tab : List Nat := []
deriving DecidableEq, Repr

/-- A pending edge of one signal: its target phase, the level it sets, its vector, its order within it and the calibration of its
vector (R57, R60, R238). -/
structure Edge where
  phase : Nat := 0
  level : Bool := false
  vec : Nat := 0
  ord : Nat := 0
  cal : SigCal := {}
deriving DecidableEq, Repr

/-- A strobe still to be taken: vector, symbol in effect, window mode, what the records need, and the calibration of the two
samplers (R53, R54, R159, R238). -/
structure Strobe where
  vec : Nat := 0
  sym : Nat := 0
  win : Bool := false
  forced : Judge := .none
  ts : Nat := 0
  s0 : Nat := 0
  close : Nat := 0
  calH : SigCal := {}
  calL : SigCal := {}
deriving DecidableEq, Repr

/-- A judged vector of one channel on its way to the sequencer and the capture unit (R118, R157). -/
structure Judged where
  vec : Nat := 0
  raw : Nat := 0
  judge : Judge := .none
  cSym : Bool := false
  win : Bool := false
  ts : Nat := 0
  tags : Nat := 0
  resolveAt : Nat := 0
deriving DecidableEq, Repr

/-- What a channel keeps beside its registers. -/
structure Chan where
  drv : Bool := false
  den : Bool := false
  drvLowAt : Nat := 0
  dataMem : Bool := false
  lfsr : Nat := 1
  shift : Nat := 0
  uPtr : Nat := 0
  drvQ : List Edge := []
  denQ : List Edge := []
  lastDrv : Option (Nat × Nat) := none
  lastDen : Option (Nat × Nat) := none
  strobes : List Strobe := []
  judged : List Judged := []
  resolved : List Judged := []
  lastCmp : Option Level := none
  failCnt : Nat := 0
  firstFail : Nat := 0
  firstPhase : Nat := 0
  firstCycle : Nat := 0
  parkAt : Option Nat := none
  taps : List (List Nat) := []
  tgtTaps : List (List Nat) := []
  target : List Int := []
  calBad : Bool := false
deriving DecidableEq, Repr

/-- One channel entry of a timing set (Table CHN-5). -/
structure TEntry where
  d0 : Nat := 0
  d1 : Nat := 0
  e0 : Nat := 0
  e1 : Nat := 0
  s0 : Nat := 0
  s1 : Nat := 0
  fmt : Nat := 0
  smode : Bool := false
  e1en : Bool := false
deriving DecidableEq, Repr

/-- A timing set (Tables CHN-4 and CHN-5); `period` is the field as stored, 0 for 2^32. -/
structure TSet where
  period : Nat := 0
  valid : Bool := false
  ents : Tab TEntry := []
deriving DecidableEq, Repr

/-- The visible set of a sequencer (Table MIC-3, R142). -/
structure Vis where
  seg : Nat := 0
  pass : Nat := 0
  ip : Nat := 0
  pend : Nat := 0
  ldep : Nat := 0
  cdep : Nat := 0
  imode : Bool := false
  pendv : Bool := false
  resumable : Bool := false
deriving DecidableEq, Repr

/-- A sequencer's microcode state (R136 to R155) beside its registers. -/
structure Seqr where
  acc : Nat := 0
  t0 : Nat := 0
  t1 : Nat := 0
  t2 : Nat := 0
  sh : Vis := {}
  ent : Nat := 0
  entFlow : Bool := false
  entIdx : Nat := 0
  rtn : Nat := 0
  cmd : Nat := 0
  zf : Bool := false
  nf : Bool := false
  cf : Bool := false
  masked : Bool := false
  gap : Nat := 0
  stopped : Bool := false
  lastInt : Bool := true
  workArm : Bool := false
  workResume : Bool := false
  workSnap : Bool := false
  reqCmd : Nat := 0
  reqDone : Nat := 0
  reqTrace : Nat := 0
  patch : Tab Nat := []
  primer : Tab Nat := []
  primerDeadline : Nat := 0
deriving DecidableEq, Repr

/-- A capture record waiting for its release, or for its destination (R161, R185), with all that its release needs: the start phase
and core cycle of the vector that decides its HOLD tag, whether it goes to the stream destination, its acquisition and window, the slot
and the records that it may not overwrite there, and the item of a WINDOW record. -/
structure CapRec where
  kind : Nat := 0
  first : Nat := 0
  last : Nat := 0
  tags : Nat := 0
  body : Nat := 0
  relAt : Nat := 0
  phase : Nat := 0
  cycle : Nat := 0
  data : List Byte := []
  spill : Bool := false
  acq : Nat := 0
  win : Nat := 0
  slot : Nat := 0
  room : Nat := 0
  keep : Nat := 0
  item : Nat := 0
deriving DecidableEq, Repr

/-- A stamp of a strip channel that waits for its vector's evaluation (R217): its core cycle, 64 times its phase, the channel's position
in the group and its tags. -/
structure StripHit where
  cycle : Nat := 0
  phi : Nat := 0
  pos : Nat := 0
  tags : Nat := 0
deriving DecidableEq, Repr

/-- A capture unit beside its registers (R162 to R188, R217). `newest` holds for each tag bit one more than the newest vector of the run
that carries it, `winTags` the tags of a window whose last vector is evaluated, `relAcq` and `relWin` the acquisition and window of the
record last released, and `sent` the bytes sent to a Ridge port. -/
structure CapUnit where
  buf : List CapRec := []
  seq : Nat := 0
  off : Nat := 0
  slotRecs : List (Nat × Nat × Nat) := []
  lostVec : Nat := 0
  lostRec : Nat := 0
  rawFirst : Nat := 0
  rawData : List Nat := []
  rawTags : Nat := 0
  redFirst : Nat := 0
  redN : Nat := 0
  redCnt : Tab Nat := []
  redTags : Nat := 0
  stripFirst : Nat := 0
  stripN : Nat := 0
  stripMin : Tab Int := []
  stripMax : Tab Int := []
  stripSeen : List Nat := []
  stripLost : Nat := 0
  stripTags : Nat := 0
  stripQ : List StripHit := []
  newest : Tab Nat := []
  winTags : Nat := 0
  relAcq : Nat := 0
  relWin : Nat := 0
  sent : Nat := 0
  spilled : Nat := 0
  streamBlocked : Bool := false
deriving DecidableEq, Repr

/-- A granule of pattern data that the pool holds for a group: its 64 bytes as a number, whether it stayed uncorrectable after a
refetch, and whether it is pinned (R85, R88, R104). -/
structure Gran where
  data : Nat := 0
  bad : Bool := false
  res : Bool := false
deriving DecidableEq, Repr

/-- What a group keeps beside its registers; `pool` is its pattern data in the pool by VCM granule number (R81, R87, R88), `low` says
that its lead is below 2 µs, and `met` that its refill engine stands at an EMPTY block (R101, R104). -/
structure Grp where
  tsets : Tab TSet := []
  dict : Tab Nat := []
  leadFull : Bool := false
  pool : Tab (Option Gran) := []
  low : Bool := false
  met : Bool := false
  sq : Seqr := {}
  cu : CapUnit := {}
  trims : List Int := []
  tgtTrims : List Int := []
  tgtTemp : Int := 0
  sampled : Bool := false
deriving DecidableEq, Repr

/-- A map segment (R26). -/
structure MapSeg where
  k : Nat := 0
  phi : Nat := 0
  t : Nat := 0
  r : Nat := 0
deriving DecidableEq, Repr

/-- A loop frame (R124): the loop-begin segment, the passes left, the condition and its latch (R117). -/
structure LoopFrame where
  seg : Nat := 0
  count : Nat := 0
  free : Bool := false
  csrc : Nat := 0
  csel : Nat := 0
  latch : Option Nat := none
  firstVec : Nat := 0
deriving DecidableEq, Repr

/-- A WAIT in play (R124); `ip` is the address of the next instruction. -/
structure WaitPlay where
  seg : Nat := 0
  left : Nat := 0
  free : Bool := false
  csrc : Nat := 0
  csel : Nat := 0
  latch : Option Nat := none
  firstVec : Nat := 0
  ip : Nat := 0
deriving DecidableEq, Repr

/-- An ended CJUMP segment whose last judgements have not resolved (R119). -/
structure LateJump where
  target : Nat := 0
  fmask : Nat := 0
  firstVec : Nat := 0
  lastVec : Nat := 0
  order : Nat := 0
deriving DecidableEq, Repr

/-- A pending deferred jump (R119): target, core cycle of its event, and its order of play. -/
structure Deferred where
  target : Nat := 0
  at' : Nat := 0
  order : Nat := 0
deriving DecidableEq, Repr

/-- When a planned stop takes effect: at the first vector, or the first boundary, from a core cycle on, or at the start
of a vector by its number. -/
inductive StopAt where
  | vector (cc : Nat)
  | boundary (cc : Nat)
  | number (v : Nat)
deriving DecidableEq, Repr

/-- A planned stop (R134). -/
structure StopPlan where
  cause : Nat := 0
  when' : StopAt := .vector 0
deriving DecidableEq, Repr

/-- What ISSUE handed to the issue stage: the entry, its index and the pass (Table MIC-4). -/
structure Issued where
  entry : Nat := 0
  idx : Nat := 0
  pass : Nat := 1
deriving DecidableEq, Repr

/-- An armed start (R129, R130); `issued` is the pass that the sequencer has handed to the issue stage for it. -/
structure Armed where
  beat : Nat := 0
  atCycle : Nat := 0
  seg : Nat := 0
  resume : Bool := false
  issued : Option Issued := none
deriving DecidableEq, Repr

/-- The kept resume point of a halted pitch (R132). -/
structure ResumeAt where
  seg : Nat := 0
  pass : Nat := 1
  flow : Bool := false
deriving DecidableEq, Repr

/-- What later steps need of an issued vector: phase, the core cycle and the edge-clock time of its start, position, marker bits and
tags. -/
structure VecInfo where
  vec : Nat := 0
  phase : Nat := 0
  endPhase : Nat := 0
  cycle : Nat := 0
  time : Int := 0
  seg : Nat := 0
  pass : Nat := 0
  marks : Nat := 0
  tags : Nat := 0
  ts : Tab Nat := []
deriving DecidableEq, Repr

/-- An acquisition beside PC_STATE (R175 to R187), numbered by `id`. -/
structure Acq where
  id : Nat := 0
  pre : Nat := 0
  post : Nat := 0
  windows : Nat := 0
  tidx : Nat := 0
  spill : Bool := false
  armq : Option Nat := none
  hkind : Nat := 0
  hval : Nat := 0
  openFrom : Nat := 0
  atStart : Bool := false
  opened : Option Nat := none
  trig : Option Nat := none
  trigPhase : Nat := 0
  window : Nat := 0
  missed : Nat := 0
  missedHold : Nat := 0
  holdDone : Option Nat := none
  closedAt : Option Nat := none
  softAt : List Nat := []
  disarmAt : Option Nat := none
  ovf : Bool := false
  ovfVec : Nat := 0
  ovfCause : Nat := 0
  ovfUnit : Nat := 0
  busPrev : Bool := false
  missedWin : Nat := 0
  xtFrom : Nat := 0
  endAt : Option Nat := none
  reopen : Bool := false
  openVec : Option Nat := none
deriving DecidableEq, Repr

/-- The pattern trigger (R169) beside TR_STATE. -/
structure Trig where
  count : Nat := 0
  vecs : Nat := 0
deriving DecidableEq, Repr

/-- The loop as it stood when a loss was declared: the core cycle, the last accepted edge, the prediction and the frequency. A
check that fails in the same core cycle still sets its cause bit (R37). -/
structure LostLoop where
  at' : Nat := 0
  last : Option Nat := none
  pred : Nat := 0
  freq : Nat := 0
deriving DecidableEq, Repr

/-- The phase tracker beside its registers (R22 to R37); `startEdge` is the phase of the first accepted edge at or after the start
instant of an armed pitch (R25). -/
structure Tracker where
  last : Option Nat := none
  lastPhase : Nat := 0
  firstStamp : Nat := 0
  count : Nat := 0
  lockCnt : Nat := 0
  errs : List Nat := []
  acqFrom : Nat := 0
  lossAt : Option Nat := none
  pred : Nat := 0
  segs : List MapSeg := []
  zeroNext : Bool := false
  startEdge : Option Nat := none
  lost : Option LostLoop := none
deriving DecidableEq, Repr

/-- What a pitch keeps beside its registers; `plen` is the leader's present period in sub-beats (R86), `win` the entries that the
segment-table window pins (R113), `issued` the pass in play where ISSUE chose it, and `cjump` the condition of the CJUMP latch where ARMC
chose it (Table MIC-4). -/
structure Pitch where
  next : Nat := 0
  vec : Nat := 0
  j : Nat := 0
  atEnd : Bool := false
  firstPass : Bool := true
  order : Nat := 0
  segFirstVec : Nat := 0
  loops : List LoopFrame := []
  calls : List Nat := []
  waiting : Option WaitPlay := none
  latch : Option Nat := none
  lastB : Nat := 0
  late : List LateJump := []
  defer : Option Deferred := none
  needFlow : Bool := false
  chain : Nat := 0
  prog : List Nat := []
  stops : List StopPlan := []
  armed : Option Armed := none
  resume : Option ResumeAt := none
  trk : Tracker := {}
  used : Option (Nat × Nat) := none
  badSym : Bool := false
  leadLow : Bool := false
  acq : Acq := {}
  trig : Trig := {}
  vecs : List VecInfo := []
  evalNext : Nat := 0
  evalAt : Nat := 0
  starts : Nat := 0
  plen : Nat := 0
  win : Tab (Option Nat) := []
  issued : Option Issued := none
  cjump : Option (Nat × Nat) := none
deriving DecidableEq, Repr

/-- A TDC beside its registers (R190 to R201): `gaps` are the gap spans of the run, `hold` is the start of the self-calibration that
holds it, and `appT` the temperature of the target that its values last reached (R240). -/
structure Tdc where
  buf : List Nat := []
  last : Option Nat := none
  presc : Nat := 0
  gaps : List (Nat × Option Nat) := []
  hold : Option Nat := none
  bins : List Nat := []
  tgtBins : List Nat := []
  off : Int := 0
  tgtOff : Int := 0
  appT : Int := 0
  sysSig : Bool := false
  calBad : Bool := false
deriving DecidableEq, Repr

/-- A stamp of a measurement, or a stop edge that its one TDC lost (R196, R210): the time, 64 times the phase on the measurement's
timeline, the tags, and what the edge is. -/
structure Stamp where
  t : Nat := 0
  phi : Nat := 0
  tags : Nat := 0
  start : Bool := false
  stop : Bool := false
  rising : Bool := false
  lost : Bool := false
deriving DecidableEq, Repr

/-- A measurement (R202 to R214), identified by its primary TDC. `desc` is its descriptor as a 512-bit number and `st` its state (R202).
`queue` holds in order of time the stamps that the pairing logic has not taken yet, `gates` the phases at which its gate opens or
closes, and `ending` the status of an end that came in the present core cycle (R213). -/
structure Meas where
  desc : Nat := 0
  st : Nat := 0
  run : Nat := 0
  armAt : Option Nat := none
  started : Nat := 0
  pitch : Option Nat := none
  queue : List Stamp := []
  ending : Option Nat := none
  gate : Bool := false
  gateFrom : Nat := 0
  gates : List (Nat × Bool) := []
  n : Nat := 0
  min' : Int := 0
  max' : Int := 0
  x0 : Int := 0
  s : Int := 0
  q : Int := 0
  hist : Tab Nat := []
  lost : Nat := 0
  orphan : Nat := 0
  unpaired : Nat := 0
  coinc : Nat := 0
  reject : Nat := 0
  tags : Nat := 0
  openStart : Option Stamp := none
  starts : List Stamp := []
  stops : List Stamp := []
  rise : Option Stamp := none
  fall : Option Stamp := none
  freqFirst : Option Stamp := none
  freqLast : Stamp := {}
  freqM : Nat := 0
  freqTags : Nat := 0
  freqFrom : Nat := 0
  result : Option Nat := none
  armTemp : Int := 0
  armTempS : Int := 0
  path : Path := .i3c
  stale : Bool := false
  lastStamp : Option Stamp := none
deriving DecidableEq, Repr

/-- The producer of a ring's data (R96). -/
structure RingSrc where
  port : Nat := 0
  addr : Nat := 0
  rows : Nat := 0
deriving DecidableEq, Repr

/-- A ring beside its registers (R96 to R99): first pool page, expected row, its deep-store producer, and the byte count
up to which rows are accepted. -/
structure Ring where
  page : Nat := 0
  row : Nat := 0
  src : Option RingSrc := none
  accepted : Nat := 0
deriving DecidableEq, Repr

/-- A transaction packet queued or sent on a port (Table RDG-7). -/
structure Pkt where
  h : Txn := {}
  data : List Byte := []
deriving DecidableEq, Repr

/-- A Ridge port beside its registers (R271 to R288): link layer with its replay buffer (each frame with the packet whose
header begins in it), control words repeated, credits held and released, the queue of packets, reads in progress, codeword
order and stripe generations, the received stream up to its next packet, training, sleep, and since when a sleeping transmitter owes
a CREDIT. `phase` is the training state that R280 moves through while STATE shows
RETRAIN. -/
structure LPort where
  fseqTx : Nat := 0
  fseqRx : Nat := 0
  replay : List (Nat × Option Pkt) := []
  replays : Nat := 0
  nakSent : Bool := false
  rxUnacked : Nat := 0
  rxAt : Nat := 0
  ctrl : List (Nat × Nat) := []
  progressAt : Nat := 0
  lastData : Nat := 0
  crHdr : Nat := 128
  crData : Nat := 512
  crNp : Nat := 256
  usedHdr : Nat := 0
  usedData : Nat := 0
  usedNp : Nat := 0
  relHdr : Nat := 0
  relData : Nat := 0
  relNp : Nat := 0
  txq : List Pkt := []
  txSince : Nat := 0
  stalled : Bool := false
  mrds : List (Txn × Nat) := []
  cwNext : Option Nat := none
  cwHold : List (Nat × List Frame) := []
  rx : List Byte := []
  genRx : Nat := 0
  oldGen : Bool := false
  pend : Option (Nat × Nat) := none
  phase : Nat := 0
  retrain : Bool := false
  stateAt : Nat := 0
  attemptAt : Nat := 0
  backoffMs : Nat := 0
  idleSent : Bool := false
  asleepTx : Bool := false
  asleepRx : Bool := false
  creditAt : Option Nat := none
deriving DecidableEq, Repr

/-- A lane beside LK_LANE (R266 to R279): its transmitter's filter, its receiver's descrambler, uncorrectable codewords in a row, commas
missed, codewords since the last comma position, its soak, failed background attempts and the last of them, whether it was dropped, and
when it became ACTIVE. -/
structure Lane where
  pre : Nat := 0
  post : Nat := 0
  scr : Nat := 2 ^ 58 - 1
  ucRun : Nat := 0
  commaMiss : Nat := 0
  cw : Nat := 0
  soakAt : Nat := 0
  soakFail : Bool := false
  fails : Nat := 0
  failAt : Nat := 0
  dropped : Bool := false
  activeAt : Nat := 0
deriving DecidableEq, Repr

/-- A write-queue entry: granule address, byte-enable mask and data (R246). -/
structure WqEntry where
  gran : Nat := 0
  mask : Nat := 0
  data : Nat := 0
deriving DecidableEq, Repr

/-- A bank's predictor (R247): history, the four counters, the row of the last access, whether it was kept open, and whether a
refresh has closed it since. -/
structure Bank where
  h : Nat := 0
  c : List Nat := [2, 2, 2, 2]
  lastRow : Option Nat := none
  kept : Bool := false
  shut : Bool := false
deriving DecidableEq, Repr

/-- A row in retirement (R258): bank and row. -/
structure Retire where
  bank : Nat := 0
  row : Nat := 0
deriving DecidableEq, Repr

/-- A VCM port beside its registers (R245 to R259): write queue, banks, the fraction of the refresh debt in 1/32 ns, the last
interval step, the bank next in rotation, the banks under refresh with the core cycle of its end, soft-repaired banks, rows in
retirement, and rows reported without a spare. -/
structure VPort where
  wq : List WqEntry := []
  banks : Tab Bank := []
  debtFrac : Nat := 0
  stepAt : Nat := 0
  rot : Nat := 0
  busy : List (Nat × Nat) := []
  soft : List Nat := []
  retire : List Retire := []
  noSpare : List (Nat × Nat) := []
deriving DecidableEq, Repr

/-- A real-time read in the queue of its port (R87, R93, R245): its group, its granule, the core cycle of its issue, and whether it is
the refetch of an uncorrectable granule (R104). -/
structure VRead where
  grp : Nat := 0
  gran : Nat := 0
  at' : Nat := 0
  again : Bool := false
deriving DecidableEq, Repr

/-- A span in which ports serve no real-time read (R248): the ports, its core cycles, and how many of them a read was ready in. -/
structure Block where
  ports : List Nat := []
  from' : Nat := 0
  until' : Nat := 0
  len : Nat := 0
deriving DecidableEq, Repr

/-- What the vector cache memory keeps in common: the real-time reads of all ports, the spans without service, the end of the last
interruption, the core cycles of the present scrub pass,
the retirement list, and the port of a failed training (R248, R249, R256, R259, R261). -/
structure VcmAll where
  reads : List VRead := []
  blocks : List Block := []
  intEnd : Option Nat := none
  scrub : Nat := 0
  list : List Nat := []
  failPort : Nat := 0
deriving DecidableEq, Repr

/-- A peg as measured (R302): stamp less beat edge, offset and round trip, in edge-time units. -/
structure Peg where
  a : Int := 0
  d : Int := 0
  rt : Int := 0
deriving DecidableEq, Repr

/-- TIME.ALIGN in progress (R304). -/
structure Align where
  d : Desc := {}
  deadline : Nat := 0
  pegs : Nat := 0
  fixed : Option (Int × Int) := none
deriving DecidableEq, Repr

/-- The Guyline state beside its registers (R298 to R310); `grefAt` is the last accepted rising edge of GREF (R37), `pathIn` the GPEG path
delay measured at manufacture (R300). -/
structure Guy where
  beat : Nat := 0
  sub : Nat := 0
  pegs : List Peg := []
  base : Int := 0
  rtBase : Int := 0
  lastRt : Int := 0
  waitA : Option Int := none
  pegBeat : Nat := 0
  echoAt : Option Nat := none
  echoE : Option Nat := none
  echoLowAt : Nat := 0
  reflRun : Nat := 0
  missRun : Nat := 0
  align : Option Align := none
  gref : Bool := false
  inRange : Bool := false
  rangeFrom : Nat := 0
  mult : Bool := false
  everLocked : Bool := false
  lossAt : Nat := 0
  grefAt : Nat := 0
  pathIn : Nat := Config.gpegDelay
  startIds : List Nat := []
  drift : Option (Nat × Int) := none
deriving DecidableEq, Repr

/-- The local clock and its servo beside the registers (R316 to R319). -/
structure Clock where
  ns : Nat := 0
  frac : Nat := 0
  epoch : Nat := 0
  freqTerm : Int := 0
  slewTerm : Int := 0
  slewLeft : Int := 0
  offs : List Int := []
  good : Nat := 0
  master : Nat := 0
  parent : Nat := 0
deriving DecidableEq, Repr

/-- An entry of a transmit timestamp queue (R321): sequenceId, message type, the event-point time on the local clock in 2^-16 ns, and the
core cycle in which it was made. -/
structure TxStamp where
  seq : Nat := 0
  kind : PtpKind := .sync
  time : Int := 0
  at' : Nat := 0
deriving DecidableEq, Repr

/-- A message that waits for its second one: the first, with its times in 2^-16 ns as the receiver took them. -/
structure PtpWait where
  m : PtpMsg := {}
  rx : Int := 0
  tx : Int := 0
deriving DecidableEq, Repr

/-- A PTP port beside its registers (R315, R320, R321): the delay run, the foreign masters (message, when, how many), when each kind was
last sent, the transmit timestamp queue, a message held, the answers owed, and the exchange of Sync and Pdelay messages; `ms` is the
time from the master that its last Sync showed. -/
structure PtpPort where
  delays : List Nat := []
  annAt : Nat := 0
  foreign : List (PtpMsg × Nat × Nat) := []
  sent : List (PtpKind × Nat) := []
  tsq : List TxStamp := []
  held : Option (Nat × PtpKind × Nat) := none
  owed : List (PtpKind × Nat) := []
  seq : Nat := 0
  sync : Option PtpWait := none
  pdelay : Option PtpWait := none
  ms : Option Int := none
deriving DecidableEq, Repr

/-- A coat that waits (R346). -/
structure CoatWait where
  d : Desc := {}
  touched : Nat := 0
  deadline : Nat := 0
deriving DecidableEq, Repr

/-- The mailbox firmware's state beside the registers: taken descriptors, doorbell paths, event numbering (R327 to
R334), and the coats in force (R344 to R347). -/
structure Mbox where
  taken : List (Desc × Nat) := []
  open' : List (Nat × Nat) := []
  doors : Tab (List (Nat × Path)) := []
  evSeq : Nat := 0
  evDropped : Bool := false
  draining : List Nat := []
  refusedAt : Tab Nat := []
  baseDigest : Nat := 0
  baseId : Nat := 0
  skims : List (Nat × Nat) := []
  waits : List CoatWait := []
deriving DecidableEq, Repr

/-- Commands that complete later than their step (R332), with what their completion needs. -/
inductive Job where
  | bind (d : Desc) (g : Nat)
  | stageNew (d : Desc) (g : Nat) (portFail : Bool)
  | stage (d : Desc) (g base count addr space : Nat)
  | stageRing (d : Desc) (g ring since : Nat)
  | prepare (d : Desc) (p : Nat)
  | load (d : Desc) (p space addr n base : Nat)
  | calRun (d : Desc)
  | calCommit (d : Desc) (point : Nat)
  | fill (d : Desc) (a len pat : Nat)
  | retrain (d : Desc)
  | ramp (d : Desc) (groups : List Nat) (since : Nat)
  | flush (d : Desc) (next : Bool)
  | recRead (d : Desc) (tries since : Nat)
  | quote (d : Desc)
  | seal (d : Desc)
  | lot (d : Desc)
  | pair (d : Desc) (deadline : Nat)
  | flowEntry (d : Desc) (core since : Nat)
  | start (d : Desc)
deriving DecidableEq, Repr

/-- Whether an admitted work item is held, ready since a core cycle, or in service (R356, R362). -/
inductive ItemState where
  | held
  | ready (since : Nat)
  | service (server since : Nat)
deriving DecidableEq, Repr

/-- A work item (Table DSP-1) with its place in the order of admission, and when it was refused. -/
structure Item where
  id : Nat := 0
  type : Nat := 0
  prio : Nat := 0
  cls : Nat := 0
  prod : Nat := 0
  key : Nat := 0
  payload : Nat := 0
  st : ItemState := .held
  since : Nat := 0
deriving DecidableEq, Repr

/-- A site entry of a flow program (R369): the cause of its fault, and the item that has its result already. -/
structure Site where
  site : Nat := 0
  pitch : Nat := 0
  mask : Nat := 0
  faulted : Option Nat := none
  served : Option Nat := none
deriving DecidableEq, Repr

/-- A loaded flow program (Table DSP-6). -/
structure FlowProg where
  progId : Nat := 0
  budget : Nat := 0
  sites : List Site := []
  digest : Nat := 0
deriving DecidableEq, Repr

/-- A flow core beside FC_STATE (R368 to R373, R398): its program, the item it hung on, the start of a reload, and the
bodies of the RESULT items that are not done, by their place. -/
structure FlowCore where
  prog : Option FlowProg := none
  hung : Option Nat := none
  reload : Option Nat := none
  bodies : Tab Nat := []
  nextBody : Nat := 0
deriving DecidableEq, Repr

/-- A CAP_SUMMARY item that is held until its tags are final (R33, R188): the core cycle of that, and the pitch, start phase and start
cycle of the run's last evaluated vector. -/
structure FinalSum where
  item : Nat := 0
  due : Nat := 0
  pitch : Nat := 0
  phase : Nat := 0
  cycle : Nat := 0
deriving DecidableEq, Repr

/-- The dispatch unit beside its registers (R354 to R374): items, busy cycles of each server in the present window, the items
handed out in a core cycle (its number and their count), the stop cause, PT_VEC and tags of each pitch's last CAP_SUMMARY
(R398), the keys cancelled in a core cycle, with it (R364), and the summaries whose tags are not final. -/
structure Disp where
  items : List Item := []
  refused : List Item := []
  nextId : Nat := 0
  busy : Tab Nat := []
  windowAt : Nat := 0
  handed : Nat × Nat := (0, 0)
  sums : Tab (Nat × Nat × Nat) := []
  cores : Tab FlowCore := []
  cancels : List (Nat × Nat) := []
  finals : List FinalSum := []
deriving DecidableEq, Repr

/-- A key of the key unit with its key-state record (Table TRU-7) and its volatile NEXT (R387). -/
structure Key where
  state : Nat := 0
  keyId : Nat := 0
  oid : Nat := 0
  upd : Nat := 0
  resEnd : Nat := 0
  next : Nat := 0
  pub : Nat := 0
  cert : List Byte := []
deriving DecidableEq, Repr

/-- What a requested signature is for (R378). -/
inductive SigFor where
  | seal (d : Option Desc) (count head : Nat)
  | quote (d : Desc) (count head : Nat)
  | scert (keyId pub : Nat)
  | partner (d : Option Desc) (count head : Nat)
deriving DecidableEq, Repr

/-- A debug challenge (R406). -/
structure Challenge where
  value : Nat := 0
  level : Nat := 1
  at' : Nat := 0
deriving DecidableEq, Repr

/-- A lot's chain position (R395, R399). -/
structure Chain where
  lot : Nat := 0
  seq : Nat := 0
  head : Nat := 0
  results : Nat := 0
deriving DecidableEq, Repr

/-- A record of the own chain that waits for the twin or for room: its bytes, the chain after it, and the command that its
append completes. -/
structure HoldRec where
  data : List Byte := []
  chain : Chain := {}
  d : Option Desc := none
deriving DecidableEq, Repr

/-- The results of a site in the open lot, and the accepted starts at its last SITE_RESULT (Table REC-6). -/
structure SiteRes where
  lastSeq : Nat := 0
  bin : Nat := 0
  pass : Nat := 0
  fail : Nat := 0
  starts : Nat := 0
deriving DecidableEq, Repr

/-- Secure boot, keys, log and result chain beside the SEC registers (R376 to R409). -/
structure Sec where
  rootHash0 : Nat := 0
  rootHash1 : Nat := 0
  kekFw : Nat := 0
  dwk : Nat := 0
  minrel : List Nat := [0, 0, 0, 0, 0]
  ident : Key := { state := 3, oid := 0x12 }
  sess : List Key := []
  sigs : List SigFor := []
  resWrite : Bool := false
  log : List Nat := []
  logHead : Nat := 0
  ownerHash : Nat := 0
  ownerSeq : Nat := 0
  chain : Chain := {}
  unsealed : Option Nat := none
  hold : List HoldRec := []
  lotNext : Option Nat := none
  lotClosed : Bool := false
  lotReason : Nat := 3
  sites : Tab SiteRes := []
  skeyRec : List Byte := []
  ringSet : Bool := false
  buffered : List (List Byte) := []
  challenge : Option Challenge := none
  dbgFlags : Nat := 0
  keyLow : Bool := false
  skeyDue : Bool := false
  ringFullRaised : Bool := false
deriving DecidableEq, Repr

/-- A die sensor or stack readout as last sampled (R421, R422). -/
structure Sensor where
  temp : Int := 0
  seen : Bool := false
  failed : Bool := false
  apart : Nat := 0
  fast : Bool := false
  at' : Nat := 0
deriving DecidableEq, Repr

/-- Power, start-up and thermal state beside the THM registers (R410 to R429). `phase` 0 is reset held, 1 to 7 the phases
of Table PWR-3, 8 the end of the sequence. -/
structure Pwr where
  phase : Nat := 0
  porstLow : Bool := true
  warmLow : Bool := false
  dead : Bool := false
  shut : Bool := false
  warmFlush : Bool := false
  bootFail : Bool := false
  patchFail : Bool := false
  groupFail : Nat := 0
  xspiRetried : List Nat := []
  flashFail : List Nat := []
  sensors : Tab Sensor := []
  stackTemps : Tab Sensor := []
  critical : Bool := false
  ticking : Bool := false
  tickAt : Nat := 0
  tlim : Nat := 100
  pcap : Nat := 110
  refuse : Bool := false
  avsAt : Nat := 0
  samples : List Nat := []
  marginMs : Nat := 0
  devMs : Nat := 0
  parkNLow : Bool := true
  parkNRel : Nat := 0
  thermTrip : Bool := false
deriving DecidableEq, Repr

/-- One copy of a record: its UPDSEQ, content bytes and whether it is in service (R433, R434). -/
structure RecCopy where
  upd : Nat := 0
  written : Bool := false
  data : Mem := []
  out : Bool := false
deriving DecidableEq, Repr

/-- A record of record memory with its two copies and, for a life record, its shadow (R433, R436). -/
structure RecEnt where
  a : RecCopy := {}
  b : RecCopy := {}
  shadow : Mem := []
deriving DecidableEq, Repr

/-- A peak-and-valley detector (CYCLE of R438). -/
structure Swing where
  ext : Int := 0
  rising : Bool := true
  peak : Int := 0
  seen : Bool := false
deriving DecidableEq, Repr

/-- Record memory and the fault histories (R432 to R442); records are keyed rid × 65,536 + instance. -/
structure RecMem where
  recs : Tab RecEnt := []
  hist : List (Nat × Nat × List Nat) := []
  onTime : Nat := 0
  thermRem : Tab Nat := []
  swings : Tab Swing := []
  maxNow : Tab Int := []
  hasAnchor : Bool := false
  anchorOn : Nat := 0
  calDueAt : Nat := 0
  keyDueAt : Nat := 0
deriving DecidableEq, Repr

/-- The results for one unit in a calibration set (Table CAL-6) or in staging. -/
structure CalUnit where
  off : List Int := [0, 0, 0, 0]
  tdOff : Int := 0
  cmlTrim : Nat := 0
  fail : Nat := 15
  pkg : List Nat := [0, 0, 0, 0]
  taps : List (List Nat) := []
  widths : List Nat := []
deriving DecidableEq, Repr

/-- A calibration set (Tables CAL-4 to CAL-6). SOURCE 0 is that of an empty slot. `base` is the point whose factory content stands for
every entry that the set does not hold, and a set whose digest is not held is as it was written at manufacture (R231). -/
structure CalSet where
  source : Nat := 0
  temp : Int := 0
  epoch : Nat := 0
  time : Nat := 0
  base : Option Nat := none
  digest : Option Nat := none
  units : Tab (Option CalUnit) := []
  trims : Tab (Option (List Int)) := []
  gtemps : Tab (Option Int) := []
deriving DecidableEq, Repr

/-- The set of a point as Glaolman writes it at manufacture (R231, log entry 94). -/
def factorySet (p : Nat) : CalSet :=
  { source := 1, temp := Config.factoryMean p, epoch := Config.factoryEpoch p % 2 ^ 16, time := Config.factoryTime p % 2 ^ 64, base := some p }

/-- The calibration store (R231 to R233): six slots, the trims of each unit, the run in hand, and the groups sampled in the present core
cycle, whose new targets apply from the next (R237, R238). -/
structure Cal where
  slots : Tab CalSet := [(0, factorySet 0), (1, factorySet 1), (2, factorySet 2), (3, factorySet 3), (4, factorySet 4)]
  trim : Tab (List Int) := []
  running : Option (Nat × Nat × Nat × Bool) := none
  preempted : List Nat := []
  stagedUnits : List Nat := []
  due : List Nat := []
deriving DecidableEq, Repr

/-- What the twin has mirrored here of a mailbox (Table REC-6). -/
structure MirMb where
  cfg : Nat := 0
  cplcfg : Nat := 0
  prod : Nat := 0
  cons : Nat := 0
  cplProd : Nat := 0
  cplCons : Nat := 0
deriving DecidableEq, Repr

/-- A mirrored site entry (Table REC-6). -/
structure MirSite where
  site : Nat := 0
  pitch : Nat := 0
  core : Nat := 0
  progId : Nat := 0
  starts : Nat := 0
  lastSeq : Nat := 0
  bin : Nat := 0
  pass : Nat := 0
  fail : Nat := 0
  after : Bool := false
deriving DecidableEq, Repr

/-- A journaled descriptor of the partner (Table REC-6). -/
structure Journal where
  mb : Nat := 0
  index : Nat := 0
  cmd : Nat := 0
  tag : Nat := 0
  notify : Bool := false
deriving DecidableEq, Repr

/-- Flysheet pairing beside the TW registers (R443 to R456). -/
structure Twin where
  mbs : Tab MirMb := []
  journal : List Journal := []
  sites : List MirSite := []
  baseId : Nat := 0
  chain : Chain := {}
  sealing : Bool := false
  closed : Bool := false
  open' : Bool := false
  ident : Nat := 0
  slotMap : Nat := 0
  skimIds : List Nat := []
  ptpStatus : Nat := 0
  queued : List MirrorItem := []
  inFlight : Nat := 0
  views : List MirrorItem := []
  skeyDue : Bool := false
  unsealed : Option Nat := none
  deadline : Nat := 0
  waitSince : Nat := 0
  hbTx : Nat := 0
  hbSentAt : Nat := 0
  hbRx : Nat := 0
  hbAt : Nat := 0
  missed : Nat := 0
  aliveOut : Nat := 0
  badSince : Option Nat := none
  sideRaised : Bool := false
  imageSent : Bool := false
  confirmed : Bool := false
  evr : Nat × Nat := (0, 0)
  blocked : List MirrorItem := []
deriving DecidableEq, Repr

/-- A marker output (R127): active, its edges to come (target phase and level), and until which edge-clock cycle a pulse
lasts. -/
structure MarkOut where
  active : Bool := false
  q : List (Nat × Bool) := []
  until' : Nat := 0
deriving DecidableEq, Repr

/-- An XTRIG input (R122): its filtered level (none before the first edge), the last accepted edge in ps, and the core cycles at which
accepted edges become visible. -/
structure Xtrig where
  level : Option Bool := none
  lastPs : Option Nat := none
  visible : List Nat := []
deriving DecidableEq, Repr

/-- The memories: pool (byte 0 is pool page 0), VCM, the two deep stores and boot flash, with the granules that hold
uncorrectable or poisoned data (R85, R254). Spaces are numbered 0 VCM, 1 CX0, 2 CX1, 3 pool, 4 flash. -/
structure Mems where
  pool : Mem := []
  vcm : Mem := []
  cx0 : Mem := []
  cx1 : Mem := []
  flash : Mem := []
  poolBad : List Nat := []
  vcmBad : List Nat := []
  cx0Bad : List Nat := []
  cx1Bad : List Nat := []
deriving DecidableEq, Repr

/-- The I3C read pointer (R473), the last data read over each path, and the JTAG instruction (R405). -/
structure Bus where
  i3cPtr : Nat := 0
  rdata : Tab Nat := []
  jtag : Jtag := .bypass
deriving DecidableEq, Repr

/-- A start that a core cycle has accepted, until the cycle ends (R308, R424, R425): its SEQ.START, or the port and the start ID of the
START_REPORT that it owes; its mask, whether it resumes, whether it is one of Guyline pitches or in PEG mode, and whether an event of the
cycle has refused it. -/
structure StartNow where
  d : Option Desc := none
  report : Option (Nat × Nat) := none
  mask : Nat := 0
  resume : Bool := false
  guyline : Bool := false
  refused : Bool := false
deriving DecidableEq, Repr

/-- The FAILs of a channel in one core cycle: their count, and the record, start phase and start cycle of the first (R158). -/
structure FailNow where
  n : Nat := 0
  rec' : Nat := 0
  phase : Nat := 0
  cycle : Nat := 0
deriving DecidableEq, Repr

/-- The counts behind latched pairs of the device block as a core cycle began (R366): beat, local clock, its fraction and epoch, on-time,
and result sequence. -/
structure Clocks where
  beat : Nat := 0
  ns : Nat := 0
  frac : Nat := 0
  epoch : Nat := 0
  onTime : Nat := 0
  seq : Nat := 0
deriving DecidableEq, Repr

/-- What the present core cycle has seen so far, for the rules that combine events of one core cycle: the register file as the
cycle began (R366), the W1C bits that hardware set (R365), the increments of counts and the quantities of extremes (R366), the
values of vector and fail counts before their first update and those of the clocks (R366), flags set and counter events by pitch (R121), condition events by pitch, source,
selector and core cycle (R117), FAILs by channel (R158), the pitches
whose last vector a stop fixed, those whose run or armed start ended, and those whose end is still to be reported (R134). -/
structure Cyc where
  regs : Regs := []
  sets : List (RKey × Nat) := []
  ups : List (RKey × Nat) := []
  vec0 : List (Nat × Nat) := []
  fail0 : List (Nat × Nat) := []
  clocks : Option Clocks := none
  flags : Tab Nat := []
  events : Tab Nat := []
  conds : List (Nat × Nat × Nat × Nat) := []
  fails : Tab FailNow := []
  fixed : List Nat := []
  stopped : List Nat := []
  ended : List Nat := []
  starts : List StartNow := []
  mbRefused : List Nat := []
deriving DecidableEq, Repr

/-- The state of the device. `pending` is the queue of waiting commands, first in first out; `now` counts core cycles of
the model's own time base; `free` is the counter of free values (log entries 1 and 4). -/
structure State where
  pending : List Instr := []
  now : Nat := 0
  free : Nat := 0
  regs : Regs := []
  mem : Mems := {}
  chan : Tab Chan := []
  grp : Tab Grp := []
  pitch : Tab Pitch := []
  tdc : Tab Tdc := []
  meas : Tab Meas := []
  ring : Tab Ring := []
  lport : Tab LPort := []
  lane : Tab Lane := []
  vport : Tab VPort := []
  vcm : VcmAll := {}
  guy : Guy := {}
  clk : Clock := {}
  ptp : Tab PtpPort := []
  mbox : Mbox := {}
  jobs : List Job := []
  disp : Disp := {}
  sec : Sec := {}
  pwr : Pwr := {}
  recm : RecMem := {}
  cal : Cal := {}
  twin : Twin := {}
  mark : Tab MarkOut := []
  xtrig : Tab Xtrig := []
  lines : Tab (List (Nat × Nat)) := []
  bus : Bus := {}
  cyc : Cyc := {}
deriving DecidableEq, Repr

/-- The device as the reset contact holds it: PORST_N low, every register at its reset value, no memory written. -/
def State.reset : State := {}

end Sys2Proof.Machine
end

