-- ==== Sys2Proof/Machine/Ops.lean ====
section
/-! DEFINITION. The named operations over registers, memories, events, completions and work items that the meanings
share. -/

namespace Sys2Proof.Machine

/-! ## Registers -/

/-- The order of register keys that keeps a register file in one canonical form. -/
def RKey.lt (a b : RKey) : Bool :=
  a.fld.ctorIdx < b.fld.ctorIdx ||
    (a.fld.ctorIdx == b.fld.ctorIdx && (a.unit < b.unit || (a.unit == b.unit && a.idx < b.idx)))

/-- The listed value of a key, or the reset value. -/
def rget (d : Nat) (t : Regs) (k : RKey) : Nat :=
  match t with
  | [] => d
  | (k', v) :: r => if k' = k then v else rget d r k

/-- The file without a key. -/
def rerase (t : Regs) (k : RKey) : Regs := t.filter (fun e => e.1 != k)

/-- Insert before the first larger key. -/
def rinsert (t : Regs) (k : RKey) (v : Nat) : Regs :=
  match t with
  | [] => [(k, v)]
  | (k', v') :: r => if k.lt k' then (k, v) :: (k', v') :: r else (k', v') :: rinsert r k v

/-- Write a key; writing its reset value removes the entry. -/
def rset (d : Nat) (t : Regs) (k : RKey) (v : Nat) : Regs :=
  if v = d then rerase t k else rinsert (rerase t k) k v

/-- The default quotas of Table DSP-3: GUAR, MAX, PLIM, PRIO. -/
def duDefault (c : Nat) : Nat × Nat × Nat × Nat :=
  match c with
  | 0 => (2048, 4096, 256, 2)
  | 1 => (1024, 2048, 128, 3)
  | 2 => (1024, 2048, 64, 1)
  | 3 => (768, 2048, 512, 1)
  | 4 => (1024, 1024, 16, 0)
  | 5 => (544, 1024, 256, 4)
  | 6 => (512, 1024, 1024, 0)
  | _ => (0, 0, 0, 7)

/-- The reset value of a field of one unit. -/
def Fld.resetAt (f : Fld) (_u i : Nat) : Nat :=
  match f with
  | .DU_QUOTA_MAX => (duDefault i).2.1
  | .DU_QUOTA_GUAR => (duDefault i).1
  | .DU_CLASS_PLIM => (duDefault i).2.2.1
  | .DU_CLASS_PRIO => (duDefault i).2.2.2
  | .POOL_FREE_FREE => 47104
  | .TD_BIN_VALUE => (64 * i + 32) % 65536
  | f => f.info.reset

/-- The width of a field. -/
def Fld.width (f : Fld) : Nat := f.info.hi + 1 - f.info.lo

/-- The value of a field of unit u, entry i of a numbered range. -/
def State.r (s : State) (f : Fld) (u : Nat := 0) (i : Nat := 0) : Nat :=
  rget (f.resetAt u i) s.regs ⟨f, u, i⟩

/-- A field set to a value, kept to the field's width. -/
def State.w (s : State) (f : Fld) (u v : Nat) (i : Nat := 0) : State :=
  { s with regs := rset (f.resetAt u i) s.regs ⟨f, u, i⟩ (v % 2 ^ f.width) }

def onCyc (f : Cyc → Cyc) (s : State) : State := { s with cyc := f s.cyc }

/-- Bits of a field that hardware sets; a W1C field keeps note of them for its core cycle (R365). -/
def State.setW (s : State) (f : Fld) (u v : Nat) (i : Nat := 0) : State :=
  let s := s.w f u (s.r f u i ||| v) i
  if f.info.acc = .W1C then onCyc (fun c => { c with sets := (⟨f, u, i⟩, v) :: c.sets }) s else s

/-- A flag set. -/
def State.setF (s : State) (f : Fld) (u : Nat := 0) (i : Nat := 0) : State := s.setW f u 1 i

/-- The bits of a field that hardware has set in the present core cycle. -/
def State.setNow (s : State) (k : RKey) : Nat := ((s.cyc.sets.filter (fun e => e.1 == k)).map (·.2)).foldl (· ||| ·) 0

/-- A field that a read clears keeps note of what the core cycle adds to it (R366). -/
def noteUp (k : RKey) (v : Nat) (s : State) : State :=
  if k.fld.info.acc = .RC then onCyc (fun c => { c with ups := (k, v) :: c.ups }) s else s

/-- A saturating counter field advanced (R366). -/
def State.inc (s : State) (f : Fld) (u : Nat := 0) (i : Nat := 0) (n : Nat := 1) : State :=
  noteUp ⟨f, u, i⟩ n (s.w f u (satAdd f.width (s.r f u i) n) i)

/-- A field raised to at least a value (an extreme). -/
def State.hi (s : State) (f : Fld) (u v : Nat) : State := noteUp ⟨f, u, 0⟩ v (s.w f u (max (s.r f u) v))

/-- What the present core cycle has added to a field. -/
def State.upsOf (s : State) (k : RKey) : List Nat := (s.cyc.ups.filter (fun e => e.1 == k)).map (·.2)

/-- A field as the core cycle began (R366). -/
def State.r0 (s : State) (k : RKey) : Nat := rget (k.fld.resetAt k.unit k.idx) s.cyc.regs k

/-- A value noted before its first update in a core cycle, and the value as the cycle began (R366). -/
def note0 (l : List (Nat × Nat)) (n v : Nat) : List (Nat × Nat) := if l.any (·.1 == n) then l else (n, v) :: l
def value0 (l : List (Nat × Nat)) (n v : Nat) : Nat := match l.find? (·.1 == n) with | some e => e.2 | none => v

/-- A flag read as a Boolean. -/
def State.rb (s : State) (f : Fld) (u : Nat := 0) (i : Nat := 0) : Bool := s.r f u i != 0

/-! ## Units -/

def State.ch (s : State) (c : Nat) : Chan := tget {} s.chan c
def State.onCh (s : State) (c : Nat) (f : Chan → Chan) : State := { s with chan := tset {} s.chan c (f (s.ch c)) }
def State.gp (s : State) (g : Nat) : Grp := tget {} s.grp g
def State.onGp (s : State) (g : Nat) (f : Grp → Grp) : State := { s with grp := tset {} s.grp g (f (s.gp g)) }
def State.pt (s : State) (p : Nat) : Pitch := tget {} s.pitch p
def State.onPt (s : State) (p : Nat) (f : Pitch → Pitch) : State := { s with pitch := tset {} s.pitch p (f (s.pt p)) }
def State.td (s : State) (c : Nat) : Tdc := tget {} s.tdc c
def State.onTd (s : State) (c : Nat) (f : Tdc → Tdc) : State := { s with tdc := tset {} s.tdc c (f (s.td c)) }
def State.ms (s : State) (c : Nat) : Meas := tget {} s.meas c
def State.onMs (s : State) (c : Nat) (f : Meas → Meas) : State := { s with meas := tset {} s.meas c (f (s.ms c)) }
def State.rg (s : State) (r : Nat) : Ring := tget {} s.ring r
def State.onRg (s : State) (r : Nat) (f : Ring → Ring) : State := { s with ring := tset {} s.ring r (f (s.rg r)) }
def State.lp (s : State) (n : Nat) : LPort := tget {} s.lport n
def State.onLp (s : State) (n : Nat) (f : LPort → LPort) : State := { s with lport := tset {} s.lport n (f (s.lp n)) }
def State.ln (s : State) (n : Nat) : Lane := tget {} s.lane n
def State.onLn (s : State) (n : Nat) (f : Lane → Lane) : State := { s with lane := tset {} s.lane n (f (s.ln n)) }
def State.vp (s : State) (n : Nat) : VPort := tget {} s.vport n
def State.onVp (s : State) (n : Nat) (f : VPort → VPort) : State := { s with vport := tset {} s.vport n (f (s.vp n)) }
def State.pp (s : State) (n : Nat) : PtpPort := tget {} s.ptp n
def State.onPp (s : State) (n : Nat) (f : PtpPort → PtpPort) : State := { s with ptp := tset {} s.ptp n (f (s.pp n)) }
def State.onSq (s : State) (g : Nat) (f : Seqr → Seqr) : State := s.onGp g (fun x => { x with sq := f x.sq })
def State.onCu (s : State) (g : Nat) (f : CapUnit → CapUnit) : State := s.onGp g (fun x => { x with cu := f x.cu })

/-- Fold an operation over a list of units. -/
def forAll (l : List Nat) (f : Nat → State → State) (s : State) : State := l.foldl (fun t n => f n t) s

/-- The units 0 to n − 1. -/
abbrev upTo (n : Nat) : List Nat := List.range n

/-- A free value, and the counter advanced (log entry 4). -/
def State.fresh (s : State) : Nat × State := (Config.freeNat s.free, { s with free := s.free + 1 })

/-- The group of a channel (R3). -/
abbrev groupOf (c : Nat) : Nat := c / 32

/-- The groups of a pitch. -/
def State.members (s : State) (p : Nat) : List Nat := maskBits 32 (s.r .PT_MEMBERS_MASK p)

/-- The pitch that holds a group, if any (R4). -/
def State.pitchOf (s : State) (g : Nat) : Option Nat :=
  (upTo 32).find? (fun p => (s.r .PT_MEMBERS_MASK p).testBit g)

/-- The channels of a group. -/
def chansOf (g : Nat) : List Nat := (upTo 32).map (fun p => 32 * g + p)

/-- The channels of a pitch. -/
def State.pchans (s : State) (p : Nat) : List Nat := ((s.members p).map chansOf).flatten

/-- The pitch states of Table SEQ-9. -/
abbrev IDLE : Nat := 0
abbrev ARMED : Nat := 1
abbrev RUNNING : Nat := 2
abbrev STOPPING : Nat := 3

def State.pstate (s : State) (p : Nat) : Nat := s.r .PT_RUN_STATE p
def State.idle (s : State) (p : Nat) : Bool := s.pstate p == IDLE

/-- The pitch that holds a group is absent or idle. -/
def State.groupIdle (s : State) (g : Nat) : Bool :=
  match s.pitchOf g with | none => true | some p => s.idle p

/-- Every pitch is idle. -/
def State.allIdle (s : State) : Bool := (upTo 32).all s.idle

/-- Enabled units; a group that failed its self-test is out of service (R154, R348, R349). -/
def State.gEn (s : State) (g : Nat) : Bool := (s.r .SYS_UNITS_G_G_EN).testBit g && !s.pwr.groupFail.testBit g
def State.pEn (s : State) (n : Nat) : Bool := (s.r .SYS_UNITS_P_P_EN).testBit n
def State.xEn (s : State) (n : Nat) : Bool := (s.r .SYS_UNITS_P_X_EN).testBit n

/-! ## Memories -/

/-- Memory spaces: 0 VCM, 1 CX0, 2 CX1, 3 pool, 4 boot flash. -/
def State.space (s : State) (sp : Nat) : Mem :=
  match sp with
  | 0 => s.mem.vcm
  | 1 => s.mem.cx0
  | 2 => s.mem.cx1
  | 3 => s.mem.pool
  | _ => s.mem.flash

/-- The bytes each space holds: VCM 128 GiB, pool 192 MiB, flash 4 GiB of offsets. The spec gives a deep store "up to 16 TiB per port"
(chapter 3): the model takes 16 TiB behind both (log entry 87). -/
def spaceSize (sp : Nat) : Nat :=
  match sp with
  | 0 => 2 ^ 37
  | 1 => 2 ^ 44
  | 2 => 2 ^ 44
  | 3 => 49152 * 4096
  | _ => 2 ^ 32

def State.setSpace (s : State) (sp : Nat) (m : Mem) : State :=
  { s with mem := match sp with
    | 0 => { s.mem with vcm := m }
    | 1 => { s.mem with cx0 := m }
    | 2 => { s.mem with cx1 := m }
    | 3 => { s.mem with pool := m }
    | _ => { s.mem with flash := m } }

/-- The granules of a space that hold uncorrectable or poisoned data (R85, R254). -/
def State.bad (s : State) (sp : Nat) : List Nat :=
  match sp with
  | 0 => s.mem.vcmBad
  | 1 => s.mem.cx0Bad
  | 2 => s.mem.cx1Bad
  | 3 => s.mem.poolBad
  | _ => []

def State.setBad (s : State) (sp : Nat) (l : List Nat) : State :=
  { s with mem := match sp with
    | 0 => { s.mem with vcmBad := l }
    | 1 => { s.mem with cx0Bad := l }
    | 2 => { s.mem with cx1Bad := l }
    | 3 => { s.mem with poolBad := l }
    | _ => s.mem }

def State.load (s : State) (sp a n : Nat) : List Byte := (s.space sp).rds a n
def State.loadN (s : State) (sp a n : Nat) : Nat := (s.space sp).rdn a n

/-- VCM after a failed training (R261). -/
def State.vcmDown (s : State) : Bool := s.r .VCM_STATE_STATE == 2

/-- Whether a write-queue entry has every byte enabled (R246). -/
def WqEntry.full (e : WqEntry) : Bool := e.mask == 2 ^ 64 - 1

/-- The port, bank and row of a VCM byte address (R244). -/
def vcmPort (a : Nat) : Nat := bits a 16 10 ^^^ bits a 23 17
def vcmLocal (a : Nat) : Nat := bits a 36 17 * 1024 + bits a 9 0
def vcmBank (a : Nat) : Nat := bits (vcmLocal a) 15 11
def vcmRow (a : Nat) : Nat := bits (vcmLocal a) 29 16

/-- Whether a granule of VCM waits with all its bytes in a write queue: a read takes them from there, poisoned or not in the DRAM
(R246, R255). -/
def State.queuedFull (s : State) (g : Nat) : Bool := (s.vp (vcmPort (64 * g))).wq.any (fun e => e.gran == g && e.full)

/-- Whether a read of n bytes fails: it meets a bad granule of 64 bytes, or VCM is DOWN (R261). -/
def State.anyBad (s : State) (sp a n : Nat) : Bool :=
  (sp == 0 && n != 0 && s.vcmDown) ||
    (s.bad sp).any (fun g => a < 64 * g + 64 && 64 * g < a + n && !(sp == 0 && s.queuedFull g))

/-- Store bytes; a granule all of whose 64 bytes are written is good again (R85, R255). -/
def State.store (s : State) (sp a : Nat) (b : List Byte) : State :=
  let s := s.setSpace sp ((s.space sp).wrs a b)
  s.setBad sp ((s.bad sp).filter (fun g => !(a ≤ 64 * g && 64 * g + 64 ≤ a + b.length)))

def State.storeN (s : State) (sp a n v : Nat) : State := s.store sp a (bytesOf n v)

/-- The granules of an extent. -/
def granules (a n : Nat) : List Nat := if n = 0 then [] else (List.range ((a + n - 1) / 64 - a / 64 + 1)).map (fun i => a / 64 + i)

/-- One byte written into a port's queue: merged into the entry of its granule, or a new entry (R246). -/
def queueByte (l : List WqEntry) (a : Nat) (b : Byte) : List WqEntry :=
  let i := a % 64
  let put := fun (e : WqEntry) => { e with mask := e.mask ||| 2 ^ i, data := putBits e.data (8 * i + 7) (8 * i) b.toNat }
  if l.any (fun e => e.gran == a / 64) then l.map (fun e => if e.gran = a / 64 then put e else e)
  else l ++ [put { gran := a / 64, mask := 0, data := 0 }]

/-- Near-real-time writes enter the write queues of their ports; reads see them at once (R246). -/
def queueBytes (a : Nat) : List Byte → State → State
  | [], s => s
  | b :: r, s =>
    let p := vcmPort a
    let s := s.onVp p (fun x => { x with wq := queueByte x.wq a b })
    queueBytes (a + 1) r (s.w .VP_STAT_WQ_DEPTH p (s.vp p).wq.length)
def nrtStore (a : Nat) (b : List Byte) (s : State) : State := queueBytes a b (s.store 0 a b)

/-- Whether the queues hold room for writes to a list of granules: 64 entries in each port (R246). -/
def State.nrtRoom (s : State) (l : List Nat) : Bool :=
  let new := l.eraseDups.filter (fun g => !(s.vp (vcmPort (64 * g))).wq.any (fun e => e.gran == g))
  new.all (fun g => (s.vp (vcmPort (64 * g))).wq.length + (new.filter (fun h => vcmPort (64 * h) == vcmPort (64 * g))).length ≤ 64)

/-- The pool byte at which a page starts. -/
abbrev pageAt (p : Nat) : Nat := 4096 * p

/-- Whether an extent of window addresses lies wholly in the pool or in the VCM aperture (R480 check 2, Table RDG-8). -/
def winOk (a n : Nat) : Bool :=
  (0x04000000 ≤ a && a + n ≤ 0x10000000) || (0x800000000 ≤ a && a + n ≤ 0x1000000000)

/-- The APBASE of a path: its port's, or 0 over I3C (R480). -/
def State.apbase (s : State) (path : Path) : Nat :=
  match path with
  | .port n => s.r .LK_APER_APBASE n.val
  | _ => 0

/-- The space and byte of a window address in the pool or the aperture. -/
def State.winAt (s : State) (path : Path) (a : Nat) : Nat × Nat :=
  if path = .flash then (4, a)
  else if a < 0x800000000 then (3, a - 0x04000000) else (0, s.apbase path * 2 ^ 35 + (a - 0x800000000))

def State.winLoad (s : State) (path : Path) (a n : Nat) : List Byte :=
  s.load (s.winAt path a).1 (s.winAt path a).2 n
def State.winN (s : State) (path : Path) (a n : Nat) : Nat :=
  s.loadN (s.winAt path a).1 (s.winAt path a).2 n

/-- The arrays in VCM that a binding of LIMIT block addresses takes, as first byte and length (R73, R74). -/
def arraysOf (vec ts tag lim : Nat) : List (Nat × Nat) := [(vec, 1024 * lim), (ts, 64 * lim), (tag, lim)]

/-- The arrays of a bound group. -/
def State.arrays (s : State) (g : Nat) : List (Nat × Nat) :=
  if s.r .PG_LIMIT_LIMIT g = 0 then []
  else arraysOf (64 * s.r .PG_VEC_BASE_BASE g) (64 * s.r .PG_TS_BASE_BASE g) (64 * s.r .PG_TAG_BASE_BASE g) (s.r .PG_LIMIT_LIMIT g)

/-- Whether two extents, each a first byte and a length, share a byte. -/
def clash (a b : Nat × Nat) : Bool := a.1 < b.1 + b.2 && b.1 < a.1 + a.2

/-- Whether an extent of VCM touches a bound array. -/
def State.inBound (s : State) (a n : Nat) : Bool := (upTo 32).any (fun g => (s.arrays g).any (clash (a, n)))

/-- The segment table of a pitch in VCM. -/
def State.tableAt (s : State) (p : Nat) : Nat × Nat := (64 * s.r .SQ_TBL_BASE_BASE p, 32 * s.r .SQ_TBL_LEN_COUNT p)

/-- A write through the device window: into a bound array it is discarded and counted (R79); one that changes a segment
table clears PREPARED of its pitch (R91). -/
def State.winStore (s : State) (path : Path) (a : Nat) (b : List Byte) : State :=
  let (sp, x) := s.winAt path a
  if sp = 0 && s.inBound x b.length then s.inc .POOL_ERR_WIN_REJECT_CNT
  else
    let s := s.store sp x b
    if sp = 0 then
      forAll ((upTo 32).filter (fun p => clash (s.tableAt p) (x, b.length))) (fun p t => t.w .PT_SUPPLY_PREPARED p 0) s
    else s
def State.winBad (s : State) (path : Path) (a n : Nat) : Bool :=
  s.anyBad (s.winAt path a).1 (s.winAt path a).2 n

/-! ## Ridge messages -/

/-- The port states of Table RDG-5 that others ask about. -/
abbrev PUP : Nat := 5
abbrev PIDLE : Nat := 6

/-- The credits a packet needs: posted headers, posted data, non-posted headers (R288). -/
def Pkt.needs (k : Pkt) : Nat × Nat × Nat :=
  match k.h.ttype with
  | 1 => (0, 0, 1)
  | 2 | 5 | 6 => (1, ceilDiv (4 * k.h.len) 32, 0)
  | _ => (0, 0, 0)

def LPort.canSend (x : LPort) (k : Pkt) : Bool :=
  let (h, d, n) := k.needs
  x.usedHdr + h ≤ x.crHdr && x.usedData + d ≤ x.crData && x.usedNp + n ≤ x.crNp

/-- The DATA frames that a packet takes: each packet begins a frame, and zeros fill its last one (R286, log entry 30). -/
def Pkt.frames (k : Pkt) : Nat := ceilDiv (16 + 8 * ceilDiv k.data.length 8) 120

/-- The frames of a packet with their numbers from f on. -/
def Pkt.numbered (k : Pkt) (f : Nat) : List (Nat × Option Pkt) :=
  (List.range k.frames).map (fun i => ((f + i) % 4096, if i = 0 then some k else none))

/-- Send the queued packets in order while credits and the replay buffer of 2,048 frames last (R271, R288). Every frame
carries the ACK. -/
def LPort.pumpFrom (now : Nat) (x : LPort) : List Pkt → LPort
  | [] => { x with txq := [] }
  | k :: r =>
    if x.canSend k && x.replay.length + k.frames ≤ 2048 then
      let (h, d, n) := k.needs
      LPort.pumpFrom now { x with
        usedHdr := x.usedHdr + h, usedData := x.usedData + d, usedNp := x.usedNp + n
        progressAt := if x.replay.isEmpty then now else x.progressAt
        replay := x.replay ++ k.numbered x.fseqTx, fseqTx := (x.fseqTx + k.frames) % 4096
        rxUnacked := 0, lastData := now, txSince := now, stalled := false, asleepTx := false, creditAt := none } r
    else { x with txq := k :: r }

/-- Send what a port that is UP can send. -/
def State.pump (s : State) (n : Nat) : State :=
  if s.r .LK_STATE_STATE n == PUP then s.onLp n (fun x => x.pumpFrom s.now x.txq) else s

/-- Queue a packet on a port and send what the credits allow; a port that is OFF or DOWN drops it and counts its own
messages (R293, R294). -/
def State.send (s : State) (n : Nat) (k : Pkt) : State :=
  if s.r .LK_STATE_STATE n == 0 || s.r .LK_STATE_STATE n == 9 then
    (if k.h.ttype == 5 then s.inc .LK_TXN_DROP_MSG n else s)
  else
    (s.onLp n (fun x => { x with txq := x.txq ++ [k], txSince := if x.txq.isEmpty then s.now else x.txSince })).pump n

/-- A message packet (TTYPE MSG). -/
def msgPkt (mcode : Nat) (data : List Byte) : Pkt :=
  { h := { ttype := 5, len := ceilDiv data.length 4, mcode := mcode }, data := data }

/-- Wake a sleeping transmitter (R285). -/
def LPort.wake (x : LPort) : LPort := { x with asleepTx := false, creditAt := none }

/-- Repeat a control word until it is superseded: one of each code, and one CREDIT of each type (R270). A word to send wakes a sleeping
transmitter, but a CREDIT may wait (R285). -/
def ctrlWord (n code v : Nat) (s : State) : State :=
  s.onLp n (fun x =>
    let x : LPort := { x with
      ctrl := x.ctrl.filter (fun e => !(e.1 == code && (code != 2 || e.2 / 65536 == v / 65536))) ++ [(code, v)] }
    if code != 2 then x.wake else if x.asleepTx then { x with creditAt := some (x.creditAt.getD s.now) } else x)

/-- Return the credits of a received packet (R288). -/
def releaseCr (n h d np : Nat) (s : State) : State :=
  let s := s.onLp n (fun x => { x with
    relHdr := (x.relHdr + h) % 65536, relData := (x.relData + d) % 65536, relNp := (x.relNp + np) % 65536 })
  let x := s.lp n
  let s := if h = 0 then s else ctrlWord n 2 x.relHdr s
  let s := if d = 0 then s else ctrlWord n 2 (65536 + x.relData) s
  if np = 0 then s else ctrlWord n 2 (2 * 65536 + x.relNp) s

/-! ## Events (R333, R334, R335, R478) -/

/-- The event codes of Table MBX-6 and of the SEC, REC, THM and TWIN chapters. -/
abbrev EV_MB_ERROR : Nat := 0x0101
abbrev EV_FLOW_FAULT : Nat := 0x0102
abbrev EV_COAT_APPLIED : Nat := 0x0201
abbrev EV_BAD_SYMBOL : Nat := 0x0301
abbrev EV_TSET_INVALID : Nat := 0x0302
abbrev EV_STAGE_REJECT : Nat := 0x0501
abbrev EV_LEAD_LOW : Nat := 0x0502
abbrev EV_UNDERRUN : Nat := 0x0503
abbrev EV_REF_LOCK : Nat := 0x0601
abbrev EV_REF_NOLOCK : Nat := 0x0602
abbrev EV_REF_LOSS : Nat := 0x0603
abbrev EV_PITCH_START : Nat := 0x0604
abbrev EV_PITCH_STOP : Nat := 0x0605
abbrev EV_NOT_LOADED : Nat := 0x0606
abbrev EV_PRIMER_DONE : Nat := 0x0607
abbrev EV_PRIMER_TIMEOUT : Nat := 0x0608
abbrev EV_PRIMER_FAULT : Nat := 0x0609
abbrev EV_PRIMER_ABORT : Nat := 0x060A
abbrev EV_CAP_DONE : Nat := 0x0701
abbrev EV_CAP_OVF : Nat := 0x0702
abbrev EV_TDC_DONE : Nat := 0x0801
abbrev EV_CAL_DRIFT : Nat := 0x0901
abbrev EV_CAL_SET_BAD : Nat := 0x0902
abbrev EV_CAL_DUE : Nat := 0x0903
abbrev EV_VCM_REFRESH_CATCHUP : Nat := 0x0A01
abbrev EV_VCM_THROTTLE : Nat := 0x0A02
abbrev EV_VCM_UE : Nat := 0x0A03
abbrev EV_VCM_ROW_RETIRED : Nat := 0x0A04
abbrev EV_VCM_NOSPARE : Nat := 0x0A05
abbrev EV_VCM_TRAIN_FAIL : Nat := 0x0A06
abbrev EV_LANE_LOST : Nat := 0x0B01
abbrev EV_LANE_DROPPED : Nat := 0x0B02
abbrev EV_LANE_FAULT : Nat := 0x0B03
abbrev EV_LINK_DOWN : Nat := 0x0B04
abbrev EV_LINK_ROLE_MISMATCH : Nat := 0x0B05
abbrev EV_LINK_STALL : Nat := 0x0B06
abbrev EV_PEG_SHIFT : Nat := 0x0C01
abbrev EV_PEG_PATH : Nat := 0x0C02
abbrev EV_START_LATE : Nat := 0x0C03
abbrev EV_TIME_EPOCH : Nat := 0x0C04
abbrev EV_TIME_STEP : Nat := 0x0C05
abbrev EV_PTP_HOLDOVER : Nat := 0x0C06
abbrev EV_PTP_PATH_CHANGE : Nat := 0x0C07

/-- Records in the event ring. -/
def State.evrSize (s : State) : Nat := 2 ^ (7 + s.r .EVR_CFG_LOG_SIZE)

/-- The ports that receive event messages: HOST role and UP (R335). -/
def State.hostPorts (s : State) : List Nat :=
  (upTo 12).filter (fun n => s.r .LK_CFG_ROLE n == 0 && s.r .LK_STATE_STATE n == PUP)

/-- Whether the event ring takes a record now. -/
def State.evrRoom (s : State) : Bool :=
  s.rb .EVR_CFG_EN && (s.r .EVR_PROD_COUNT + 2 ^ 32 - s.r .EVR_CONS_COUNT) % 2 ^ 32 < s.evrSize

/-- The event record of Table MBX-5. -/
def State.eventRec (s : State) (code : Nat) (vals : List (Nat × Nat)) : Nat :=
  pack [(16, code), (1, b2n s.mbox.evDropped), (15, 0), (32, s.mbox.evSeq), (64, s.clk.ns),
        (16, s.clk.epoch), (16, 0), (96, pack vals)]

/-- Raise an event: write its record into the event ring and send it where NOTIFY asks, or drop and count it. -/
def event (code : Nat) (vals : List (Nat × Nat)) (s : State) : State :=
  let rec' := s.eventRec code vals
  let seq' := (s.mbox.evSeq + 1) % 2 ^ 32
  if s.evrRoom then
    let s := s.storeN 3 (pageAt (s.r .EVR_CFG_EVR_PAGE) + 32 * (s.r .EVR_PROD_COUNT % s.evrSize)) 32 rec'
    let s := s.w .EVR_PROD_COUNT 0 (s.r .EVR_PROD_COUNT + 1)
    let s := { s with mbox := { s.mbox with evSeq := seq', evDropped := false } }
    if s.rb .EVR_CFG_NOTIFY then forAll s.hostPorts (fun n t => t.send n (msgPkt 0x0002 (bytesOf 32 rec'))) s else s
  else
    { s.inc .EVR_STAT_EVR_LOST with mbox := { s.mbox with evSeq := seq', evDropped := true } }

/-! ## Life records and fault windows (R432 to R442) -/

/-- The key of a record: its identifier and instance. -/
abbrev recKey (rid inst : Nat) : Nat := 65536 * rid + inst

def State.rec' (s : State) (rid inst : Nat) : RecEnt := tget {} s.recm.recs (recKey rid inst)
def State.onRec (s : State) (rid inst : Nat) (f : RecEnt → RecEnt) : State :=
  { s with recm := { s.recm with recs := tset {} s.recm.recs (recKey rid inst) (f (s.rec' rid inst)) } }

/-- A little-endian number in the shadow of a life record, by its byte offset (R436, R437). -/
def State.life (s : State) (rid inst off n : Nat) : Nat := (s.rec' rid inst).shadow.rdn off n
def setLife (rid inst off n v : Nat) (s : State) : State :=
  s.onRec rid inst (fun x => { x with shadow := x.shadow.wrn off n v })

/-- A saturating counter of n bytes in the shadow of a life record (R437). -/
def lifeAdd (rid inst off n v : Nat) (s : State) : State := setLife rid inst off n (satAdd (8 * n) (s.life rid inst off n) v) s

/-- Whether a copy holds readable content: written, in service, and with an even UPDSEQ (R433). -/
def RecCopy.ok (c : RecCopy) : Bool := c.written && !c.out && c.upd % 2 == 0

/-- Whether copy B is the valid one of two readable copies: the larger UPDSEQ by modular difference. -/
def newerB (x : RecEnt) : Bool := x.b.ok && (!x.a.ok || decide (0 < sint 32 (x.b.upd + 2 ^ 32 - x.a.upd)))

/-- The valid copy of a record (R433). -/
def RecEnt.valid (x : RecEnt) : Option RecCopy := if newerB x then some x.b else if x.a.ok then some x.a else none

/-- Write a record under the update-sequence rule (R433, R434): into the copy that is not the valid one, or the one left in
service; the content is a function of its UPDSEQ. -/
def recWrite (rid inst : Nat) (mk : Nat → List Byte) (s : State) : State :=
  s.onRec rid inst (fun x =>
    let u := ((match x.valid with | some c => c.upd | none => 0) + 2) % 2 ^ 32
    let c : RecCopy := { upd := u, written := true, data := Mem.wrs [] 0 (mk u) }
    if x.a.out && x.b.out then x
    else if x.b.out || (newerB x && !x.a.out) || (!x.b.ok && !x.a.ok && !x.a.out) then { x with a := c } else { x with b := c })

/-- Content of a record: bytes of its valid copy, zeros where there is none (R434). -/
def State.recN (s : State) (rid inst off n : Nat) : Nat :=
  match (s.rec' rid inst).valid with | some c => c.data.rdn off n | none => 0

/-- A flush is requested; during a flush exactly one more follows (R436). -/
def askFlush (s : State) : State := if s.rb .REC_STAT_FLUSHING then s.setF .REC_STAT_FLUSH_PEND else s.setF .REC_STAT_FLUSHING

/-- The window in core cycles and the threshold of each fault source (Table REC-4). -/
def faultWK (src : Nat) : Nat × Nat :=
  match src with
  | 1 => (86400000000000, 3) | 3 => (3600000000000, 4) | 4 => (2592000000000000, 4) | 5 => (3000000, 3)
  | 6 => (86400000000000, 4) | 8 => (86400000000000, 16) | 10 => (3600000000000, 2) | 12 => (210000, 5)
  | 13 => (3600000000000, 3) | _ => (0, 1)

abbrev EV_REC_FAULT : Nat := 0x0E01

/-- The times of the last events of a unit, newest first. -/
def State.faultTimes (s : State) (src u : Nat) : List Nat :=
  match s.recm.hist.find? (fun e => e.1 == src && e.2.1 == u) with | some e => e.2.2 | none => []

/-- Store the times of a unit; the newest units stand last, and source 0x01 keeps 1,024 rows (R441). -/
def setTimes (src u : Nat) (l : List Nat) (s : State) : State :=
  let h := s.recm.hist.filter (fun e => !(e.1 == src && e.2.1 == u))
  let rows := h.filter (fun e => e.1 == 1)
  let h := if src = 1 && 1024 ≤ rows.length && !l.isEmpty then (match rows with | e :: _ => h.erase e | [] => h) else h
  { s with recm := { s.recm with hist := if l.isEmpty then h else h ++ [(src, u, l)] } }

/-- An event of a fault source (R441): counted, and when it is lasting the action of Table REC-4 is taken. -/
def faultEvent (src u : Nat) (action : State → State) (s : State) : State :=
  let (w, k) := faultWK src
  let s := lifeAdd 0x18 0 (8 * src) 4 1 s
  let l := (s.now :: s.faultTimes src u).take k
  if k = 1 || (l.length = k && s.now < l.getLastD 0 + w) then
    let s := action (lifeAdd 0x18 0 (8 * src + 4) 4 1 s)
    let s := event EV_REC_FAULT [(8, src), (32, u), (8, k)] (s.setF .REC_STAT_LASTING_SEEN)
    askFlush (setTimes src u [] s)
  else setTimes src u l s

/-- A read meets an uncorrectable granule of a pool page (R85, source 0x07). -/
def poolFault (page : Nat) (s : State) : State := faultEvent 7 page (fun s => s) s

/-- The status of a read fault in a memory space. One of a pool granule names its page above bit 7, so that the completion
counts the error (R85). -/
def State.faultSt (s : State) (sp a n : Nat) : Nat :=
  if sp = 3 then
    match (s.bad 3).find? (fun g => a < 64 * g + 64 && 64 * g < a + n) with
    | some g => 0xA + 256 * (g / 64 + 1)
    | none => 0xA
  else 0xA

/-! ## Work items (R354 to R364) -/

/-- The length of a capture record in 32-byte units (R161). -/
def CapRec.len (x : CapRec) : Nat := 1 + ceilDiv x.data.length 32

/-- The capture-buffer pages that a unit's records, and the items it keeps refused, take (R185). -/
def State.cuPages (s : State) (g : Nat) : Nat :=
  let x := (s.gp g).cu
  ceilDiv (32 * ((x.buf.map CapRec.len).foldl (· + ·) 0 +
    (s.disp.refused.filter (fun y => y.cls == 0 && y.prod == g)).length)) 4096

/-- CU_FILL follows the buffer (Table CAP-9). -/
def cuFill (g : Nat) (s : State) : State :=
  let n := s.cuPages g
  (s.w .CU_FILL_USED g n).hi .CU_FILL_PEAK g n

/-- Whether fewer than 2 pages of the capture quota are free (R186). -/
def State.cuFull (s : State) (g : Nat) : Bool := s.r .PG_QUOTA_CAP_PAGES g < s.cuPages g + 2

/-- The cause of an overflow that unit g meets (R187). -/
def State.ovfCauseOf (s : State) (g : Nat) : Nat :=
  if s.disp.refused.any (fun y => y.cls == 0 && y.prod == g) then 1 else if (s.gp g).cu.streamBlocked then 3 else 2

/-- An overflow of pitch p's acquisition at vector v, first met by unit g, with its cause (R186, R187). -/
def overflow (p g v cause : Nat) (s : State) : State :=
  if (s.pt p).acq.ovf then s
  else
    event EV_CAP_OVF [(5, p), (5, g), (8, cause)]
      (s.onPt p (fun x => { x with acq := { x.acq with ovf := true, ovfVec := v, ovfCause := cause, ovfUnit := g } }))

/-- The open acquisition of a unit's pitch overflows at the next vector to be evaluated, where the unit has to place an item in a buffer
without 2 free pages (R186). -/
def itemOverflow (g : Nat) (s : State) : State :=
  match s.pitchOf g with
  | some p =>
    if s.cuFull g && (s.pt p).acq.opened.isSome then overflow p g (s.pt p).evalNext 1 s else s
  | none => s

/-- The producers of each class (Table DSP-3). -/
def duN (c : Nat) : Nat :=
  match c with
  | 0 => 32 | 1 => 32 | 2 => 32 | 3 => 12 | 4 => 64 | 5 => 17 | 6 => 1 | _ => 0

/-- The reservation of each producer of a class (R357). -/
def State.duR (s : State) (c : Nat) : Nat := if duN c = 0 then 0 else s.r .DU_QUOTA_GUAR 0 c / duN c

/-- The items that a producer, and a class, holds. -/
def State.duHp (s : State) (c p : Nat) : Nat := (s.disp.items.filter (fun x => x.cls == c && x.prod == p)).length
def State.duHc (s : State) (c : Nat) : Nat := (s.disp.items.filter (fun x => x.cls == c)).length

/-- 8,192 less the sum over all producers of max(h_p, R_c): the shared entries left (R358), as an integer. -/
def State.duShared (s : State) : Int :=
  8192 - (((upTo 8).map (fun c => ((upTo (duN c)).map (fun p => max (s.duHp c p) (s.duR c))).foldl (· + ·) 0)).foldl
    (· + ·) 0 : Nat)

/-- Whether the dispatch unit admits one more item of a producer (R358). -/
def State.duAdmit (s : State) (c p : Nat) : Bool :=
  s.duHp c p < s.duR c ||
    (s.duHp c p < s.r .DU_CLASS_PLIM 0 c && s.duHc c < s.r .DU_QUOTA_MAX 0 c && 0 < s.duShared)

/-- The order keys of Table DSP-4. -/
def keyOk (k : Nat) : Bool :=
  k < 0x21 || (0x40 ≤ k && k < 0x60) || (0x100 ≤ k && k < 0x10C) || k == 0x200 || (0x300 ≤ k && k < 0x310) ||
    (0x1000 ≤ k && k < 0x1100) || (0xFF00 ≤ k && k < 0xFF40) || k == 0xFFFF

/-- Count a refusal (R360). -/
def duRefuse (c : Nat) (s : State) : State := (s.inc .DU_REFUSE_VALUE 0 c).setF .DU_STAT_REFUSE_SEEN

/-- The order of refusal: by time, then by class, then by producer (R358). -/
def refusedBefore (x y : Item) : Bool :=
  x.since < y.since || (x.since == y.since && (x.cls < y.cls || (x.cls == y.cls && x.prod < y.prod)))
def putRefused (x : Item) : List Item → List Item
  | [] => [x]
  | y :: r => if refusedBefore x y then x :: y :: r else y :: putRefused x r
def sortRefused (l : List Item) : List Item := l.foldl (fun t x => putRefused x t) []

/-- What a refused producer does with its item (Table DSP-5): a position or trace post that finds 30 of the 32 post
entries full is dropped and counted in SEQ_DROP, every other item waits with its producer; a capture unit's takes a place in its
buffer (R186). -/
def keepRefused (x : Item) (s : State) : State :=
  if x.cls == 2 && x.type != 0xE2 && x.type != 0xFE &&
      30 ≤ (s.disp.refused.filter (fun y => y.cls == 2 && y.prod == x.prod)).length then
    s.inc .DU_STAT_SEQ_DROP
  else
    let full := s.cuFull x.prod
    let s := { s with disp := { s.disp with refused := s.disp.refused ++ [x] } }
    if x.cls == 0 then (let s := cuFill x.prod s; if full then itemOverflow x.prod s else s) else s

/-- The items refused in a core cycle and not admitted by its end are counted, and their producers act (R358, R360). -/
def settleRefused (s : State) : State :=
  let l := sortRefused (s.disp.refused.filter (fun x => x.since == s.now))
  let s := { s with disp := { s.disp with refused := s.disp.refused.filter (fun x => x.since != s.now) } }
  l.foldl (fun t x => keepRefused x (duRefuse x.cls t)) s

/-- Whether a key was cancelled in this core cycle, and an item that becomes ready in the cycle all the same: removed and counted
(R364). -/
def State.raced (s : State) (key : Nat) : Bool := s.disp.cancels.contains (key, s.now)
def raceCancel (s : State) : State := (s.inc .DU_CANCEL_CANCEL).inc .DU_CANCEL_RCANCEL

/-- Post a work item: admitted held or ready, or refused (R355, R356, R358, R360). The item number is the order of admission. A refusal
stands when its core cycle ends, since a freeing of the cycle comes before it. -/
def post (cls prod type key payload : Nat) (held : Bool) (s : State) : State :=
  let prio := if cls == 4 then s.r .MB_CFG_PRIO prod else s.r .DU_CLASS_PRIO 0 cls
  let x : Item := { id := s.disp.nextId, type := type, prio := prio, cls := cls, prod := prod, key := key,
                    payload := payload, st := if held then .held else .ready s.now }
  let s := { s with disp := { s.disp with nextId := s.disp.nextId + 1 } }
  if keyOk key && s.duAdmit cls prod then
    if !held && s.raced key then raceCancel s else { s with disp := { s.disp with items := s.disp.items ++ [x] } }
  else if keyOk key then { s with disp := { s.disp with refused := s.disp.refused ++ [{ x with since := s.now }] } }
  else duRefuse cls s

/-- The pitch key of capture and TDC items, or 0x0020 without a pitch. -/
def pitchKey (p : Option Nat) : Nat := match p with | some p => p | none => 0x20

/-- Cancel every item of a key that is not in service (R364); items that became ready in this core cycle count in
RCANCEL as well. -/
def cancelKey (k : Nat) (s : State) : State :=
  let gone := s.disp.items.filter (fun x => x.key == k && match x.st with | .service .. => false | _ => true)
  let race := gone.filter (fun x => x.st == .ready s.now)
  let s := { s with disp := { s.disp with
    items := s.disp.items.filter (fun x => !(x.key == k && match x.st with | .service .. => false | _ => true))
    cancels := s.disp.cancels.filter (fun (e : Nat × Nat) => e.2 == s.now) ++ [(k, s.now)] } }
  let s := s.inc .DU_CANCEL_CANCEL 0 0 gone.length
  s.inc .DU_CANCEL_RCANCEL 0 0 race.length

/-- The receive buffer of a message that the dispatch unit has admitted is free: its posted credits return (R288, Table DSP-5). The payload
of a message item holds MCODE and LEN. -/
def msgFreed (x : Item) (s : State) : State :=
  let n := ceilDiv (4 * bits x.payload 23 16) 32
  if x.cls = 3 then releaseCr x.prod 1 n 0 s else if x.cls = 6 then releaseCr 11 1 n 0 s else s

/-- The oldest item that a refused producer still keeps and that would now be admitted (R358, R360): admitted in order of refusal, one pass
over the list; one that is ready, of a key cancelled in this core cycle, is removed (R364). -/
def readmitFrom : List Item → State → State
  | [], s => s
  | x :: r, s =>
    if s.duAdmit x.cls x.prod then
      let s := { s with disp := { s.disp with refused := s.disp.refused.filter (fun y => y.id != x.id) } }
      let s := if x.st != .held && s.raced x.key then raceCancel s
        else { s with disp := { s.disp with items := s.disp.items ++ [{ x with st := match x.st with | .held => .held | _ => .ready s.now }] } }
      readmitFrom r (msgFreed x (if x.cls == 0 then cuFill x.prod s else s))
    else readmitFrom r s
def readmit (s : State) : State := readmitFrom (sortRefused s.disp.refused) s

/-! ## Completions (R329 to R332, R335, R447) -/

abbrev ST_OK : Nat := 0
abbrev ST_BUSY : Nat := 1
abbrev ST_STATE : Nat := 2
abbrev ST_RANGE : Nat := 3
abbrev ST_NOSPACE : Nat := 4
abbrev ST_AUTH : Nat := 5
abbrev ST_TIMEOUT : Nat := 6
abbrev ST_DEFERRED : Nat := 7
abbrev ST_STALE : Nat := 8
abbrev ST_REFUSED : Nat := 9
abbrev ST_FAULT : Nat := 0xA
abbrev ST_UNSUPPORTED : Nat := 0xB

/-- Entries in the rings of a mailbox. -/
def State.mbSize (s : State) (n : Nat) : Nat := 2 ^ (6 + s.r .MB_CFG_LOG_SIZE n)

/-- The completion entry of Table MBX-2 without its PHASE bit. -/
def cplEntry (cmd st : Nat) (interim : Bool) (d : Desc) (r0 r1 r2 : Nat) : Nat :=
  pack [(16, cmd), (16, d.tag), (8, st), (1, b2n interim), (1, 0), (6, d.mb), (16, d.index), (64, r0), (64, r1), (64, r2)]

/-- Write a completion entry into its ring with the pass parity, then advance MB_CPL_PROD (R329). -/
def writeCpl (mb entry : Nat) (s : State) : State :=
  let prod := s.r .MB_CPL_PROD_COUNT mb
  let e := entry + (if prod / s.mbSize mb % 2 = 0 then 2 ^ 41 else 0)
  let s := s.storeN 3 (pageAt (s.r .MB_CPLCFG_CPL_PAGE mb) + 32 * (prod % s.mbSize mb)) 32 e
  s.w .MB_CPL_PROD_COUNT mb (prod + 1)

/-- The pairing states of Table REC-5. -/
abbrev TW_PAIRED : Nat := 2
abbrev TW_SUSPECT : Nat := 3

/-- In PAIRED and SUSPECT firmware waits for the twin's acknowledgement (R447). -/
def State.twinWaits (s : State) : Bool := s.r .TW_STATE_STATE == TW_PAIRED || s.r .TW_STATE_STATE == TW_SUSPECT

/-- Items for the twin are queued from pairing on (R446, R447). -/
def State.twinOn (s : State) : Bool := s.r .TW_STATE_STATE != 0

def mirror (m : MirrorItem) (s : State) : State :=
  if s.twinOn then { s with twin := { s.twin with queued := s.twin.queued ++ [m] } } else s

/-- Mailbox state of the own half goes to the twin on change (R446). -/
def mirrorMb (n : Nat) (s : State) : State :=
  if s.twinOn && n / 32 == s.r .TW_STATE_HALF then
    mirror (.mailbox n (s.r .MB_CFG_CMD_PAGE n + 2 ^ 25 * s.r .MB_CFG_LOG_SIZE n + 2 ^ 28 * s.r .MB_CFG_PRIO n + 2 ^ 31 * s.r .MB_CFG_EN n)
      (s.r .MB_CPLCFG_CPL_PAGE n) (s.r .MB_PROD_COUNT n) (s.r .MB_CONS_COUNT n) (s.r .MB_CPL_PROD_COUNT n) (s.r .MB_CPL_CONS_COUNT n)) s
  else s

/-- Send a final completion as a message on the port of its doorbell (R335). -/
def notifyCpl (d : Desc) (entry : Nat) (s : State) : State :=
  match d.notify, d.path with
  | true, .port n => s.send n.val (msgPkt 0x0001 (bytesOf 32 entry))
  | _, _ => s

/-- A mailbox whose EN was cleared reads EN 1 until OUTSTANDING reaches 0 (R325). -/
def drained (mb : Nat) (s : State) : State :=
  if s.mbox.draining.contains mb && s.r .MB_STAT_OUTSTANDING mb == 0 then
    mirrorMb mb { s.w .MB_CFG_EN mb 0 with mbox := { s.mbox with draining := s.mbox.draining.filter (· != mb) } }
  else s

/-- The commands that may complete later than their step while the next command of the mailbox starts (R332):
PAT.BIND, PAT.STAGE, PAT.PREPARE, SEQ.LOAD, CAL.RUN, CAL.COMMIT, TIME.ALIGN, VCM.FILL, VCM.RETRAIN, COAT.APPLY. -/
def lateCmd (cmd : Nat) : Bool :=
  [0x0501, 0x0502, 0x0505, 0x0603, 0x0901, 0x0902, 0x0C02, 0x0A03, 0x0A04, 0x0202].contains cmd

/-- Report a mailbox work item done (R362). -/
def freeCmd (d : Desc) (s : State) : State :=
  readmit { s with disp := { s.disp with
    items := s.disp.items.filter (fun x => !(x.type == 1 && x.key == 0xFF00 + d.mb && x.payload == d.index)) } }

/-- The completion of a command: the entry (write-ahead to the twin while paired, R447), OUTSTANDING and the message. -/
def complete (cmd : Nat) (d : Desc) (st : Nat) (interim : Bool) (r0 r1 r2 : Nat) (s : State) : State :=
  let e := cplEntry cmd st interim d r0 r1 r2
  let s := if 256 ≤ st then poolFault (st / 256 - 1) s else s
  let s := mirror (.completion d.mb d.index e) s
  let s := if s.twinWaits then s else mirrorMb d.mb (writeCpl d.mb e s)
  if interim then s
  else
    let s := freeCmd d (s.w .MB_STAT_OUTSTANDING d.mb (s.r .MB_STAT_OUTSTANDING d.mb - 1))
    drained d.mb (notifyCpl d e s)

/-- What the step of a command answers: a final completion, or none yet (R332). -/
inductive Reply where
  | done (st : Nat) (r0 : Nat := 0) (r1 : Nat := 0) (r2 : Nat := 0)
  | later
  | deferred
deriving DecidableEq, Repr

/-- The first failing check of a list decides the status. -/
def firstBad : List (Bool × Nat) → Option Nat
  | [] => none
  | (b, st) :: r => if b then some st else firstBad r

/-- The commands that have started and not finished, by mailbox (R332). -/
def Job.desc : Job → Desc
  | .bind d _ | .stageNew d _ _ | .stage d _ _ _ _ _ | .stageRing d _ _ _ | .prepare d _ | .load d _ _ _ _ _ | .calRun d | .calCommit d _
  | .fill d _ _ _ | .retrain d | .ramp d _ _ | .flush d _ | .recRead d _ _ | .quote d | .seal d | .lot d | .pair d _
  | .flowEntry d _ _ | .start d => d

/-- Which job a completion row ends: by its kind, and its group or pitch or due time. -/
def Job.isBind (g : Nat) : Job → Bool | .bind _ x => x == g | _ => false
def Job.isStage (g : Nat) : Job → Bool | .stageNew _ x _ => x == g | .stage _ x _ _ _ _ => x == g | .stageRing _ x _ _ => x == g | _ => false
def Job.isPrepare (p : Nat) : Job → Bool | .prepare _ x => x == p | _ => false
def Job.isLoad (p : Nat) : Job → Bool | .load _ x _ _ _ _ => x == p | _ => false
def Job.isCalRun : Job → Bool | .calRun .. => true | _ => false
def Job.isCalCommit : Job → Bool | .calCommit .. => true | _ => false
def Job.isFill : Job → Bool | .fill .. => true | _ => false
def Job.isRetrain : Job → Bool | .retrain .. => true | _ => false
def Job.isPair : Job → Bool | .pair .. => true | _ => false
def Job.readDue (now : Nat) : Job → Bool | .recRead _ _ t => decide (t + 10000 ≤ now) | _ => false
def Job.rampDue (now : Nat) : Job → Bool | .ramp _ _ t => decide (t + 40000 ≤ now) | _ => false

/-- The descriptors of a mailbox that have started and have no final completion. -/
def State.unfinished (s : State) (mb : Nat) : Nat :=
  (s.jobs.filter (fun j => j.desc.mb == mb)).length + (s.mbox.waits.filter (fun x => x.d.mb == mb)).length +
    (match s.guy.align with | some a => b2n (a.d.mb == mb) | none => 0)

/-- Whether a command of a mailbox is still running that R332 does not let overlap the next one. -/
def State.busyMb (s : State) (mb : Nat) : Bool :=
  s.jobs.any (fun j => j.desc.mb == mb && match j with
    | .ramp .. | .flush .. | .recRead .. | .quote .. | .seal .. | .lot .. | .pair .. | .flowEntry .. | .start .. => true
    | _ => false)

/-- The domains outside VAUX are held: a reset contact, PWRFAIL_N, shutdown or BOOTFAIL (R381, R415, R416, R417, R426). -/
def State.halted (s : State) : Bool :=
  s.pwr.porstLow || s.pwr.warmLow || s.pwr.warmFlush || s.pwr.dead || s.pwr.shut || s.pwr.bootFail

/-- The state of Table REC-5 after a takeover. -/
abbrev TW_TAKEN_OVER : Nat := 6

/-- Whether a mailbox belongs to the partner half that this device has taken over (R453). -/
def State.taken' (s : State) (mb : Nat) : Bool :=
  s.r .TW_STATE_STATE == TW_TAKEN_OVER && mb / 32 != s.r .TW_STATE_HALF

/-- The commands that the survivor runs on a partner-half mailbox (R454): SYS.INFO, SYS.NOP, SEC.SEAL, SEC.LOT CLOSE and
TWIN.STATUS. -/
def takenCmd (cmd : Nat) (d : Desc) : Bool :=
  cmd == 0x0101 || cmd == 0x0102 || cmd == 0x0D07 || (cmd == 0x0D08 && d.a0 == 1) || cmd == 0x1003

/-- A command starts when its mailbox is enabled, it is the oldest descriptor taken and not started of its mailbox (or
comes directly, log entry 8), its fence holds, and the twin has acknowledged its journal entry (R332, R447). -/
def State.startable (s : State) (cmd : Nat) (d : Desc) : Bool :=
  !s.halted && s.rb .MB_CFG_EN d.mb &&
  (match s.mbox.taken.find? (fun e => e.1.mb == d.mb) with | none => true | some e => e == (d, cmd)) &&
  !s.busyMb d.mb && !(d.fence && s.unfinished d.mb != 0) &&
  !(s.twinWaits && s.twin.queued.any (fun m => match m with
      | .journal mb ix _ _ _ => mb == d.mb && ix == d.index
      | _ => false))

/-- Take a started command off the list of taken descriptors. -/
def started (d : Desc) (s : State) : State :=
  { s with mbox := { s.mbox with taken := s.mbox.taken.filter (fun e => e.1 != d) } }

def State.ready (s : State) : Bool := s.rb .SYS_STATE_READY

/-- Finish the step of a command with its reply. -/
def reply (cmd : Nat) (d : Desc) (a : Reply) (s : State) : State :=
  match a with
  | .done st r0 r1 r2 => complete cmd d st false r0 r1 r2 s
  | .later => if lateCmd cmd then freeCmd d s else s
  | .deferred => complete cmd d ST_DEFERRED true 0 0 0 s

/-- The outcome of a step. -/
abbrev Out := Host.Outcome State Fault Refusal

/-- One host command as a step (R331): order, form and reach (R480), READY (R420, log entry 9), then its own checks
and effect. `pre` lists the failing conditions of form, reach and disabled units with their statuses. -/
def runCmd (cmd : Nat) (d : Desc) (pre : List (Bool × Nat)) (body : State → State × Reply) (s : State) : State :=
  if s.startable cmd d then
    let s := started d s
    if !s.ready then complete cmd d ST_STATE false 0 0 0 s
    else if s.taken' d.mb && !takenCmd cmd d then complete cmd d ST_FAULT false 0 0 0 s
    else
      match firstBad ((d.rsv != 0, ST_RANGE) :: pre) with
      | some st => complete cmd d st false 0 0 0 s
      | none => let (t, a) := body s; reply cmd d a t
  else s

/-- The body of a command whose checks come in order, the first failing one deciding, and whose effect is last. -/
def checked (l : List (Bool × Nat)) (ok : State × Reply) (s : State) : State × Reply :=
  match firstBad l with
  | some st => (s, .done st)
  | none => ok

end Sys2Proof.Machine
end

