-- ==== Sys2Proof/Machine/Flags.lean ====
section
/-! DEFINITION. Flag rules: clearing a W1C field, reading an RC field (R8, R365, R366), and the Z, N and C flags of
the sequencer's arithmetic (R141). -/

namespace Sys2Proof.Machine

/-- A write to a W1C field: a 1 clears the bit, a 0 leaves it (R8); a bit that hardware has set in this core cycle stays set (R365). -/
def w1c (f : Fld) (u i v : Nat) (s : State) : State :=
  let old := s.r f u i
  let keep := s.setNow ⟨f, u, i⟩
  s.w f u (old - (old &&& (v - (v &&& keep)))) i

/-- The value at which an RC field restarts after a read (R366): LEAD_MIN at the lead while its pitch runs and at
0xFFFF otherwise, PEAK at the pages in use, the other extremes at the greatest quantity of the core cycle, and a count at the
increments of the core cycle. -/
def State.rcRestart (s : State) (f : Fld) (u i : Nat) : Nat :=
  match f with
  | .PG_LEAD_LEAD_MIN =>
    (match s.pitchOf u with
      | some p => if s.pstate p == RUNNING then s.r .PG_LEAD_LEAD_NS u else 0xFFFF
      | none => 0xFFFF)
  | .CU_FILL_PEAK => s.r .CU_FILL_USED u
  | .PH_ERR_ERR_PEAK | .VCM_INT_INT_MAX | .SQ_INTP_LAT_MAX | .TW_LAG_ACK_MAX => listMax 0 (s.upsOf ⟨f, u, i⟩)
  | f => min ((s.upsOf ⟨f, u, i⟩).foldl (· + ·) 0) (2 ^ f.width - 1)

/-- Reading an RC field: it then restarts (R366), and a second read in the core cycle reads what the first left. -/
def rcRead (f : Fld) (u i : Nat) (s : State) : State :=
  let v := s.rcRestart f u i
  onCyc (fun c => { c with regs := rset (f.resetAt u i) c.regs ⟨f, u, i⟩ v, ups := c.ups.filter (fun e => e.1 != ⟨f, u, i⟩) }) (s.w f u v i)

/-- The 32-bit result of an operation with the flags that Table MIC-4 gives it. -/
structure Alu where
  val : Nat
  c : Bool
deriving DecidableEq, Repr

/-- Addition modulo 2^32 with its carry. -/
def aluAdd (a b : Nat) : Alu := ⟨(a + b) % 2 ^ 32, 2 ^ 32 ≤ a + b⟩

/-- Subtraction modulo 2^32; C is set when no borrow occurs (a ≥ b). -/
def aluSub (a b : Nat) : Alu := ⟨(a + 2 ^ 32 - b) % 2 ^ 32, b ≤ a⟩

/-- Whether a 32-bit value is zero, and its sign bit. -/
def zOf (v : Nat) : Bool := v % 2 ^ 32 == 0
def nOf (v : Nat) : Bool := v.testBit 31

end Sys2Proof.Machine
end

