-- ==== Sys2Proof/Machine/Operands.lean ====
section
/-! DEFINITION. The operand forms of host commands: argument words, choices, unit numbers, masks and parameter blocks
(R337), and the form and reach checks of R480. -/

namespace Sys2Proof.Machine

/-- All ones of a 64-bit argument word: the encoding of a name where the rule also offers a number (R337). -/
abbrev ALL1 : Nat := 0xFFFFFFFFFFFFFFFF

/-- Argument word k of a descriptor. -/
def Desc.arg (d : Desc) (k : Nat) : Nat :=
  match k with
  | 0 => d.a0 | 1 => d.a1 | 2 => d.a2 | 3 => d.a3 | 4 => d.a4 | 5 => d.a5 | _ => d.a6

/-- A nonzero argument word from number n on, which the command does not use (R9, R337). -/
def Desc.extra (d : Desc) (n : Nat) : Bool := (upTo 7).any (fun k => n ≤ k && Desc.arg d k != 0)

/-- A failing form check (R480, check 1). -/
abbrev bad (b : Bool) : Bool × Nat := (b, ST_RANGE)

/-- Unused argument words from n on. -/
abbrev args (d : Desc) (n : Nat) : Bool × Nat := (Desc.extra d n, ST_RANGE)

/-- A unit number at or beyond the count of units (R480, check 1). -/
abbrev unit (n x : Nat) : Bool × Nat := (n ≤ x, ST_RANGE)

/-- A choice beyond the names its rule lists. -/
abbrev choice (n x : Nat) : Bool × Nat := (n ≤ x, ST_RANGE)

/-- A mask with bits beyond its width. -/
abbrev mask (w x : Nat) : Bool × Nat := (2 ^ w ≤ x, ST_RANGE)

/-- A register or record value wider than its field. -/
abbrev field (w x : Nat) : Bool × Nat := (2 ^ w ≤ x, ST_RANGE)

/-- An extent outside the pool and the aperture (R480, check 2). -/
abbrev reach (a n : Nat) : Bool × Nat := (!winOk a n, ST_RANGE)

/-- The reach of an extent whose length the command reads; none in boot flash, and none of an empty extent. -/
abbrev reachD (d : Desc) (a n : Nat) : Bool × Nat := (d.path != .flash && n != 0 && !winOk a n, ST_RANGE)

/-- A result that lies in the VCM aperture while VCM is DOWN (R261). -/
abbrev State.wdown (s : State) (a n : Nat) : Bool × Nat := (n != 0 && 0x800000000 ≤ a && s.vcmDown, ST_FAULT)

/-- A disabled unit (R349). -/
abbrev dis (b : Bool) : Bool × Nat := (b, ST_STATE)

/-- A disabled group, or a mask of groups with a disabled one. -/
abbrev State.gOff (s : State) (g : Nat) : Bool × Nat := (!s.gEn g, ST_STATE)
abbrev State.gsOff (s : State) (m : Nat) : Bool × Nat := ((maskBits 32 m).any (fun g => !s.gEn g), ST_STATE)

/-- Whether a pitch mask names a disabled group: a pitch's own number, or a member (R349). -/
abbrev State.psOff (s : State) (m : Nat) : Bool × Nat :=
  ((maskBits 32 m).any (fun p => !s.gEn p || (s.members p).any (fun g => !s.gEn g)), ST_STATE)
abbrev State.pOff (s : State) (p : Nat) : Bool × Nat := s.psOff (2 ^ p)

/-- A read fault of a parameter block (R480, check 3). -/
abbrev State.rfault (s : State) (d : Desc) (a n : Nat) : Bool × Nat := (s.winBad d.path a n, s.faultSt (s.winAt d.path a).1 (s.winAt d.path a).2 n)

/-- A mask of 1,024 channels in a parameter block of 128 bytes, bit n at byte n/8 (R337). -/
def State.chanMask (s : State) (d : Desc) (a : Nat) : Nat := s.winN d.path a 128

/-- The channels of a 1,024-bit mask. -/
def chansIn (m : Nat) : List Nat := maskBits 1024 m

/-- The 32-bit words of a parameter block. -/
def State.words (s : State) (d : Desc) (a n : Nat) : List Nat := (upTo n).map (fun i => s.winN d.path (a + 4 * i) 4)

/-- A list parameter block: an 8-byte count, then one 8-byte word per entry (R337). -/
def State.listLen (s : State) (d : Desc) (a : Nat) : Nat := s.winN d.path a 8
def State.listAt (s : State) (d : Desc) (a n : Nat) : List Nat := (upTo n).map (fun i => s.winN d.path (a + 8 + 8 * i) 8)

/-- What a command would do: its own checks in order, and the state that its effect leaves. Coats run the same checks
and effects (R343). -/
structure Act where
  checks : List (Bool × Nat)
  after : State

/-- Run a command that is an `Act`. -/
def runAct (cmd : Nat) (d : Desc) (pre : List (Bool × Nat)) (act : State → Act) (s : State) : State :=
  runCmd cmd d pre (fun s => checked (act s).checks ((act s).after, .done ST_OK) s) s

/-- Whether a register image has a nonzero bit outside the fields of its register. -/
def regRsv (r : Reg) (img : Nat) : Bool :=
  img != (r.fields.foldl (fun m f => m ||| (bits img f.info.hi f.info.lo * 2 ^ f.info.lo)) 0)

/-- Every field of a register written from an image (R337). -/
def State.wImg (s : State) (r : Reg) (u img : Nat) (i : Nat := 0) : State :=
  r.fields.foldl (fun t f => t.w f u (bits img f.info.hi f.info.lo) i) s

/-- The value of a register put together from its stored fields. -/
def State.img (s : State) (r : Reg) (u : Nat) (i : Nat := 0) : Nat :=
  r.fields.foldl (fun m f => m ||| (s.r f u i * 2 ^ f.info.lo)) 0

end Sys2Proof.Machine
end

