-- ==== Sys2Proof/Machine/Phase.lean ====
section
/-! DEFINITION. Phases and times: the phase count of a pitch, the map from phase to edge-clock time, and placed edges
(R11 to R14, R26 to R28, R57). Times are in edge-time units, 524,288 to a core cycle. -/

namespace Sys2Proof.Machine

/-- Phases wrap modulo 2^64 and are compared by their signed modular difference (R12). -/
def phAdd (a b : Nat) : Nat := (a + b) % 2 ^ 64
def phDiff (a b : Nat) : Int := sint 64 (a + 2 ^ 64 - b)

/-- Edge-time units in one core cycle: 8 edge-clock cycles of 2^16 units (R26). -/
abbrev ETU : Nat := 524288

/-- The phase count of the Guyline timeline: the device beat counter and the core cycle within the beat (R13, R14). -/
def State.guyPhase (s : State) : Nat := (s.guy.beat * 65536 + s.guy.sub * 8192) % 2 ^ 64

/-- Whether a pitch follows GREF. -/
def State.isGref (s : State) (p : Nat) : Bool := s.r .PH_SRC_KIND p == 1

/-- The expected period of a followed reference in edge-time units, which is also the map's rate r (R26, R30): 2^46
over the 8.24 frequency. -/
def periodOf (freq : Nat) : Nat := if freq = 0 then 0 else 2 ^ 46 / freq

def State.period (s : State) (p : Nat) : Nat :=
  if s.isGref p then 2 ^ 22 else periodOf (s.r .PH_FREQ_FREQ p)

/-- The phase at which a segment ends and the next one begins: one core cycle at its rate (R27). -/
def MapSeg.endPhi (m : MapSeg) : Nat := unsint 64 ((m.phi : Int) + roundDiv ((ETU : Int) * 65536) m.r)

/-- The map segment that contains a phase: the newest published one that begins at or before it, provided that the
phase lies before the end of the newest segment (R28). -/
def segFor (l : List MapSeg) (phi : Nat) : Option MapSeg :=
  match l.getLast? with
  | none => none
  | some z => if 0 ≤ phDiff phi z.endPhi then none else (l.filter (fun m => 0 ≤ phDiff phi m.phi)).getLast?

/-- The edge-clock time of a phase of a pitch: from the beat edges for a Guyline pitch (R298), through the published map otherwise; none
while its segment is not published (R26, R28, R37). -/
def State.timeOf (s : State) (p phi : Nat) : Option Int :=
  if s.isGref p then some (((s.now * ETU + s.r .GY_BOFF_BEAT_OFF : Nat) : Int) + phDiff phi s.guyPhase * 64)
  else
    match segFor (s.pt p).trk.segs phi with
    | some m => some ((m.t : Nat) + phDiff phi m.phi * (m.r : Nat) / 65536)
    | none => none

/-- The core cycle in which a phase falls. -/
def State.cycleOf (s : State) (p phi : Nat) : Option Nat := (s.timeOf p phi).map (fun t => (t / ((ETU : Nat) : Int)).toNat)

/-- Whether the core cycle of a phase has come. -/
def State.reached (s : State) (p phi : Nat) : Bool :=
  match s.cycleOf p phi with
  | some c => decide (c ≤ s.now)
  | none => false

/-- The tracker's estimate of the phase at a time: the next edge is expected at `pred`, one beat after the last accepted one, and
r edge-time units make a beat (R13, R27). -/
def Tracker.phaseAt (k : Tracker) (r : Nat) (t : Int) : Nat :=
  if r = 0 then k.lastPhase else unsint 64 (((k.lastPhase + 65536 : Nat) : Int) + (t - (k.pred : Int)) * 65536 / (r : Int))

/-- The present phase of a pitch (R11, R13); before its first map segment, the estimate of a locked tracker. -/
def State.phaseNow (s : State) (p : Nat) : Nat :=
  if s.isGref p then s.guyPhase
  else
    match ((s.pt p).trk.segs.filter (fun m => m.t ≤ s.now * ETU)).getLast? with
    | some m => if m.r = 0 then m.phi else phAdd m.phi ((s.now * ETU - m.t) * 65536 / m.r)
    | none =>
      if 2 ≤ s.r .PT_STATUS_TRK p && !(s.pt p).trk.zeroNext then (s.pt p).trk.phaseAt (s.period p) ((s.now * ETU : Nat) : Int)
      else (s.pt p).trk.lastPhase

/-- The calibrated tap table of a signal, nominal where calibration has stored none (R57, R236). -/
def nominalTaps : List Nat := (upTo 96).map (· * 64)
def SigCal.taps (k : SigCal) : List Nat := if k.tab.isEmpty then nominalTaps else k.tab

/-- The applied calibration of a signal of a channel (R236). -/
def State.sigCal (s : State) (c sig : Nat) : SigCal := { off := sint 32 (s.r .CAL_APPLY_OFFSET c sig), tab := (s.ch c).taps.getD sig [] }

/-- The tap nearest to a residue, the lower tap on a tie (R57). -/
def tapFrom (resid : Nat) (best : Nat) (miss : Nat) (i : Nat) : List Nat → Nat × Nat
  | [] => (best, miss)
  | t :: r =>
    let m := if t ≤ resid then resid - t else t - resid
    if m < miss then tapFrom resid i m (i + 1) r else tapFrom resid best miss (i + 1) r
def chooseTap (tab : List Nat) (resid : Nat) : Nat := (tapFrom resid 0 (2 ^ 32) 0 tab).1

/-- A placed edge: its coarse count and phase together, its tap and its placed time (R57). -/
structure Placed where
  cp : Int
  tap : Nat
  time : Int
deriving DecidableEq, Repr

/-- The place of a time on one signal of a channel, with the calibration that its edge took (R57, R241); signals 0 DRV, 1 DEN,
2 CMH, 3 CML. -/
def State.place (s : State) (c sig : Nat) (k : SigCal) (t : Int) : Placed :=
  let t := t + k.off + sint 23 (s.r .CH_SYSOFF_OFFSET c sig)
  let cp := t / 4096
  let resid := (t % 4096).toNat
  let tab := k.taps
  let tap := chooseTap tab resid
  { cp := cp, tap := tap, time := cp * 4096 + (tab.getD tap (64 * tap) : Nat) }

/-- The followed-reference rate limit in edge-time units of one sub-beat's rate: FMAX for a follow-mode pitch, 125 MHz
for a Guyline pitch, as an 8.24 number (R29, R109). -/
def State.rhoMax (s : State) (p : Nat) : Nat := if s.isGref p then 2 ^ 24 else s.r .PH_FMAX_FMAX p

/-- The minimum vector period in sub-beats (R29). -/
def State.pMin (s : State) (p : Nat) : Nat := max 1024 (ceilDiv (1024 * s.rhoMax p) (2 ^ 24))

/-- The period of a timing set; the field value 0 stands for 2^32 (Table CHN-4). -/
def TSet.len (t : TSet) : Nat := if t.period = 0 then 2 ^ 32 else t.period

/-- The valid timing sets of a group. -/
def State.validSets (s : State) (g : Nat) : List TSet := ((s.gp g).tsets.map (·.2)).filter (·.valid)

/-- The shortest period among the leader's valid timing sets, if it has one (R51). -/
def State.pMinLead (s : State) (p : Nat) : Option Nat :=
  match (s.validSets p).map TSet.len with
  | [] => none
  | a :: l => some (l.foldl min a)

/-- The largest offset that a valid set's entries use (R49). -/
def TEntry.used (e : TEntry) : List Nat :=
  [e.d0, e.d1, e.e0, e.s0] ++ (if e.e1en then [e.e1] else []) ++ (if e.smode then [e.s1] else [])
def TSet.maxUsed (t : TSet) : Nat := listMax 0 (((upTo 32).map (fun i => (tget {} t.ents i).used)).flatten)

/-- The phase of a Guyline pitch at a time (R13, R298). -/
def State.grefPhase (s : State) (t : Nat) : Nat :=
  unsint 64 ((s.guyPhase : Int) + ((t : Int) - ((s.now * ETU + s.r .GY_BOFF_BEAT_OFF : Nat) : Int)) / 64)

/-! ## The beat edges (R298, R303) -/

/-- One beat in edge-time units. -/
abbrev BEAT_ETU : Nat := 4194304
def onGuy (f : Guy → Guy) (s : State) : State := { s with guy := f s.guy }

/-- D and RT: the means over the last 16 accepted pegs, rounded to nearest (R303). -/
def meanOf (l : List Int) : Int := if l.isEmpty then 0 else roundDiv (l.foldl (· + ·) 0) l.length
def Guy.dMean (g : Guy) : Int := meanOf (g.pegs.map (·.d))
def Guy.rtMean (g : Guy) : Int := meanOf (g.pegs.map (·.rt))
def Guy.resid (g : Guy) : Int := g.dMean - g.base

/-- GY_RESID and GY_RT follow the means. -/
def showResid (s : State) : State := (s.w .GY_RESID_R 0 (unsint 32 s.guy.resid)).w .GY_RT_RT 0 (unsint 32 s.guy.rtMean)

/-- BEAT_OFF changes by x, and every stored a and d, and a D that TIME.ALIGN has fixed, loses x (R298, R303). Where it wraps, the counter takes the carry so that every
numbered beat edge moves by exactly x (log entry 38). -/
def moveBoff (x : Int) (s : State) : State :=
  let v : Int := s.r .GY_BOFF_BEAT_OFF + x
  let s := s.w .GY_BOFF_BEAT_OFF 0 (v % (BEAT_ETU : Int)).toNat
  showResid (onGuy (fun (g : Guy) => { g with
    beat := unsint 48 ((g.beat : Int) - v / (BEAT_ETU : Int))
    waitA := g.waitA.map (· - x)
    align := g.align.map (fun z => { z with fixed := z.fixed.map (fun f => (f.1 - x, f.2)) })
    pegs := g.pegs.map (fun p => { p with a := p.a - x, d := p.d - x }) }) s)

/-- A SEQ.START accepted in the core cycle of a drift step cancels the step (R307). -/
def cancelDrift (s : State) : State :=
  match s.guy.drift with
  | some (t, x) => if t = s.now then onGuy (fun (g : Guy) => { g with drift := none }) (moveBoff (-x) s) else s
  | none => s

end Sys2Proof.Machine
end

