-- ==== Sys2Proof/Machine/Channel.lean ====
section
/-! DEFINITION. Channels: symbols, serial sources, edges and their placement, strobes and judgements, and park
(R40 to R68). -/

namespace Sys2Proof.Machine

/-! ## Symbols and formats -/

/-- The compare level of the two returns (R41). -/
def levelOf (cmh cml : Bool) : Level :=
  match cmh, cml with
  | false, false => .mid
  | false, true => .low
  | true, false => .high
  | true, true => .illegal

/-- The raw compare state: bit 1 CMH, bit 0 CML (R156). -/
def rawOf (cmh cml : Bool) : Nat := 2 * b2n cmh + b2n cml

def levelOfRaw (r : Nat) : Level := levelOf (r.testBit 1) (r.testBit 0)

/-- The next state of the 32-bit Galois register (R45). -/
def lfsrNext (poly x : Nat) : Nat := if x.testBit 0 then (x >>> 1) ^^^ poly else x >>> 1

/-- The 64-bit circular register rotated right by one (R45). -/
def rotr64 (x : Nat) : Nat := (x >>> 1) + (x % 2) * 2 ^ 63

/-- What a symbol comes to after U and S are resolved: the symbol, its data value, and whether it is unusable. -/
structure Sym where
  code : Nat
  data : Bool := false
  bad : Bool := false
  badS : Bool := false
deriving DecidableEq, Repr

/-- The symbol S: the next bit of the serial source, or X with BAD_SYM where the source is off or reserved (R45). -/
def takeS (s : State) (c : Nat) : Sym × State :=
  let x := s.ch c
  match s.r .CH_CFG_SER_MODE c with
  | 1 => ({ code := 0xD, data := x.lfsr.testBit 0 },
          s.onCh c (fun y => { y with lfsr := lfsrNext (s.r .CH_SER_POLY_POLY c) y.lfsr }))
  | 2 => ({ code := 0xD, data := x.shift.testBit 0 }, s.onCh c (fun y => { y with shift := rotr64 y.shift }))
  | _ => ({ code := 4, badS := true }, s)

/-- A symbol other than U (Table CHN-2); 0xE here is a user-table entry and unusable (R46). -/
def plainSym (s : State) (c code : Nat) : Sym × State :=
  match code with
  | 0 => ({ code := 0, data := false }, s)
  | 1 => ({ code := 1, data := true }, s)
  | 8 => ({ code := 8, data := !(s.ch c).dataMem }, s)
  | 0xA => ({ code := 0xA, data := true }, s)
  | 0xB => ({ code := 0xB, data := false }, s)
  | 0xD => takeS s c
  | 0xE => ({ code := 4, bad := true }, s)
  | 0xF => ({ code := 4, bad := true }, s)
  | n => ({ code := n }, s)

/-- Entry k of the user table (Table CHN-8). -/
def State.uEntry (s : State) (c k : Nat) : Nat :=
  if k < 8 then bits (s.r .CH_UTAB_LO_ENTRY c) (4 * k + 3) (4 * k)
  else bits (s.r .CH_UTAB_HI_ENTRY c) (4 * (k - 8) + 3) (4 * (k - 8))

/-- The symbol of a vector resolved, with U_PTR and the serial source advanced (R45, R46). -/
def resolveSym (s : State) (c code : Nat) : Sym × State :=
  if code == 0xE then
    let k := (s.ch c).uPtr
    let e := s.uEntry c k
    let s := s.onCh c (fun x => { x with uPtr := if k ≥ s.r .CH_CFG_U_LEN c then 0 else k + 1 })
    plainSym s c e
  else plainSym s c code

/-- Symbols that drive: they carry a data value (Table CHN-2). -/
def drives (code : Nat) : Bool := [0, 1, 8, 0xA, 0xB, 0xD].contains code

/-- The DRV edges of a driving symbol as offset, level and order (Table CHN-3, R60). -/
def drvEdges (e : TEntry) (code : Nat) (d : Bool) : List (Nat × Bool × Nat) :=
  if code == 0xA then [(e.d0, true, 1), (e.d1, false, 2)]
  else if code == 0xB then [(e.d0, false, 1), (e.d1, true, 2)]
  else
    match e.fmt with
    | 0 => [(e.d0, d, 1)]
    | 1 => if d then [(e.d0, true, 1)] else [(e.d1, false, 2)]
    | 2 => if d then [(e.d0, true, 1), (e.d1, false, 2)] else [(e.d0, false, 1)]
    | 3 => if d then [(e.d0, true, 1)] else [(e.d0, false, 1), (e.d1, true, 2)]
    | _ => [(0, !d, 0), (e.d0, d, 1), (e.d1, !d, 2)]

/-- The DEN edges of a symbol: drive, hold (K), or off (Table CHN-2). -/
def denEdges (e : TEntry) (code : Nat) : List (Nat × Bool × Nat) :=
  if drives code then (e.e0, true, 0) :: (if e.e1en then [(e.e1, false, 1)] else [])
  else if code == 7 then []
  else [(e.e0, false, 0)]

/-- Whether a channel places edges: not while it serves as a reference, is held by calibration or is parked (R62, R66,
R68). -/
def State.placesEdges (s : State) (c : Nat) : Bool :=
  !s.rb .CH_STATUS_REF_USE c && !s.rb .CH_STATUS_STALE c && !s.rb .CH_STATUS_PARKED c

/-- One vector of one channel: symbol, edges into the queues, data memory, and the strobe to take (R42 to R47, R53).
`ent` is the channel's entry of the applied timing set, none where the set is invalid (R52): such a set names no S0, and the model
takes the raw sample at the vector's start phase (log entry 86). The symbols of a followed reference have no effect beside their
serial source and U_PTR (R68). -/
def vectorChan (p c code vec phi ts : Nat) (ent : Option TEntry) (s : State) : State :=
  let (y, s) := resolveSym s c code
  let y := if s.rb .CH_STATUS_REF_USE c then { code := 4 } else y
  let s := if y.bad || y.badS then s.setF .CH_STATUS_BAD_SYM c else s
  let s := if y.bad && !(s.pt p).badSym then
      event EV_BAD_SYMBOL [(5, p), (10, c), (64, vec)] (s.onPt p (fun x => { x with badSym := true }))
    else s
  let h := s.sigCal c 2
  let l := s.sigCal c 3
  match ent with
  | none =>
    (s.setF .CH_STATUS_BAD_TS c).onCh c (fun x => { x with
      strobes := x.strobes ++ [{ vec := vec, sym := y.code, forced := .fail, ts := ts, s0 := phi, close := phi, calH := h, calL := l }] })
  | some e =>
    let mk := fun (k : SigCal) (q : Nat × Bool × Nat) =>
      ({ phase := phAdd phi q.1, level := q.2.1, vec := vec, ord := q.2.2, cal := k } : Edge)
    let s := if s.placesEdges c then
        s.onCh c (fun x => { x with
          drvQ := x.drvQ ++ (if drives y.code then (drvEdges e y.code y.data).map (mk (s.sigCal c 0)) else [])
          denQ := x.denQ ++ (denEdges e y.code).map (mk (s.sigCal c 1))
          dataMem := if drives y.code then y.data else x.dataMem })
      else s
    s.onCh c (fun x => { x with
      strobes := x.strobes ++ [{ vec := vec, sym := y.code, win := e.smode, forced := if y.bad then .fail else .none,
                                 ts := ts, s0 := phAdd phi e.s0,
                                 close := phAdd phi (if e.smode then e.s1 else e.s0), calH := h, calL := l }] })

/-! ## Edge placement (R57, R59 to R61) -/

def Chan.q (x : Chan) (sig : Sig) : List Edge := match sig with | .drv => x.drvQ | .den => x.denQ
def Chan.setQ (x : Chan) (sig : Sig) (l : List Edge) : Chan :=
  match sig with | .drv => { x with drvQ := l } | .den => { x with denQ := l }
def Chan.setLevel (x : Chan) (sig : Sig) (b : Bool) : Chan :=
  match sig with | .drv => { x with drv := b } | .den => { x with den := b }
def sigNo (sig : Sig) : Nat := match sig with | .drv => 0 | .den => 1

/-- The pending edges of a signal whose place is known, each with its place. -/
def State.placedEdges (s : State) (p c : Nat) (sig : Sig) : List (Edge × Placed) :=
  ((s.ch c).q sig).filterMap (fun e => (s.timeOf p e.phase).map (fun t => (e, s.place c (sigNo sig) e.cal t)))

/-- The earliest of a list of placed edges. -/
def earliest : List (Edge × Placed) → Option (Edge × Placed)
  | [] => none
  | x :: r =>
    match earliest r with
    | none => some x
    | some y => if x.2.time ≤ y.2.time then some x else some y

/-- Whether an edge beats another of the same place: the later vector, then the later order within a vector (R60). -/
def Edge.beats (a b : Edge) : Bool := decide (0 < phDiff a.vec b.vec) || (a.vec == b.vec && b.ord < a.ord)

def winner (e : Edge) (l : List Edge) : Edge := l.foldl (fun w x => if x.beats w then x else w) e

/-- Whether two places lie less than 50 ps apart (R61): 125 ps are 65,536 edge-time units. -/
def tooNear (gap : Int) : Bool := decide (gap * 125 < 50 * 65536)

/-- The earliest placed edge takes effect; edges of the same coarse count, phase and tap clash and the winner sets the
level, and an edge less than 50 ps after the last one clashes too (R59, R60, R61). A channel that a self-calibration holds places none
(R66). -/
def placeEdge (p c : Nat) (sig : Sig) (s : State) : State :=
  let l := s.placedEdges p c sig
  match earliest l with
  | none => s
  | some (e, pl) =>
    if s.now * ETU + ETU ≤ pl.time.toNat || s.rb .CH_STATUS_STALE c then s
    else
      let same := (l.filter (fun y => y.2.cp == pl.cp && y.2.tap == pl.tap)).map (·.1)
      let w := winner e same
      let x := s.ch c
      let last := match sig with | .drv => x.lastDrv | .den => x.lastDen
      let near := match last with
        | some (t, _) => tooNear (pl.time - (t : Nat))
        | none => false
      let n := (same.length - 1) + b2n near
      let s := s.onCh c (fun x =>
        let x := (x.setQ sig ((x.q sig).filter (fun y => !same.contains y))).setLevel sig w.level
        match sig with
        | .drv => { x with lastDrv := some (pl.time.toNat, pl.tap) }
        | .den => { x with lastDen := some (pl.time.toNat, pl.tap) })
      if n = 0 then s else (s.setF .CH_STATUS_EDGE_CLASH c).inc .CH_STATUS_CLASH_CNT c 0 n

/-- The level of DRV at a contact before inversion: 4 core cycles after a park it is 0 (R62). -/
def State.drvLevel (s : State) (c : Nat) : Bool :=
  (s.ch c).drv && !(s.rb .CH_STATUS_PARKED c && (s.ch c).drvLowAt ≤ s.now)

/-- DRV and DEN at the contacts (R40): after the inversion bits, and 0 while a reset holds the outputs (R470). -/
def State.drvPin (s : State) (c : Nat) : Bool := !s.pwr.porstLow && (s.drvLevel c != s.rb .CH_CFG_DRV_INV c)
def State.denPin (s : State) (c : Nat) : Bool := !s.pwr.porstLow && ((s.ch c).den != s.rb .CH_CFG_DEN_INV c)

/-! ## Strobes and judgements (R53 to R56, R156) -/

/-- Whether a level satisfies a symbol. -/
def satisfies (code : Nat) (l : Level) : Bool :=
  match code, l with
  | 2, .low => true
  | 3, .high => true
  | 5, .mid => true
  | 6, .low => true
  | 6, .high => true
  | _, _ => false

def passIf (b : Bool) : Judge := if b then .pass else .fail

/-- The judgement of a sample: the S0 level, the other levels seen in a window, and the last compared level (R42, R54,
R55). -/
def judge (code : Nat) (win : Bool) (l0 : Level) (seen : List Level) (last : Option Level) : Judge :=
  if code == 2 || code == 3 || code == 5 || code == 6 then
    passIf (satisfies code l0 && (!win || seen.all (satisfies code)))
  else if code == 0xC then
    if win then
      passIf ((l0 :: seen).contains .low && (l0 :: seen).contains .high && !(l0 :: seen).contains .illegal)
    else
      match last with
      | none => .none
      | some y => passIf ((l0 == .low || l0 == .high) && l0 != y)
  else .none

/-- Symbols whose S0 sample E compares with (R55). -/
def compares (code : Nat) : Bool := [2, 3, 5, 6, 9, 0xC].contains code

/-- What was noted of an issued vector. -/
def State.vinfo (s : State) (p v : Nat) : VecInfo :=
  match (s.pt p).vecs.find? (fun x => x.vec == v) with
  | some x => x
  | none => { vec := v }

/-- The tag bits known when a result arises: GREF_HOLD, STALE and DRIFT (Table CAP-3, R236, R239); HOLD is decided
later. -/
def State.tagsNow (s : State) (p c v : Nat) : Nat :=
  2 * b2n (s.rb .PT_STATUS_GREF_HOLD p) + 4 * b2n (s.rb .CH_STATUS_STALE c) +
    8 * b2n ((s.vinfo p v).tags != 0 || (s.ch c).calBad || s.rb .CAL_GSTAT_NOSENSE (groupOf c))

/-- Whether a result of a vector with a start phase carries HOLD: the tracker is in HOLDOVER and the phase lies after
the last accepted edge (R33). -/
def State.holdTag (s : State) (p phi : Nat) : Bool :=
  s.r .PT_STATUS_TRK p == 3 && decide (0 < phDiff phi (s.pt p).trk.lastPhase)

/-- A return seen through its inversion bit (R40), and its level at a time. -/
def waveSeen (w : Wave) (inv : Bool) : Wave := { w with first := w.first != inv }
def waveAt (w : Wave) (t : Int) : Bool := w.first != ((w.edges.filter (fun (e : Nat) => decide ((e : Int) ≤ t))).length % 2 == 1)

/-- The times after a sampler's opening at which its return changes within its window. -/
def waveChanges (w : Wave) (from' len : Int) : List Nat :=
  (w.edges.filter (fun (e : Nat) => decide (from' < (e : Int)) && decide ((e : Int) < from' + len))).map (fun (e : Nat) => ((e : Int) - from').toNat)

/-- A number put into a rising list without repeats. -/
def insertUp (n : Nat) : List Nat → List Nat
  | [] => [n]
  | a :: r => if n < a then n :: a :: r else if n = a then a :: r else a :: insertUp n r

/-- The levels of a window and how long each lasts, neighbours of one level joined, from the rising times of change to its end. -/
def levelRuns (lv : Nat → Level) (stop : Nat) : List Nat → List (Level × Nat)
  | [] => []
  | [a] => [(lv a, stop - a)]
  | a :: b :: r =>
    match levelRuns lv stop (b :: r) with
    | (l, n) :: q => if l = lv a then (l, n + (b - a)) :: q else (lv a, b - a) :: (l, n) :: q
    | [] => [(lv a, b - a)]

/-- The window of a strobe (R54): each sampler's return from its own opening on, over the interval that both windows hold. -/
def windowRuns (cmh cml : Wave) (h l len : Int) : List (Level × Nat) :=
  let cuts := (waveChanges cmh h len ++ waveChanges cml l len).foldl (fun r n => insertUp n r) [0]
  levelRuns (fun u => levelOf (waveAt cmh (h + (u : Int))) (waveAt cml (l + (u : Int)))) len.toNat cuts

/-- Whether a level lasts at least 20 ps (R54). -/
def lasts20 (n : Nat) : Bool := 20 * 65536 ≤ n * 125

/-- Where a strobe's phase falls for the CMH and the CML sampler, each with its own calibration and system offset (R54, R57,
R241); none while its map segment is not published. -/
def State.strobeAt (s : State) (p c : Nat) (z : Strobe) (phi : Nat) : Option (Int × Int) :=
  (s.timeOf p phi).map (fun t => ((s.place c 2 z.calH t).time, (s.place c 3 z.calL t).time))

/-- Take the oldest strobe of a channel from its two returns: judge it and send it on its way (R53, R54, R118). The strobe's core
cycle is that in which the later of its samplers has taken it. -/
def takeStrobe (p c : Nat) (cmh cml : Wave) (s : State) : State :=
  match (s.ch c).strobes with
  | [] => s
  | z :: rest =>
    match s.strobeAt p c z z.s0, s.strobeAt p c z z.close with
    | some (h0, l0), some (h1, l1) =>
      let cc := (max h1 l1 / (ETU : Int)).toNat
      if s.now < cc then s
      else
        let parked := s.rb .CH_STATUS_PARKED c
        let cmh := waveSeen cmh (s.rb .CH_CFG_CMH_INV c)
        let cml := waveSeen cml (s.rb .CH_CFG_CML_INV c)
        let hi := !parked && waveAt cmh h0
        let lo := !parked && waveAt cml l0
        let lev := levelOf hi lo
        let lv := if parked || !z.win then []
          else ((windowRuns cmh cml h0 l0 (min (h1 - h0) (l1 - l0))).filter (fun y => lasts20 y.2)).map (·.1)
        let mute := s.rb .CH_CFG_CMP_MASK c || s.rb .CH_STATUS_REF_USE c || parked
        let j := if mute then .none
          else if z.forced == .fail then .fail
          else judge z.sym z.win lev lv (s.ch c).lastCmp
        let s := if lev == .illegal || lv.contains .illegal then s.setF .CH_STATUS_ILLEGAL_CMP c else s
        let n : Judged := { vec := z.vec, raw := rawOf hi lo, judge := j, cSym := z.sym == 9, win := z.win, ts := z.ts,
                            tags := s.tagsNow p c z.vec, resolveAt := cc + 14 + s.r .PT_RESP_RESP_LAT p }
        s.onCh c (fun x => { x with
          strobes := rest
          judged := x.judged ++ [n]
          lastCmp := if compares z.sym then some lev else x.lastCmp })
    | _, _ => s

/-! ## Park (R62 to R64) -/

/-- One channel enters park: pending edges are discarded, DEN falls now and DRV 4 ns later; a parked channel keeps its
cause but for the lowest of the causes that arrive in one core cycle (R62). -/
def parkChan (cause c : Nat) (s : State) : State :=
  if s.rb .CH_STATUS_PARKED c then
    if (s.ch c).parkAt == some s.now && cause < s.r .CH_STATUS_PARK_CAUSE c then s.w .CH_STATUS_PARK_CAUSE c cause else s
  else
    let s := (s.setF .CH_STATUS_PARKED c).w .CH_STATUS_PARK_CAUSE c cause
    s.onCh c (fun x => { x with den := false, drvLowAt := s.now + 4, drvQ := [], denQ := [], parkAt := some s.now })

/-- One channel leaves park at the start of its pitch (R64). -/
def unparkChan (c : Nat) (s : State) : State :=
  let x := s.drvLevel c
  ((s.w .CH_STATUS_PARKED c 0).w .CH_STATUS_PARK_CAUSE c 0).onCh c (fun y => { y with drv := x, parkAt := none })

/-- At a start: data memory 0, serial sources reloaded, U_PTR 0, park left, and no earlier level for E (R43, R45,
R55, R64). -/
def startChan (c : Nat) (s : State) : State :=
  let parked := s.rb .CH_STATUS_PARKED c
  let s := if parked then unparkChan c s else s
  s.onCh c (fun x => { x with
    dataMem := false, uPtr := 0, lfsr := s.r .CH_SER_SEED_SEED c
    shift := s.r .CH_SER_SH_LO_SHIFT c + 2 ^ 32 * s.r .CH_SER_SH_HI_SHIFT c
    strobes := [], judged := [], resolved := [], lastCmp := none })

end Sys2Proof.Machine
end

