-- ==== Sys2Proof/Machine/SeqOps.lean ====
section
/-! DEFINITION. Segment entries, flow instructions, conditions and their latches, flags and counters, and the predicted
path (R107 to R125, R482). -/

namespace Sys2Proof.Machine

/-! ## Segment entries (Table SEQ-1) and flow instructions (Table SEQ-6) -/

/-- Bytes of VCM at which a register with 64-byte units points. -/
abbrev u64 (x : Nat) : Nat := 64 * x

/-- Entry k of a pitch's segment table in VCM, as a 256-bit number. -/
def State.segVcm (s : State) (p k : Nat) : Nat := s.loadN 0 (u64 (s.r .SQ_TBL_BASE_BASE p) + 32 * k) 32

/-- Entry k as the sequencer reads it (R113): the window's copy where the window pins it, and otherwise the entry as the window fetches
it along the path (log entry 88). -/
def State.seg (s : State) (p k : Nat) : Nat := (tget none (s.pt p).win k).getD (s.segVcm p k)

def segBlock (e : Nat) : Nat := bits e 39 0
def segVoff (e : Nat) : Nat := bits e 45 40
def segLen (e : Nat) : Nat := bits e 79 48
def segRepeat (e : Nat) : Nat := bits e 111 80
def segAction (e : Nat) : Nat := bits e 113 112
def segCsrc (e : Nat) : Nat := bits e 117 114
def segCsel (e : Nat) : Nat := bits e 123 118
def segTarget (e : Nat) : Nat := bits e 147 128
def segMark (e : Nat) : Nat := bits e 155 152
def segMmode (e : Nat) : Nat := bits e 157 156
def segQuiet (e : Nat) : Bool := bit e 158
def segTso (e : Nat) : Bool := bit e 159
def segResident (e : Nat) : Bool := bit e 160
def segFlow (e : Nat) : Bool := bit e 161
def segTs (e : Nat) : Nat := bits e 171 164
def segFlowPc (e : Nat) : Nat := bits e 181 172
def segMat (e : Nat) : Nat := bits e 223 192
def segStream (e : Nat) : Bool := bit e 39

/-- The reserved bits of an entry. -/
def segRsv (e : Nat) : Bool :=
  bits e 47 46 != 0 || bits e 127 124 != 0 || bits e 151 148 != 0 || bits e 163 162 != 0 || bits e 191 182 != 0 ||
    bits e 255 224 != 0

/-- The last block address that a pass of an entry names (R108). -/
def segLastBlock (e : Nat) : Nat := segBlock e + (segVoff e + segLen e - 1) / 64

abbrev ANEXT : Nat := 0
abbrev AJUMP : Nat := 1
abbrev ACJUMP : Nat := 2
abbrev ASTOP : Nat := 3

abbrev C_FAIL : Nat := 1
abbrev C_MATCH : Nat := 2
abbrev C_FLAG : Nat := 3
abbrev C_COUNTER : Nat := 4
abbrev C_XTRIG : Nat := 5

/-- Whether a selector is in the range of its source (Table SEQ-4). -/
def cselOk (src sel : Nat) : Bool :=
  match src with
  | 0 => sel == 0
  | 1 => sel < 8
  | 2 => sel < 4 || (0x20 ≤ sel && sel < 0x40)
  | 3 => sel < 16
  | 4 => sel < 4
  | 5 => sel < 8
  | _ => false

def finOp (i : Nat) : Nat := bits i 2 0
def finEnd (i : Nat) : Bool := bit i 3
def finSeg (i : Nat) : Nat := bits i 23 4
def finCsrc (i : Nat) : Nat := bits i 27 24
def finCsel (i : Nat) : Nat := bits i 33 28
def finRsv (i : Nat) : Nat := bits i 35 34
def finCount (i : Nat) : Nat := bits i 63 36

/-- Whether a flow instruction keeps Table SEQ-6 and the load-time rules of Table SEQ-7. -/
def finOk (i : Nat) : Bool :=
  let plain := finCsrc i == 0 && finCsel i == 0 && finCount i == 0
  finRsv i == 0 &&
  (match finOp i with
    | 0 => if finEnd i then plain
           else cselOk (finCsrc i) (finCsel i) && !(finCount i == 0 && finCsrc i == 0)
    | 1 => !finEnd i && plain
    | 2 => !finEnd i && plain
    | 3 => !finEnd i && finCsrc i != 0 && cselOk (finCsrc i) (finCsel i)
    | 4 => !finEnd i && finCsel i < 16 && finSeg i == 0 && finCsrc i == 0 && finCount i < 2
    | _ => false)

/-! ## Condition latches (R116, R117) -/

/-- Set a latch that is still clear. -/
def setLatch (cc : Nat) (l : Option Nat) : Option Nat := match l with | none => some cc | some x => some x

/-- The entry playing, its index and its pass: those that ISSUE handed to the issue stage, and otherwise those of the visible
position. -/
def State.cur (s : State) (p : Nat) : Nat :=
  match (s.pt p).issued with | some i => i.entry | none => s.seg p (s.r .PT_POS_SEG p)
def State.curSeg (s : State) (p : Nat) : Nat := match (s.pt p).issued with | some i => i.idx | none => s.r .PT_POS_SEG p
def State.curPass (s : State) (p : Nat) : Nat := match (s.pt p).issued with | some i => i.pass | none => s.r .PT_PASS_PASS p

/-- The condition that the CJUMP latch waits for: the one that ARMC gave it, and otherwise that of the CJUMP segment playing. -/
def State.jumpCond (s : State) (p : Nat) : Option (Nat × Nat) :=
  match (s.pt p).cjump with
  | some c => some c
  | none => if segAction (s.cur p) == ACJUMP then some (segCsrc (s.cur p), segCsel (s.cur p)) else none

/-- An event of a source at a core cycle sets the latch of every construct in force that waits for it: the playing
CJUMP segment (outside a WAIT), the loop frames and the WAIT (R117). -/
def latchEvent (p src sel cc : Nat) (s : State) : State :=
  let q := s.jumpCond p
  s.onPt p (fun x => { x with
    latch := if x.waiting.isNone && q == some (src, sel) then setLatch cc x.latch else x.latch
    loops := x.loops.map (fun f => if f.csrc == src && f.csel == sel then { f with latch := setLatch cc f.latch } else f)
    waiting := x.waiting.map (fun w => if w.csrc == src && w.csel == sel then { w with latch := setLatch cc w.latch } else w) })

/-- An event of a MATCH or XTRIG source. A construct that begins at a boundary of this core cycle takes it as well, and keeps note of it
for that (R117, R119). -/
def condEvent (p src sel cc : Nat) (s : State) : State :=
  let s := onCyc (fun c => { c with conds := c.conds ++ [(p, src, sel, cc)] }) s
  if s.pstate p == RUNNING then latchEvent p src sel cc s else s

/-- The events of the present core cycle for constructs that have begun at core cycle b. -/
def latchNow (p b : Nat) (s : State) : State :=
  s.cyc.conds.foldl (fun t x => if x.1 = p && b ≤ x.2.2.2 then latchEvent p x.2.1 x.2.2.1 x.2.2.2 t else t) s

/-- Whether bus line n is asserted in the present core cycle (R172). -/
def State.lineOn (s : State) (n : Nat) : Bool :=
  s.rb .TB_SRC_EN 0 n && (tget [] s.lines n).any (fun q => q.1 ≤ s.now && s.now < q.2)

/-- The sources that hold as a level now: flags at 1, counters at 0, asserted lines (R116, R117). -/
def State.levelHolds (s : State) (p src sel : Nat) : Bool :=
  match src with
  | 3 => (s.r .PT_FLAGS_FLAG p).testBit sel
  | 4 => s.r .PT_CNT_COUNT p sel == 0
  | 2 => 0x20 ≤ sel && s.lineOn (sel - 0x20)
  | _ => false

/-- A level source occurs in every core cycle in which it holds: latch those in force at a core cycle (R117). -/
def latchLevels (p cc : Nat) (s : State) : State :=
  let q := s.jumpCond p
  s.onPt p (fun x => { x with
    latch := if x.waiting.isNone && q.any (fun c => s.levelHolds p c.1 c.2) then setLatch cc x.latch else x.latch
    loops := x.loops.map (fun f => if s.levelHolds p f.csrc f.csel then { f with latch := setLatch cc f.latch } else f)
    waiting := x.waiting.map (fun w => if s.levelHolds p w.csrc w.csel then { w with latch := setLatch cc w.latch } else w) })

/-- Latch the level sources of every running pitch in the present core cycle. -/
def latchAll (s : State) : State :=
  forAll (upTo 32) (fun p t => if t.pstate p == RUNNING then latchLevels p t.now t else t) s

/-- A set latch counts at a boundary of core cycle B when its event lies at B − 24 or earlier (R117). -/
def counts (l : Option Nat) (b : Nat) : Bool := match l with | some e => decide (e + 24 ≤ b) | none => false

/-! ## Flags and counters (R121) -/

/-- Set and clear flags of a pitch; a set wins over every clear of its core cycle (R121). -/
def setFlags (p set clr : Nat) (s : State) : State :=
  let f := s.r .PT_FLAGS_FLAG p
  let sets := tget 0 s.cyc.flags p ||| set
  let s := onCyc (fun c => { c with flags := tset 0 c.flags p sets }) s
  let s := s.w .PT_FLAGS_FLAG p (((f - (f &&& clr)) ||| sets) % 65536)
  if s.pstate p == RUNNING then latchLevels p s.now s else s

/-- Load a counter; the events of its core cycle apply to the loaded value (R121). -/
def loadCounter (p n v : Nat) (s : State) : State :=
  let s := s.w .PT_CNT_COUNT p (v - tget 0 s.cyc.events (4 * p + n)) n
  if s.pstate p == RUNNING then latchLevels p s.now s else s

/-- Counters that count an event (kind and selector) decrement by one and stop at 0, while their pitch runs or is
stopping (R121). -/
def countEvent (p evt sel : Nat) (s : State) : State :=
  if s.pstate p == RUNNING || s.pstate p == STOPPING then
    let s := forAll (upTo 4) (fun n t =>
      if t.r .PT_CNT_CFG_EVT p n == evt && t.r .PT_CNT_CFG_SEL p n == sel then
        onCyc (fun c => { c with events := tset 0 c.events (4 * p + n) (tget 0 c.events (4 * p + n) + 1) })
          (t.w .PT_CNT_COUNT p (t.r .PT_CNT_COUNT p n - 1) n) else t) s
    latchLevels p s.now s
  else s

/-! ## Stops (R133, R134) -/

/-- A stop fixes the last vector: STOPPING with its cause (R133). -/
def fixStop (p cause : Nat) (s : State) : State :=
  let s := onCyc (fun c => { c with fixed := p :: c.fixed }) ((s.w .PT_RUN_STATE p STOPPING).w .PT_RUN_STOP_CAUSE p cause)
  s.onPt p (fun x => { x with stops := [], needFlow := false })

/-- Plan a stop (R134): the earlier instant, and at one instant the cause higher in Table SEQ-10, is chosen when it
falls due. -/
def planStop (p : Nat) (q : StopPlan) (s : State) : State := s.onPt p (fun x => { x with stops := x.stops ++ [q] })

/-- Whether a planned stop is due at a boundary, or at a vector start, of core cycle b, where vector v is the next. -/
def StopPlan.dueAt (q : StopPlan) (boundary : Bool) (b v : Nat) : Bool :=
  match q.when' with
  | .number n => decide (n ≤ v)
  | .vector c => decide (c ≤ b)
  | .boundary c => boundary && decide (c ≤ b)

/-- The recorded cause among the stops due: the highest in Table SEQ-10, which is the lowest code (R134). -/
def Pitch.dueStop (x : Pitch) (boundary : Bool) (b : Nat) : Option Nat :=
  match (x.stops.filter (fun q => q.dueAt boundary b x.vec)).map (·.cause) with
  | [] => none
  | a :: l => some (l.foldl min a)

/-! ## The flow program (R123, R124) -/

def State.progLen (s : State) (p : Nat) : Nat := (s.pt p).prog.length

/-! ## The predicted path (R482) -/

/-- A place on a path: a pass of a segment with the passes left after it, in table mode; the loop frames (segment,
passes left) and call frames of the path; and the flow address after a WAIT pass. -/
structure PathPos where
  seg : Nat
  left : Nat
  loops : List (Nat × Nat × Nat) := []
  calls : List Nat := []
  waitIp : Option Nat := none
deriving DecidableEq, Repr

/-- The next entry that plays from an index: entries with REPEAT 0 are skipped (R115). -/
def State.skipZero (s : State) (p : Nat) : Nat → Nat → Nat
  | 0, k => k
  | n + 1, k => if segRepeat (s.seg p k) = 0 then s.skipZero p n (k + 1) else k

/-- Begin a segment on the path. -/
def State.pathEnter (s : State) (p k : Nat) (loops : List (Nat × Nat × Nat)) (calls : List Nat) : PathPos :=
  let k := s.skipZero p 17 k
  { seg := k, left := segRepeat (s.seg p k) - 1, loops := loops, calls := calls }

/-- Run flow instructions from an address until a pass plays; the path ends where the sequencer would stop (R482). -/
def State.pathFlow (s : State) (p : Nat) : Nat → Nat → List (Nat × Nat × Nat) → List Nat → Option PathPos
  | 0, _, _, _ => none
  | n + 1, ip, loops, calls =>
    match (s.pt p).prog[ip]? with
    | none => none
    | some i =>
      match finOp i with
      | 0 =>
        if finEnd i then
          match loops with
          | [] => none
          | (sg, left, ip0) :: r =>
            if left ≤ 1 then s.pathFlow p n (ip + 1) r calls
            else some (s.pathEnter p sg ((sg, left - 1, ip0) :: r) calls)
        else if loops.length ≥ 16 then none
        else some (s.pathEnter p (finSeg i) ((finSeg i, max 1 (finCount i), ip) :: loops) calls)
      | 1 => if calls.length ≥ 16 then none else some (s.pathEnter p (finSeg i) loops ((ip + 1) :: calls))
      | 2 =>
        match calls with
        | a :: r => s.pathFlow p n a loops r
        | [] => some (s.pathEnter p (finSeg i) loops [])
      | 3 => some { seg := finSeg i, left := 0, loops := loops, calls := calls, waitIp := some (ip + 1) }
      | 4 => s.pathFlow p n (ip + 1) loops calls
      | _ => none

/-- The place after a pass on the predicted path: repeats run out, JUMPs are taken, CJUMPs are not (R482). -/
def State.pathNext (s : State) (p : Nat) (x : PathPos) : Option PathPos :=
  let e := s.seg p x.seg
  match x.waitIp with
  | some ip => s.pathFlow p 7 ip x.loops x.calls
  | none =>
    if 0 < x.left then some { x with left := x.left - 1 }
    else if segFlow e then s.pathFlow p 8 (segFlowPc e) x.loops x.calls
    else if segAction e == AJUMP then some (s.pathEnter p (segTarget e) x.loops x.calls)
    else if segAction e == ASTOP then none
    else some (s.pathEnter p (x.seg + 1) x.loops x.calls)

/-- The entries that the window pins: jump targets and the program's segments, each with the 15 that follow (R113). -/
def pinned (tbl : List Nat) (prog : List Nat) : List Nat :=
  let t := (tbl.filter (fun e => segAction e == AJUMP || segAction e == ACJUMP)).map segTarget
  let q := (prog.filter (fun i => finOp i < 4 && !(finOp i == 0 && finEnd i))).map finSeg
  let marks := (t ++ q).eraseDups
  (upTo tbl.length).filter (fun k => marks.any (fun m => m ≤ k && k < m + 16))

/-- The window takes its pinned entries from the table in VCM (R113). -/
def loadWindow (p : Nat) (s : State) : State :=
  let l := pinned ((upTo (s.r .SQ_TBL_LEN_COUNT p)).map (s.segVcm p)) (s.pt p).prog
  s.onPt p (fun x => { x with win := l.foldl (fun t k => tset none t k (some (s.segVcm p k))) [] })

/-! ## Pool pages (R80) -/

/-- Guaranteed pages of the rings (R80). -/
def State.ringPages (s : State) : Nat := ((upTo 48).map (fun r => s.r .SR_CFG_PAGES r)).foldl (· + ·) 0

/-- Pool pages of the divided part that something holds, and that nothing holds (Table VSP-8). -/
def State.poolHeld (s : State) : Nat :=
  ((upTo 32).map (fun g => s.r .PG_USE_HELD g + s.r .PG_USE_BORROWED g + s.r .CU_FILL_USED g)).foldl (· + ·) 0 + s.ringPages
def State.poolFree (s : State) : Nat := 47104 - s.poolHeld

/-- Background work is shed: far prefetch, lane training and soak among it (Table PWR-4). -/
def State.shedding (s : State) : Bool := s.r .THM_STATE_STAGE != 0

end Sys2Proof.Machine
end

