-- ==== Sys2Proof/Machine/Capture.lean ====
section
/-! DEFINITION. Capture units: records, slots and streams, the pattern trigger, acquisitions and their windows
(R156 to R188, R217). -/

namespace Sys2Proof.Machine

/-! ## Records (R161 to R167, R217) -/

/-- The bytes of a record of a unit with its sequence number and tags (Table CAP-2). -/
def CapRec.bytes (x : CapRec) (g seq : Nat) : List Byte :=
  let n := pack [(8, x.kind), (8, x.len), (5, g), (3, 0), (4, x.tags), (4, 0), (32, seq), (64, x.first), (128, x.body)]
  bytesOf 32 n ++ x.data ++ List.replicate (32 * (x.len - 1) - x.data.length) 0#8

/-- The place of a kind among records that end at one vector: MARK, FAIL_LOG, RAW, REDUCE, EDGE_STRIP, OVF, and the WINDOW record after
them (R162, R180). -/
def CapRec.rank (x : CapRec) : Nat :=
  match x.kind with
  | 3 => 0 | 1 => 1 | 2 => 2 | 5 => 3 | 6 => 4 | 4 => 5 | _ => 6

/-- Put a record into its place: the order of the last vector that a record covers, within its acquisition (R162). -/
def insertRec (x : CapRec) : List CapRec → List CapRec
  | [] => [x]
  | y :: r =>
    if y.acq == x.acq && (x.last < y.last || (x.last == y.last && x.rank < y.rank)) then x :: y :: r else y :: insertRec x r

/-- D, the core cycles from evaluation to release (R185). -/
def State.capD (s : State) (p : Nat) : Nat := ceilDiv (4 * s.period p) ETU + 1

/-- PRE_ACT of the open window (R179): samples held before the trigger, or before the newest vector without one. -/
def State.preAct (s : State) (p : Nat) : Nat :=
  let a := (s.pt p).acq
  min a.pre ((a.trig.getD (s.pt p).evalNext) - a.opened.getD 0)

/-- Only records whose last vector lies before this one may be overwritten, where vector n is the newest one evaluated: in WAIT those more
than PRE vectors before it, and after a trigger those before the pre-trigger samples (R179). -/
def State.keepFrom (s : State) (p n : Nat) : Nat :=
  let a := (s.pt p).acq
  match a.trig with | some t => t - s.preAct p | none => n - a.pre

/-- The bytes of a slot (R174). -/
def State.slotSize (s : State) (p g : Nat) : Nat :=
  let w := max 1 (s.pt p).acq.windows
  u64 (s.r .CU_AREA_SIZE_SIZE g) / w / 64 * 64

/-- The VCM byte at which a window's slot of a unit starts (R179). -/
def State.slotBase (s : State) (p g k : Nat) : Nat :=
  u64 (s.r .CU_AREA_BASE_BASE g) + (k % max 1 (s.pt p).acq.windows) * s.slotSize p g

/-- A record of vectors first to last with what its release will need. A MARK record takes its HOLD tag from the trigger vector, every
other one from its last vector. -/
def State.capRec (s : State) (p g : Nat) (x : CapRec) : CapRec :=
  let a := (s.pt p).acq
  let i := s.vinfo p (if x.kind = 3 then x.first else x.last)
  { x with
    relAt := s.now + s.capD p, phase := i.phase, cycle := i.cycle, spill := x.spill || s.rb .PC_STATE_MODE p, acq := a.id, win := a.window
    slot := s.slotBase p g a.window, room := (s.slotSize p g - 64) / 32, keep := s.keepFrom p x.last }

/-- Put a record into a unit's buffer. -/
def bufferRec (g : Nat) (x : CapRec) (s : State) : State := cuFill g (s.onCu g (fun u => { u with buf := insertRec x u.buf }))

/-- Place a record in the buffer of a unit, or lose it (R185, R186). The records that close the acquisition have the reserve of 2 pages
(`closing`). -/
def emit (p g : Nat) (x : CapRec) (closing : Bool) (s : State) : State :=
  let s := if !closing && s.cuFull g then overflow p g (s.pt p).evalNext (s.ovfCauseOf g) s else s
  if (s.pt p).acq.ovf then s.onCu g (fun u => { u with lostRec := satAdd 32 u.lostRec 1 })
  else bufferRec g (s.capRec p g x) s

/-- End the RAW record in progress (R164). -/
def flushRaw (p g last : Nat) (spill closing : Bool) (s : State) : State :=
  let u := (s.gp g).cu
  if u.rawData.isEmpty then s
  else
    let m := s.r .CU_RAWMASK_MASK g
    let nch := popCount 32 m
    let nv := u.rawData.length
    let d := pack (u.rawData.map (fun x => (2 * nch, x)))
    let s := emit p g { kind := 2, first := u.rawFirst, last := last, tags := u.rawTags, spill := spill,
                        body := pack [(8, nv), (8, nch), (32, m)], data := bytesOf (ceilDiv (2 * nv * nch) 8) d } closing s
    s.onCu g (fun u => { u with rawData := [], rawTags := 0 })

/-- End the reduction interval in progress (R166). -/
def flushRed (p g last : Nat) (spill closing : Bool) (s : State) : State :=
  let u := (s.gp g).cu
  if u.redN = 0 then s
  else
    let chs := maskBits 32 (s.r .CU_REDMASK_MASK g)
    let ns := chs.map (tget 0 u.redCnt)
    let mx := listMax 0 ns
    let pos := (chs.find? (fun c => tget 0 u.redCnt c == mx)).getD 0
    let s := emit p g { kind := 5, first := u.redFirst, last := last, tags := u.redTags, spill := spill,
                        body := pack [(32, u.redN), (32, listMin 0 ns), (32, mx), (5, pos)] } closing s
    s.onCu g (fun u => { u with redN := 0, redCnt := [], redTags := 0, redFirst := last + 1 })

/-- The 8-byte entry of a strip channel: MIN and MAX, or the values of a channel without an edge (R217). -/
def stripEntry (u : CapUnit) (c : Nat) : Nat :=
  if u.stripSeen.contains c then pack [(32, unsint 32 (tget 0 u.stripMin c)), (32, unsint 32 (tget 0 u.stripMax c))]
  else pack [(32, 0x7FFFFFFF), (32, 0x80000000)]

/-- End the strip interval in progress (R217). -/
def flushStrip (p g last : Nat) (spill closing : Bool) (s : State) : State :=
  let u := (s.gp g).cu
  let m := s.r .ES_MASK_MASK g
  if u.stripN = 0 || m = 0 then s
  else
    let chs := maskBits 32 m
    let s := emit p g { kind := 6, first := u.stripFirst, last := last, tags := u.stripTags, spill := spill,
                        body := pack [(32, u.stripN), (8, chs.length), (24, 0), (32, m), (32, u.stripLost)],
                        data := (chs.map (fun c => bytesOf 8 (stripEntry u c))).flatten } closing s
    s.onCu g (fun u => { u with stripN := 0, stripMin := [], stripMax := [], stripSeen := [], stripLost := 0,
                                stripTags := 0, stripFirst := last + 1 })

/-! ## Slots and streams (R174, R179 to R181, R185, R293) -/

/-- The capacity C_u of a unit in samples for a number of windows, with b_u over a common denominator (R174, R218). -/
def State.capacity (s : State) (g windows : Nat) : Nat :=
  let slot := u64 (s.r .CU_AREA_SIZE_SIZE g) / max 1 windows / 64 * 64
  let nch := popCount 32 (s.r .CU_RAWMASK_MASK g)
  let ri := max 1 (s.r .CU_REDINT_VECTORS g)
  let ei := max 1 (s.r .ES_INT_VECTORS g)
  let ns := popCount 32 (s.r .ES_MASK_MASK g)
  let den := 64 * ri * ei
  let num := s.r .CU_CFG_FL g * 32 * den + s.r .CU_CFG_RAW g * (32 + 16 * nch) * ri * ei +
    s.r .CU_CFG_RED g * 32 * 64 * ei + s.r .CU_CFG_STRIP g * (32 * (1 + ceilDiv ns 4)) * 64 * ri
  if num = 0 then 2 ^ 41 else (slot - 2112) * den / num

/-- The units of the slot's ring that a record takes: the offset of a PAD before a wrap, where there is one, and the record's own. -/
def CapRec.place (x : CapRec) (off : Nat) : Option Nat × Nat :=
  if x.room < off + x.len then (if off < x.room then some off else none, 0) else (none, off)

/-- Write a record to its slot's ring, with a PAD record before a wrap (R162, R179). -/
def toSlot (g : Nat) (x : CapRec) (s : State) : State :=
  let base := x.slot + 64
  let s := match (x.place (s.gp g).cu.off).1 with
    | some o =>
      let pad := { kind := 7, first := x.first, last := x.last, data := List.replicate (32 * (x.room - o - 1)) 0#8 : CapRec }
      (nrtStore (base + 32 * o) (pad.bytes g (s.gp g).cu.seq) s).onCu g (fun u => { u with seq := (u.seq + 1) % 2 ^ 32 })
    | none => s
  let u := (s.gp g).cu
  let o := (x.place u.off).2
  let s := nrtStore (base + 32 * o) (x.bytes g u.seq) s
  s.onCu g (fun u => { u with
    slotRecs := u.slotRecs.filter (fun q => q.1 + q.2.1 ≤ o || o + x.len ≤ q.1) ++ [(o, x.len, x.last)]
    off := o + x.len, seq := (u.seq + 1) % 2 ^ 32 })

/-- The WINDOW record as it leaves (Table CAP-10): FIRST and END by the ring's records, and its item takes the final tags (R180, R356). -/
def toWindow (g : Nat) (x : CapRec) (s : State) : State :=
  let u := (s.gp g).cu
  let first := match u.slotRecs.find? (fun q => x.keep ≤ q.2.2) with | some q => q.1 | none => u.off
  let s := nrtStore x.slot (bytesOf 64 (x.body + 2 ^ 24 * x.tags + 2 ^ 384 * first + 2 ^ 416 * u.off)) s
  let final := fun (y : Item) => if y.id = x.item then { y with payload := x.tags } else y
  { s with disp := { s.disp with items := s.disp.items.map final, refused := s.disp.refused.map final } }

/-- Whether a record finds room now: in the VCM write queues (R246), and in its slot without a record that must stay (R179). The records of
an acquisition that goes on move the bound with its newest vector. -/
def State.slotTakes (s : State) (p g : Nat) (x : CapRec) : Bool :=
  let u := (s.gp g).cu
  let base := x.slot + 64
  if x.kind = 8 then s.nrtRoom (granules x.slot 64)
  else
    let (pad, o) := x.place u.off
    let a := (s.pt p).acq
    let keep := if a.id = x.acq && a.window = x.win && a.opened.isSome then s.keepFrom p ((s.pt p).evalNext - 1) else x.keep
    x.len ≤ x.room && u.slotRecs.all (fun q => q.1 + q.2.1 ≤ o || o + x.len ≤ q.1 || q.2.2 < keep) &&
      s.nrtRoom ((match pad with | some q => granules (base + 32 * q) (32 * (x.room - q)) | none => []) ++
        granules (base + 32 * o) (32 * x.len))

/-- The bytes of a PAD record that stand before a record of n bytes at the end of a DEEP ring (R162). -/
def State.ringPad (s : State) (g n : Nat) : Nat :=
  let size := max 1 (4096 * s.r .CU_DRING_SIZE_PAGES g)
  let rest := size - s.r .CU_SHEAD_HEAD g % size
  if rest < n then rest else 0

/-- Whether a unit's stream destination takes a record of n bytes now (R187, R293). -/
def State.streamTakes (s : State) (g n : Nat) : Bool :=
  match s.r .CU_DEST_KIND g with
  | 1 =>
    let q := s.r .CU_DEST_PORT g
    (s.r .LK_STATE_STATE q == PUP || s.r .LK_STATE_STATE q == PIDLE) && (s.lp q).txq.isEmpty &&
      (s.lp q).canSend { h := { ttype := 5, len := 64 } }
  | 2 => s.r .CU_SHEAD_HEAD g + s.ringPad g n + n ≤ s.r .CU_STAIL_TAIL g + 4096 * s.r .CU_DRING_SIZE_PAGES g
  | _ => false

/-- Send stream bytes as CAPSTREAM messages of up to 256 bytes, each with its byte offset (R293). -/
def capstream (g q : Nat) : Nat → List Byte → State → State
  | 0, _, s => s
  | n + 1, b, s =>
    if b.isEmpty then s
    else
      let part := b.take 256
      let at' := (s.gp g).cu.sent
      let s := s.send q { h := { ttype := 5, len := ceilDiv part.length 4, mcode := 0x200, group := g, addr := at' }, data := part }
      capstream g q n (b.drop 256) (s.onCu g (fun u => { u with sent := at' + part.length }))

/-- Write a record to the stream destination, with a PAD record before a DEEP ring's end (R162). -/
def toStream (g : Nat) (x : CapRec) (s : State) : State :=
  let u := (s.gp g).cu
  match s.r .CU_DEST_KIND g with
  | 1 =>
    let b := x.bytes g u.seq
    let s := capstream g (s.r .CU_DEST_PORT g) (1 + b.length / 256) b s
    s.onCu g (fun u => { u with seq := (u.seq + 1) % 2 ^ 32 })
  | 2 =>
    let sp := 1 + s.r .CU_DEST_PORT g % 2
    let base := s.r .CU_DRING_BASE_BASE g
    let size := max 1 (4096 * s.r .CU_DRING_SIZE_PAGES g)
    let h := s.r .CU_SHEAD_HEAD g
    let rest := s.ringPad g (32 * x.len)
    let s :=
      if rest = 0 then s
      else
        let pad := { kind := 7, first := x.first, last := x.last, data := List.replicate (rest - 32) 0#8 : CapRec }
        ((s.store sp (base + h % size) (pad.bytes g u.seq)).w .CU_SHEAD_HEAD g (h + rest)).onCu g
          (fun u => { u with seq := (u.seq + 1) % 2 ^ 32 })
    let h := s.r .CU_SHEAD_HEAD g
    let s := s.store sp (base + h % size) (x.bytes g (s.gp g).cu.seq)
    (s.w .CU_SHEAD_HEAD g (h + 32 * x.len)).onCu g (fun u => { u with seq := (u.seq + 1) % 2 ^ 32 })
  | _ => s

/-- The first record of an acquisition has number 0, and the first of a window finds its slot empty (R161, R179, R182). -/
def turnRing (g : Nat) (x : CapRec) (s : State) : State :=
  s.onCu g (fun u =>
    let u := if u.relAcq = x.acq then u else { u with seq := 0 }
    if u.relAcq = x.acq && u.relWin = x.win then u else { u with relAcq := x.acq, relWin := x.win, off := 0, slotRecs := [] })

/-- Release the records of a unit that are due, in order; a refusing stream, or a slot without room, holds its records and those after
them back (R185, R246). Their tags are final by then (R33). -/
def releaseRecs (p g : Nat) : Nat → State → State
  | 0, s => s
  | n + 1, s =>
    match (s.gp g).cu.buf with
    | [] => s
    | x :: rest =>
      if s.now < x.relAt then s
      else
        let s := turnRing g x s
        if x.spill && !s.streamTakes g (32 * x.len) then s.onCu g (fun u => { u with streamBlocked := true })
        else if !x.spill && !s.slotTakes p g x then s
        else
          let s := if x.spill then (toStream g x s).onCu g (fun u => { u with streamBlocked := false })
            else if x.kind = 8 then toWindow g x s else toSlot g x s
          releaseRecs p g n (cuFill g (s.onCu g (fun u => { u with buf := rest })))

def release (p g : Nat) (s : State) : State := releaseRecs p g (s.gp g).cu.buf.length s

/-! ## The pattern trigger (R168 to R172) -/

/-- The resolved judgement of vector v of a channel, if it has one. -/
def State.judgedOf (s : State) (c v : Nat) : Option Judged := (s.ch c).resolved.find? (fun j => j.vec == v)

/-- Whether the word of a stage holds on vector v (R168). -/
def State.wordHolds (s : State) (p st v : Nat) : Bool :=
  let view := s.r .TR_STG_VIEW p st
  (s.members p).all (fun g => (maskBits 32 (s.r .TR_CARE_CARE g st)).all (fun i =>
    let raw := match s.judgedOf (32 * g + i) v with | some j => j.raw | none => 0
    (if view = 0 then raw.testBit 1 else raw.testBit 0) == (s.r .TR_VAL_VAL g st).testBit i))

/-- The match of a stage (R168). -/
def State.stageMatch (s : State) (p st v : Nat) : Bool :=
  let line := s.lineOn (s.r .TR_STG_LINE p st)
  match s.r .TR_STG_COMB p st with
  | 0 => s.wordHolds p st v
  | 1 => s.wordHolds p st v && line
  | 2 => s.wordHolds p st v || line
  | _ => line

/-- A completion in core cycle c among the spans of a line, each from its first core cycle to the one after its last: c + 2 through
c + 1 + WIDTH, and within a span that stands the later end (R172). -/
def addSpan (c width : Nat) (l : List (Nat × Nat)) : List (Nat × Nat) :=
  if l.any (fun q => q.1 ≤ c && c < q.2) then l.map (fun q => if q.1 ≤ c && c < q.2 then (q.1, max q.2 (c + 2 + width)) else q)
  else l ++ [(c + 2, c + 2 + width)]

/-- A completed stage asserts the bus lines that it sources (R172). -/
def assertLines (p st : Nat) (s : State) : State :=
  forAll (upTo 32) (fun n t =>
    if t.rb .TB_SRC_EN 0 n && t.r .TB_SRC_PITCH 0 n == p && t.r .TB_SRC_STAGE 0 n == st then
      { t with lines := tset [] t.lines n (addSpan t.now (t.r .TB_SRC_WIDTH 0 n) (tget [] t.lines n)) }
    else t) s

/-- A stage that has not completed by its TIMEOUT-th vector sends the trigger back to stage 1 (R169). -/
def trigTimeout (p : Nat) (s : State) : State :=
  let n := s.r .TR_TMO_TIMEOUT p (s.r .TR_STATE_STAGE p)
  if n != 0 && n ≤ (s.pt p).trig.vecs then
    ((s.w .TR_STATE_STAGE p 0).inc .TR_STATE_TMO_CNT p).onPt p (fun y => { y with trig := { y.trig with count := 0, vecs := 0 } })
  else s

/-- The pattern trigger takes vector v, after a timeout that has become due: a stage completes or goes on; the last stage
fires (R169, R170). The second component says whether the trigger fired. -/
def triggerVec (p v : Nat) (s : State) : State × Bool :=
  if !s.rb .TR_CTL_EN p then (s, false)
  else
    let s := trigTimeout p s
    let st := s.r .TR_STATE_STAGE p
    let x := (s.pt p).trig
    let m := s.stageMatch p st v
    let cnt := if m then x.count + 1 else if s.rb .TR_STG_QUAL p st then x.count else 0
    if m && s.r .TR_STG_COUNT p st ≤ cnt then
      let s := assertLines p st (condEvent p C_MATCH st s.now s)
      let fires := st == s.r .TR_CTL_NSTAGE p
      let s := s.w .TR_STATE_STAGE p (if fires then 0 else st + 1)
      let s := s.onPt p (fun y => { y with trig := { y.trig with count := 0, vecs := 0 } })
      if fires then (s.inc .TR_FIRE_FIRE_CNT p, true) else (s, false)
    else (s.onPt p (fun y => { y with trig := { y.trig with count := cnt, vecs := x.vecs + 1 } }), false)

/-! ## Acquisitions (R175 to R188) -/

abbrev AOFF : Nat := 0
abbrev AWAIT : Nat := 1
abbrev APOST : Nat := 2
abbrev AHOLD : Nat := 3
abbrev ADONE : Nat := 4

def State.astate (s : State) (p : Nat) : Nat := s.r .PC_STATE_ASTATE p
def State.setA (s : State) (p a : Nat) : State := s.w .PC_STATE_ASTATE p a
def State.onAcq (s : State) (p : Nat) (f : Acq → Acq) : State := s.onPt p (fun x => { x with acq := f x.acq })
def State.acq (s : State) (p : Nat) : Acq := (s.pt p).acq
def State.streaming (s : State) (p : Nat) : Bool := s.rb .PC_STATE_MODE p

/-- The records and intervals in progress of the member units start anew at an opening (R166, R177, R217). -/
def openUnits (p v : Nat) (s : State) : State :=
  forAll (s.members p) (fun g t => t.onCu g (fun u => { u with
    rawData := [], rawTags := 0, redFirst := v, redN := 0, redCnt := [], redTags := 0
    stripFirst := v, stripN := 0, stripMin := [], stripMax := [], stripSeen := [], stripLost := 0, stripTags := 0
    spilled := 0 })) s

/-- Open the acquisition at vector v when its open point has come and ARMQ is met (R177); the second component says
whether it opened. -/
def tryOpen (p v : Nat) (s : State) : State × Bool :=
  let a := s.acq p
  let mark := match a.armq with | none => true | some b => (s.vinfo p v).marks.testBit b
  if s.astate p == AWAIT && a.opened.isNone && !a.ovf && (a.atStart || a.openFrom ≤ s.now) && mark then
    (openUnits p v (s.onAcq p (fun a => { a with opened := some v, openVec := some v, atStart := false, reopen := false })), true)
  else if a.reopen && mark then (s.onAcq p (fun a => { a with reopen := false, openVec := some v }), true)
  else (s, false)

/-- Re-arm: 32 core cycles after the later of the hold-off's end and the window's close (R182). -/
def tryRearm (p : Nat) (s : State) : State :=
  let a := s.acq p
  let from' := match a.holdDone, (if s.streaming p then some 0 else a.closedAt) with
    | some h, some c => some (max h c + 32)
    | _, _ => none
  match from' with
  | some c =>
    if s.astate p == AHOLD && !a.ovf && c ≤ s.now then
      (s.setA p AWAIT).onAcq p (fun a => { a with
        opened := if s.streaming p then a.opened else none
        reopen := s.streaming p
        openFrom := c, trig := none, holdDone := none, closedAt := none, missedHold := 0, endAt := none })
    else s
  | none => s

/-- The failing positions, raw states, C positions and tags of a group at vector v. -/
structure GrpRes where
  fails : Nat := 0
  raws : Tab Nat := []
  cs : Nat := 0
  tags : Nat := 0
  ts : Nat := 0
deriving DecidableEq, Repr

def State.grpRes (s : State) (g v : Nat) : GrpRes :=
  (upTo 32).foldl (fun x i =>
    match s.judgedOf (32 * g + i) v with
    | none => x
    | some j => { fails := x.fails + (if j.judge == .fail then 2 ^ i else 0), raws := tset 0 x.raws i j.raw
                  cs := x.cs + (if j.cSym then 2 ^ i else 0), tags := x.tags ||| j.tags, ts := j.ts }) {}

/-- The tags of a group's results of vector v, as far as they are known when it is evaluated (Table CAP-3). -/
def State.vecTags (s : State) (p g v : Nat) : Nat := (s.grpRes g v).tags ||| b2n (s.holdTag p (s.vinfo p v).phase)

/-- The core cycle in which the hold-off of a trigger taken at vector v expires, where it is known: that of the trigger vector's start,
or of the start of the first vector at least the given number of sub-beats later (R182). -/
def State.holdEnd (s : State) (p v : Nat) : Option Nat :=
  let a := s.acq p
  let i := s.vinfo p v
  match a.hkind with
  | 0 => some i.cycle
  | 1 => ((s.pt p).vecs.find? (fun y => decide (v ≤ y.vec) && decide ((a.hval : Int) ≤ phDiff y.phase i.phase))).map (·.cycle)
  | _ => none

/-- A vector's start may end a TIME hold-off (R182). -/
def holdOff (p : Nat) (s : State) : State :=
  let a := s.acq p
  match a.trig with
  | some t => if a.hkind = 1 && a.holdDone.isNone then s.onAcq p (fun a => { a with holdDone := s.holdEnd p t }) else s
  | none => s

/-- One trigger-source event at vector v (R178, R182): taken in WAIT after the opening, missed in POST and HOLD. -/
def trigEvent (p v : Nat) (s : State) : State :=
  let a := s.acq p
  if a.ovf then s
  else if s.astate p == AWAIT && a.opened.isSome && !a.reopen then
    let phi := (s.vinfo p v).phase
    let s :=
      if s.streaming p then
        forAll (s.members p) (fun g t => emit p g
          { kind := 3, first := v, last := v, tags := t.vecTags p g v
            body := pack [(4, t.r .PC_STATE_TSRC p), (5, a.tidx), (23, 0), (32, a.missedWin), (64, phi)] } false t) s
      else s
    (s.setA p (if s.streaming p then AHOLD else APOST)).onAcq p (fun a => { a with
      trig := some v, trigPhase := phi, missed := a.missedWin, missedWin := 0, missedHold := 0, holdDone := s.holdEnd p v })
  else if s.astate p == APOST || s.astate p == AHOLD then
    let s := s.inc .PC_MISSED_COUNT p
    s.onAcq p (fun a => { a with
      missedWin := satAdd 32 a.missedWin 1, missedHold := a.missedHold + 1
      holdDone := if a.hkind = 2 && a.holdDone.isNone && a.missedHold + 1 = a.hval then some s.now else a.holdDone })
  else s

/-- The trigger-source events at vector v (Table CAP-8), with the edge, soft and bus events consumed. -/
def trigEvents (p v : Nat) (fired openedNow : Bool) (s : State) : Nat × State :=
  let a := s.acq p
  match s.r .PC_STATE_TSRC p with
  | 1 => (b2n fired, s)
  | 2 => (b2n ((s.vinfo p v).marks.testBit a.tidx), s)
  | 3 =>
    let n := ((tget {} s.xtrig a.tidx).visible.filter (fun c => a.xtFrom ≤ c && c ≤ s.now)).length
    (n, s.onAcq p (fun a => { a with xtFrom := s.now + 1 }))
  | 4 =>
    let on := s.lineOn a.tidx
    (b2n (on && !a.busPrev), s.onAcq p (fun a => { a with busPrev := on }))
  | 5 =>
    ((a.softAt.filter (· ≤ s.now)).length, s.onAcq p (fun a => { a with softAt := a.softAt.filter (fun c => !(c ≤ s.now)) }))
  | 6 => (b2n openedNow, s)
  | _ => (0, s)

/-- n events at one vector. -/
def trigTimes (p v : Nat) : Nat → State → State
  | 0, s => s
  | n + 1, s => trigTimes p v n (trigEvent p v s)

/-- With RAWSEL, a vector without a C symbol on a masked channel is skipped, and ends the RAW record before it (R164). -/
def State.rawSkips (s : State) (g v : Nat) : Bool :=
  s.rb .CU_CFG_RAW g && s.rb .CU_CFG_RAWSEL g && ((s.grpRes g v).cs &&& s.r .CU_RAWMASK_MASK g) == 0

/-- A stamp of a strip channel in a vector that starts at a phase reaches its interval's minimum and maximum (R217). -/
def stripTake (phase : Nat) (h : StripHit) (u : CapUnit) : CapUnit :=
  let seen := u.stripSeen.contains h.pos
  let x := min (sint 70 (h.phi + 2 ^ 70 - 64 * phase)) 0x7FFFFFFE
  { u with
    stripMin := tset 0 u.stripMin h.pos (if seen then min (tget 0 u.stripMin h.pos) x else x)
    stripMax := tset 0 u.stripMax h.pos (if seen then max (tget 0 u.stripMax h.pos) x else x)
    stripSeen := if seen then u.stripSeen else u.stripSeen ++ [h.pos]
    stripTags := u.stripTags ||| h.tags }

/-- The stamps in a vector reach the strip interval; those before it lie in no vector of an interval. -/
def stripHits (g : Nat) (i : VecInfo) (s : State) : State :=
  s.onCu g (fun u =>
    let due := u.stripQ.filter (fun h => decide (phDiff (h.phi / 64) i.endPhase < 0))
    (due.filter (fun h => decide (0 ≤ phDiff (h.phi / 64) i.phase))).foldl (fun u h => stripTake i.phase h u)
      { u with stripQ := u.stripQ.filter (fun h => decide (0 ≤ phDiff (h.phi / 64) i.endPhase)) })

/-- The records of a group for vector v of an open acquisition: FAIL_LOG, RAW, REDUCE, EDGE_STRIP (R162 to R166,
R217). -/
def capVec (p g v : Nat) (spill : Bool) (s : State) : State :=
  let i := s.vinfo p v
  let x := s.grpRes g v
  let tags := s.vecTags p g v
  let s := if s.rb .CU_CFG_FL g && x.fails != 0 then
      emit p g { kind := 1, first := v, last := v, tags := tags, spill := spill
                 body := pack [(48, i.phase / 65536), (8, x.ts), (8, 0), (32, x.fails), (20, i.seg)] } false s
    else s
  let m := s.r .CU_RAWMASK_MASK g
  let s :=
    if !s.rb .CU_CFG_RAW g then s
    else if s.rawSkips g v then flushRaw p g (v - 1) spill false s
    else
      let d := pack ((maskBits 32 m).map (fun c => (2, tget 0 x.raws c)))
      let s := s.onCu g (fun u => { u with
        rawFirst := if u.rawData.isEmpty then v else u.rawFirst
        rawData := u.rawData ++ [d], rawTags := u.rawTags ||| tags })
      if 64 ≤ (s.gp g).cu.rawData.length then flushRaw p g v spill false s else s
  let s :=
    if s.rb .CU_CFG_RED g then
      let s := s.onCu g (fun u => { u with
        redN := u.redN + 1, redTags := u.redTags ||| tags
        redCnt := (maskBits 32 (x.fails &&& s.r .CU_REDMASK_MASK g)).foldl (fun t c => tset 0 t c (tget 0 t c + 1)) u.redCnt })
      if s.r .CU_REDINT_VECTORS g ≤ (s.gp g).cu.redN then flushRed p g v spill false s else s
    else s
  if s.rb .CU_CFG_STRIP g then
    let s := stripHits g i (s.onCu g (fun u => { u with stripN := u.stripN + 1, stripTags := u.stripTags ||| tags }))
    if s.r .ES_INT_VECTORS g ≤ (s.gp g).cu.stripN then flushStrip p g v spill false s else s
  else s

/-- The records in progress end with a window, an acquisition or a run (R164, R166, R217). -/
def flushAll (p v : Nat) (closing : Bool) (s : State) : State :=
  forAll (s.members p) (fun g t =>
    let sp := decide (0 < (t.gp g).cu.spilled)
    flushStrip p g v sp closing (flushRed p g v sp closing (flushRaw p g v sp closing t))) s

/-- Post samples that a unit's slot holds before it spills (R181). -/
def State.spillAfter (s : State) (p g : Nat) : Nat := s.capacity g (s.acq p).windows - s.preAct p

/-- The first spilled sample of a unit: the records in progress end in the slot, and the MARK record of the trigger stands before what is
spilled, with the window number (R181). -/
def spillMark (p g v tv : Nat) (s : State) : State :=
  let a := s.acq p
  let s := flushStrip p g (v - 1) false false (flushRed p g (v - 1) false false (flushRaw p g (v - 1) false false s))
  (emit p g { kind := 3, first := tv, last := v, tags := s.vecTags p g tv, spill := true
              body := pack [(4, 7), (5, a.window % 32), (23, 0), (32, a.window % 65536), (64, a.trigPhase)] } false s).setF .CU_STATUS_SPILLED g

/-- The records of every member unit for vector v, spilled ones after the MARK record of the spill (R181, R183). -/
def capPitch (p v : Nat) (s : State) : State :=
  let a := s.acq p
  forAll (s.members p) (fun g t =>
    match a.trig with
    | some tv =>
      if a.spill && !t.streaming p && decide (t.spillAfter p g ≤ v - tv) then
        let t := if (t.gp g).cu.spilled = 0 then spillMark p g v tv t else t
        capVec p g v true (t.onCu g (fun u => { u with spilled := u.spilled + 1 }))
      else capVec p g v false t
    | none => capVec p g v false t) s

/-- The tags of a unit's vectors from a vector on (Table CAP-10, R161). -/
def State.tagsFrom (s : State) (g v : Nat) : Nat :=
  maskOf ((upTo 4).filter (fun b => v < tget 0 (s.gp g).cu.newest b))

/-- The first vector of the open window: that of its pre-trigger samples, or the last PRE vectors without a trigger (R179, R180). -/
def State.winFrom (s : State) (p : Nat) : Nat := ((s.acq p).trig.getD (s.pt p).evalNext) - s.preAct p

/-- The WINDOW record of a unit (Table CAP-10) takes its place behind the window's records, with its CAP_WINDOW item, held until it is
written (R180, R356). FIRST, END and TAGS are those of its release. -/
def windowRec (p g flags : Nat) (s : State) : State :=
  let a := s.acq p
  let u := (s.gp g).cu
  let nPost := match a.trig with | some t => min a.post ((s.pt p).evalNext - t) | none => 0
  let fl := flags + b2n a.trig.isSome + (if 0 < u.spilled then 8 else 0)
  let body := pack [(8, 8), (8, 2), (5, g), (3, 0), (4, 0), (4, 0), (16, a.window), (8, fl), (8, s.r .PC_STATE_TSRC p),
    (64, match a.trig with | some t => t | none => 2 ^ 64 - 1), (64, if a.trig.isSome then a.trigPhase else 0),
    (40, s.preAct p), (24, 0), (40, nPost), (24, 0), (40, u.spilled), (24, 0), (32, 0), (32, 0),
    (32, if a.trig.isSome then a.missed else a.missedWin), (32, 0)]
  let tags := if a.endAt.isSome then u.winTags else s.tagsFrom g (s.winFrom p)
  let x := s.capRec p g { kind := 8, first := 0, last := (s.pt p).evalNext, tags := tags, body := body, data := List.replicate 32 0#8 }
  let x := { x with relAt := max s.now ((s.pt p).evalAt + s.capD p), spill := false, keep := s.winFrom p, item := s.disp.nextId }
  post 0 g 2 p tags true (bufferRec g x s)

/-- An OVF record of a unit at the end of an acquisition that overflowed, in the reserve (R186). -/
def ovfRec (p g : Nat) (s : State) : State :=
  let a := s.acq p
  let u := (s.gp g).cu
  let x := s.capRec p g { kind := 4, first := a.ovfVec, last := (s.pt p).evalNext, spill := decide (0 < u.spilled)
                          body := pack [(40, u.lostVec), (24, 0), (32, u.lostRec), (8, a.ovfCause)] }
  let s := (s.setF .CU_STATUS_OVF g).w .CU_STATUS_OVF_CAUSE g a.ovfCause
  (bufferRec g x s).onCu g (fun u => { u with lostVec := 0, lostRec := 0 })

/-- Close the open window: the WINDOW records and the count (R180). -/
def closeWindow (p flags : Nat) (s : State) : State :=
  let s := forAll (s.members p) (fun g t => windowRec p g flags t) s
  let s := s.w .PC_STATE_WINDONE p (s.r .PC_STATE_WINDONE p + 1)
  s.onAcq p (fun a => { a with window := a.window + 1, closedAt := some s.now })

/-- End the acquisition now (a pitch stop, CAP.DISARM, or the end of an overflowed one): the records in progress, OVF records, the open
window with its flags, and DONE (R180, R183, R184, R186). The records leave as R185 lets them. -/
def endAcq (p flags : Nat) (s : State) : State :=
  let a := s.acq p
  let s := if a.opened.isSome then flushAll p ((s.pt p).evalNext - 1) true s else s
  let s := if a.ovf then forAll (s.members p) (ovfRec p) s else s
  let fl := (if s.astate p == AWAIT && flags != 32 then 0 else flags) + (if a.ovf then 4 else 0)
  let s := if a.opened.isSome && (s.astate p == AWAIT || s.astate p == APOST) && !s.streaming p then closeWindow p fl s else s
  forAll (s.members p) (release p)
    ((s.setA p ADONE).onAcq p (fun a => { a with opened := none, trig := none, ovf := false, disarmAt := none, softAt := [], endAt := none }))

/-- Whether every record of the open window has been released in every unit. -/
def State.windowOut (s : State) (p : Nat) : Bool :=
  (s.members p).all (fun g => (s.gp g).cu.buf.all (fun x => x.acq != (s.acq p).id))

/-- After the records of the last post vector are released in every unit, the window closes (R179, R180). -/
def tryClose (p : Nat) (s : State) : State :=
  let a := s.acq p
  match a.endAt with
  | none => s
  | some e =>
    if s.astate p == APOST && e + s.capD p ≤ s.now && s.windowOut p then
      if a.ovf then endAcq p 0 s
      else
        let s := forAll (s.members p) (release p) (closeWindow p 0 s)
        if a.windows ≤ a.window + 1 then
          event EV_CAP_DONE [(5, p), (16, s.r .PC_STATE_WINDONE p)]
            ((s.setA p ADONE).onAcq p (fun a => { a with opened := none, trig := none, endAt := none }))
        else (s.setA p AHOLD).onAcq p (fun a => { a with endAt := none })
    else s

/-- What an acquisition does with vector v: triggers, and the records of the vector with the end of the post part, or its count as a lost
one (R178, R179, R186). -/
def takeVec (p v : Nat) (fired openedNow : Bool) (s : State) : State :=
  let (n, s) := trigEvents p v fired openedNow s
  let s := trigTimes p v n s
  let a := s.acq p
  let live := s.astate p == AWAIT || s.astate p == APOST || (s.streaming p && s.astate p == AHOLD)
  let inPost := match a.trig with | some t => s.streaming p || decide (v < t + a.post) | none => true
  if a.opened.isSome && live && inPost then
    let s := if a.ovf then forAll (s.members p) (fun g t => t.onCu g (fun u => { u with lostVec := u.lostVec + 1 })) s else s
    let s := capPitch p v s
    if s.astate p == APOST && (a.trig.any (fun t => v + 1 == t + a.post)) then flushAll p v false s else s
  else s

/-- The last post vector has been evaluated: the window's tags are those of its vectors, and it closes once they are released. -/
def endPost (p v : Nat) (s : State) : State :=
  let a := s.acq p
  if s.astate p == APOST && a.trig.any (fun t => v + 1 == t + a.post) then
    let from' := (a.trig.getD 0) - s.preAct p
    (forAll (s.members p) (fun g t => t.onCu g (fun u => { u with winTags := t.tagsFrom g from' })) s).onAcq p (fun a => { a with
      endAt := some s.now })
  else s

/-- The acquisition takes vector v in its evaluation cycle: re-arm, opening, and the vector itself; where that overflows, every unit
loses the vector whole (R176 to R186). -/
def acqVec (p v : Nat) (fired : Bool) (s : State) : State :=
  let s := (tryOpen p v (tryRearm p s)).1
  let openedNow := (s.acq p).openVec == some v
  let t := takeVec p v fired openedNow s
  let t := if (t.acq p).ovf && !(s.acq p).ovf then
      takeVec p v fired openedNow (overflow p (t.acq p).ovfUnit v (t.acq p).ovfCause s)
    else t
  endPost p v t

end Sys2Proof.Machine
end

