-- ==== Sys2Proof/Machine/Log.lean ====
section
/-! DEFINITION. The measured-boot log (R391) and the event codes of the SEC, REC, THM and TWIN families (Tables TRU-14,
PWR-7 and REC-10). -/

namespace Sys2Proof.Machine

abbrev EV_SEC_KEY_ROLL : Nat := 0x0D01
abbrev EV_SEC_KEY_LOW : Nat := 0x0D02
abbrev EV_SEC_SIGN_FAIL : Nat := 0x0D03
abbrev EV_SEC_DEBUG : Nat := 0x0D04
abbrev EV_SEC_OWNER : Nat := 0x0D05
abbrev EV_SEC_LOG_FULL : Nat := 0x0D06
abbrev EV_SEC_RING_FULL : Nat := 0x0D07

/-- The kinds of log entries (Table TRU-8). -/
abbrev MK_STAGE1 : Nat := 1
abbrev MK_MP_FW : Nat := 2
abbrev MK_FC_FW : Nat := 3
abbrev MK_UC_PATCH : Nat := 4
abbrev MK_PRIMER : Nat := 5
abbrev MK_BASE : Nat := 6
abbrev MK_SKIM : Nat := 7
abbrev MK_CAL_SET : Nat := 8
abbrev MK_FLOW_PROG : Nat := 9
abbrev MK_OWNER_KEY : Nat := 0xA
abbrev MK_DEBUG : Nat := 0xB
abbrev MK_ROOT_REVOKE : Nat := 0xC

/-- Enter a digest in the measured-boot log: the entry of Table TRU-8, the head L_k = SHAKE256(L_(k−1) ‖ entry), and the
count; beyond 16,384 entries nothing more is stored and LOG_FULL is set (R391). -/
def measure (mkind aux id digest : Nat) (s : State) : State :=
  let k := s.r .SEC_LOG_COUNT + 1
  let e := pack [(32, k), (8, mkind), (8, aux), (16, 0), (32, id), (32, 0), (64, s.clk.ns), (16, s.clk.epoch), (48, 0), (256, digest)]
  let head := Config.shake256 (bytesOf 32 s.sec.logHead ++ bytesOf 64 e) % 2 ^ 256
  let full := 16384 < k
  let s := { s.w .SEC_LOG_COUNT 0 k with
    sec := { s.sec with logHead := head, log := if full then s.sec.log else s.sec.log ++ [e] } }
  if full && !s.rb .SEC_STATE_LOG_FULL then event EV_SEC_LOG_FULL [(32, k)] (s.setF .SEC_STATE_LOG_FULL) else s

/-! ## The identity record (Table MBX-7) -/

/-- The device identity. -/
def State.devId (s : State) : Nat := s.r .SYS_DEVID_LO_ID + 2 ^ 32 * s.r .SYS_DEVID_HI_ID

/-- The identity record of R339. -/
def State.identity (s : State) : Nat :=
  pack [(16, 0x1024), (8, 0x21), (4, s.r .UC_LOAD_LSTAT), (4, 0), (16, 0x0302), (16, 0x0302), (16, s.r .SQ_PATCH_RELEASE), (64, s.devId),
    (32, s.pwr.groupFail), (5, 31 - s.r .CAL_MAP_VALID), (1, b2n s.vcmDown), (7, if s.vcmDown then s.vcm.failPort else 0), (3, 0),
    (32, s.r .SYS_UNITS_G_G_EN), (12, s.r .SYS_UNITS_P_P_EN), (2, s.r .SYS_UNITS_P_X_EN), (1, s.r .SYS_STATE_UNITS_PEND), (17, 0),
    (32, s.mbox.baseId), (6, s.mbox.skims.length)]

/-! ## Signature blocks (R377, R384) -/

/-- The bytes of a signature under a parameter set (Table TRU-2). -/
def sigLen (oid : Nat) : Nat := match oid with | 0x10 => 2500 | 0x11 => 2692 | 0x12 => 2820 | _ => 0

/-- The bytes of a signature block whose 16-byte header spells n. -/
def blockLen (n : Nat) : Nat := 16 * ceilDiv (84 + bits n 31 16) 16

/-- The fields of a signature block: its header, the signer's key and the signature. -/
def sigHdr (b : List Byte) : Nat := ofBytes (b.take 16)
def sigKey (b : List Byte) : List Byte := (b.drop 16).take 68
def sigOf (b : List Byte) : List Byte := (b.drop 84).take (bits (sigHdr b) 31 16)

/-- The SHAKE256 hash of a block's public key. -/
def keyHash (b : List Byte) : Nat := Config.shake256 (sigKey b) % 2 ^ 256

/-- Whether a signature block keeps its form: FORMAT 7, a known parameter set with its length, zeros elsewhere, and its whole
length present. -/
def blockForm (b : List Byte) : Bool :=
  let n := sigHdr b
  bits n 15 0 == 7 && bits n 127 64 == 0 && sigLen (bits n 63 32) != 0 && bits n 31 16 == sigLen (bits n 63 32) &&
    blockLen n ≤ b.length && ((b.take (blockLen n)).drop (84 + bits n 31 16)).all (· == 0#8)

/-- Whether a signature block of a key with a given hash signs a message. -/
def blockSigns (hash : Nat) (msg b : List Byte) : Bool :=
  blockForm b && keyHash b == hash && Config.xmssOk (ofBytes (sigKey b)) (ofBytes msg) (sigOf b)

/-- The message that a coat or a flow program signs: its FORMAT as 8 bytes, then its digest. -/
def imageMsg (fmt digest : Nat) : List Byte := bytesOf 8 fmt ++ bytesOf 32 digest

/-- Whether an image fails the owner's signature (R394); none is asked while no owner is enrolled. -/
def State.ownerFails (s : State) (fmt digest : Nat) (b : List Byte) : Bool :=
  s.rb .SEC_STATE_OWNER && !blockSigns s.sec.ownerHash (imageMsg fmt digest) b

/-! ## Signed packages (R379, R380, R383) -/

/-- The fields of a package header: the whole length, release, minimum release and the MFG bit (Table TRU-3). -/
def pkgLen (h : Nat) : Nat := 128 + bits h 159 128 + 16 + 68 + 2820
def pkgHdr (p : List Byte) : Nat := ofBytes (p.take 128)
def pkgRelease (p : List Byte) : Nat := bits (pkgHdr p) 47 32
def pkgMinrel (p : List Byte) : Nat := bits (pkgHdr p) 63 48
def pkgMfg (p : List Byte) : Bool := bit (pkgHdr p) 25

/-- The hash of a vendor root slot, and whether a slot is revoked. -/
def State.rootHash (s : State) (k : Nat) : Nat := if k = 0 then s.sec.rootHash0 else s.sec.rootHash1
def State.revoked (s : State) (k : Nat) : Bool := (s.r .SEC_STATE_REVOKED).testBit k

/-- The BSTAT code of a package of a type: the first failing line of Table TRU-4 after line 1, or 0. -/
def State.pkgFails (s : State) (ptype : Nat) (p : List Byte) : Nat :=
  let h := pkgHdr p
  let n := p.length - 2888
  let key := (p.drop n).take 68
  let slot := bits h 24 24
  if bits h 15 0 != 8 || bits h 23 16 != ptype || bits h 31 28 != 0 || bits h 127 72 != 0 || bits h 1023 576 != 0 ||
      pkgLen h != p.length then 2
  else if Config.shake256 key % 2 ^ 256 != s.rootHash slot || s.revoked slot then 3
  else if !Config.xmssOk (ofBytes key) (ofBytes (p.take (n + 68))) (p.drop (n + 68)) then 4
  else if bits h 71 64 != 0x21 then 6
  else if pkgRelease p < s.sec.minrel.getD (ptype - 1) 0 then 5
  else if (Config.openImage s.sec.kekFw p).isNone then 7
  else 0

/-- The plaintext of a package that passed. -/
def State.plain (s : State) (p : List Byte) : List Byte := (Config.openImage s.sec.kekFw p).getD []

end Sys2Proof.Machine
end

