-- ==== Sys2Proof/Machine/Calib.lean ====
section
/-! DEFINITION. Calibration: targets from the stored points, full updates and QUIET steps, drift, self-calibration
results, and the CAL commands (R220 to R242). -/

namespace Sys2Proof.Machine

/-! ## Targets (R225, R235, R236) -/

/-- Bin widths: h/64, rounded by largest remainder to the sum 65,536; of equal remainders the lower code rounds up
first (log entry 25). -/
def binWidths (h : List Nat) : List Nat :=
  let fl := h.map (· / 64)
  let need := 65536 - fl.foldl (· + ·) 0
  let rem := h.map (· % 64)
  (upTo h.length).map (fun i =>
    let r := rem.getD i 0
    let ahead := ((upTo h.length).filter (fun j => r < rem.getD j 0 || (rem.getD j 0 == r && j < i))).length
    fl.getD i 0 + b2n (decide (ahead < need)))

/-- BIN[F] = w_0 + … + w_(F−1) + floor(w_F / 2). -/
def binTable (base : Nat) : List Nat → List Nat
  | [] => []
  | w :: r => (base + w / 2) :: binTable (base + w) r

/-- The temperatures of the five points in 1/16 °C. -/
def pointTemp (p : Nat) : Int :=
  match p with | 0 => 240 | 1 => 640 | 2 => 1040 | 3 => 1440 | _ => 1680

/-- The slot of a point and the staging slot (Table CAL-8). -/
def State.slotOf (s : State) (p : Nat) : Nat := bits (s.r .CAL_MAP_SLOT) (3 * p + 2) (3 * p)
def State.pointOk (s : State) (p : Nat) : Bool := (s.r .CAL_MAP_VALID).testBit p
def State.slotSet (s : State) (k : Nat) : CalSet := tget {} s.cal.slots k

/-- The valid points, ascending, with a value of each: an entry that a set does not hold validly is left out. -/
def State.calPts {α : Type} (s : State) (f : CalSet → Option α) : List (Int × α) :=
  (upTo 5).filterMap (fun p => if s.pointOk p then (f (s.slotSet (s.slotOf p))).map (fun v => (pointTemp p, v)) else none)

/-- The line through two points at a temperature, rounded to the nearest unit. -/
def between (t0 v0 t1 v1 t : Int) : Int := v0 + roundDiv ((v1 - v0) * (t - t0)) (t1 - t0).toNat

/-- The value at a temperature from ascending points (R236): interpolation between the two points that enclose it,
extrapolation below the lowest down to 0 °C, and the highest point's value above it. -/
def calAt (dflt : Int) (t : Int) : List (Int × Int) → Int
  | [] => dflt
  | [(_, v)] => v
  | (t0, v0) :: (t1, v1) :: r =>
    if t ≤ t1 then between t0 v0 t1 v1 (max t 0)
    else match r with
      | [] => v1
      | _ => calAt dflt t ((t1, v1) :: r)

/-- The content of a unit as Glaolman writes it at manufacture (R221, R231, log entry 94). -/
def factoryTaps (p n sig : Nat) : List Nat :=
  (upTo 96).map (fun i => ((upTo i).map (fun k => Config.factoryStep p n sig k % 256)).foldl (· + ·) 0)
def factoryUnit (p n : Nat) : CalUnit :=
  let isCh := n < 1024
  { off := if isCh then (upTo 4).map (Config.factoryOffset p n) else [0, 0, 0, 0]
    tdOff := Config.factoryTdOff p n, cmlTrim := if isCh then Config.factoryCmlTrim p n % 96 else 0, fail := 0
    pkg := if isCh then (upTo 4).map (fun i => Config.packageDelay n i % 65536) else [0, 0, 0, 0]
    taps := if isCh then (upTo 4).map (factoryTaps p n) else []
    widths := (upTo 1024).map (fun f => Config.factoryWidth p n f % 256) }

/-- The entries of a set: what it holds, else what its base was written with; a set without a base holds nothing valid. -/
def CalSet.unit (z : CalSet) (n : Nat) : CalUnit :=
  match tget none z.units n, z.base with
  | some u, _ => u
  | none, some p => factoryUnit p n
  | none, none => { fail := if n < 1024 then 15 else 8 }
def CalSet.trim (z : CalSet) (g : Nat) : Option (List Int) :=
  match tget none z.trims g, z.base with
  | some l, _ => some l
  | none, some p => some ((upTo 16).map (fun i => 16 * Config.factoryTrim p g i))
  | none, none => none
def CalSet.gtemp (z : CalSet) (g : Nat) : Int :=
  match tget none z.gtemps g, z.base with
  | some x, _ => x
  | none, some p => Config.factoryTemp p g
  | none, none => 0

/-- A validly stored unit entry; `k` is the FAIL bit of Table CAL-6. -/
def CalSet.unit? (z : CalSet) (n k : Nat) : Option CalUnit := if (z.unit n).fail.testBit k then none else some (z.unit n)

/-- The FAIL bit of a signal: DRV 0, DEN 1, strobes 2. -/
def failBit (sig : Nat) : Nat := min sig 2

def State.offPts (s : State) (c sig : Nat) : List (Int × Int) :=
  s.calPts (fun z => (z.unit? c (failBit sig)).map (fun u => u.off.getD sig 0))
def State.tdPts (s : State) (n : Nat) : List (Int × Int) := s.calPts (fun z => (z.unit? n 3).map (·.tdOff))

/-- The trims of a unit: DRV, DEN, CMH, CML, TD (R233). -/
def State.trimOf (s : State) (n i : Nat) : Int := (tget [] s.cal.trim n).getD i 0

/-- The offset target of a signal without its trim, and with it. -/
def State.offAt (s : State) (c sig : Nat) (t : Int) : Int := calAt 0 t (s.offPts c sig)
def State.tdAt (s : State) (n : Nat) (t : Int) : Int := calAt 0 t (s.tdPts n)

/-- A table target: entry by entry; with no valid point the nominal table, kept as the empty list. -/
def State.tabAt (s : State) (t : Int) (n : Nat) (nominal : Nat → Nat) (f : CalSet → Option (List Nat)) : List Nat :=
  match s.calPts f with
  | [] => []
  | l =>
    if l.all (fun x => x.2.isEmpty) then []
    else (upTo n).map (fun i => (calAt 0 t (l.map (fun x => (x.1, ((x.2.getD i (nominal i) : Nat) : Int))))).toNat)

def State.tapsAt (s : State) (c sig : Nat) (t : Int) : List Nat :=
  s.tabAt t 96 (fun i => 64 * i) (fun z => (z.unit? c (failBit sig)).map (fun u => u.taps.getD sig []))
def State.binsAt (s : State) (n : Nat) (t : Int) : List Nat :=
  s.tabAt t 1024 (fun i => 64 * i + 32) (fun z => (z.unit? n 3).map (fun u => binTable 0 u.widths))
def State.trimsAt (s : State) (g : Nat) (t : Int) : List Int :=
  match s.calPts (fun z => z.trim g) with
  | [] => []
  | l => if l.all (fun x => x.2.isEmpty) then [] else (upTo 16).map (fun i => calAt 0 t (l.map (fun x => (x.1, x.2.getD i 0))))

/-- The working sensors of a group: 3g, 3g + 1 and 3g + 2 (R235). -/
def State.working (s : State) (g : Nat) : List Int :=
  [3 * g, 3 * g + 1, 3 * g + 2].filterMap (fun n =>
    let x := tget {} s.pwr.sensors n
    if x.seen && !x.failed then some x.temp else none)

/-- The temperature of a group: the mean of its working sensors, rounded to the nearest 1/16 °C (log entry 24). -/
def State.groupTemp (s : State) (g : Nat) : Option Int :=
  match s.working g with
  | [] => none
  | l => some (roundDiv (l.foldl (· + ·) 0) l.length)

/-- The group whose temperature a TDC takes: its channel's group, and G(2n) for TDCXn (R235). -/
def tdcGroup (code : Nat) : Nat := if code < 1024 then code / 32 else 2 * (code - 1024)

/-- The TDCs that take a group's temperature. -/
def tdcsOf (g : Nat) : List Nat := chansOf g ++ (if g % 2 = 0 then [1024 + g / 2] else [])

/-- The targets of a channel and of a TDC at a temperature. -/
def retargetChan (t : Int) (c : Nat) (s : State) : State :=
  let x := (upTo 4).map (fun i => s.offAt c i t + s.trimOf c i)
  let y := (upTo 4).map (fun i => s.tapsAt c i t)
  let b := (upTo 4).any (fun i => (s.offPts c i).length < 2)
  s.onCh c (fun z => { z with target := x, tgtTaps := if y.all (·.isEmpty) then [] else y, calBad := b })

def retargetTdc (t : Int) (n : Nat) (s : State) : State :=
  s.onTd n (fun z => { z with tgtOff := s.tdAt n t + s.trimOf n 4, tgtBins := s.binsAt n t, calBad := (s.tdPts n).length < 2 })

/-- A thermal sample gives a group its temperature; without a working sensor it keeps its applied values (R235). -/
def takeTemp (g : Nat) (s : State) : State :=
  match s.groupTemp g with
  | none => s.setF .CAL_GSTAT_NOSENSE g
  | some t => (s.w .CAL_GSTAT_NOSENSE g 0).w .CAL_GTEMP_TEMP g (unsint 16 t)

/-- The targets of a group at its temperature (R236). -/
def retarget (g : Nat) (s : State) : State :=
  let t := sint 16 (s.r .CAL_GTEMP_TEMP g)
  let s := forAll (chansOf g) (retargetChan t) s
  let s := forAll (tdcsOf g) (retargetTdc t) s
  s.onGp g (fun z => { z with tgtTrims := s.trimsAt g t, tgtTemp := t })

/-! ## Applying targets (R237, R238, R240, R241) -/

def State.temp (s : State) (g : Nat) : Int := sint 16 (s.r .CAL_GTEMP_TEMP g)

/-- The system offset of the return that a channel TDC stamps (R241). -/
def State.tdSys (s : State) (n : Nat) : Int :=
  if n < 1024 then sint 23 (s.r .CH_SYSOFF_OFFSET n (if (s.td n).sysSig then 3 else 2)) else 0

/-- TD_OFF of a TDC: the applied calibrated value less the system offset. -/
def tdRefresh (n : Nat) (s : State) : State := s.w .TD_OFF_OFFSET n (unsint 32 ((s.td n).off - s.tdSys n))

/-- Whether a TDC serves an ACTIVE measurement, whose values are frozen (Table CAL-7). -/
def State.tdFrozen (s : State) (n : Nat) : Bool :=
  s.r .TD_STATE_MSTATE n == 2 && (s.r .TD_STATE_USE n == 1 || s.r .TD_STATE_USE n == 2)

/-- Whether a self-calibration holds a TDC, which no tracker has taken (R201, R224). -/
def State.tdInCal (s : State) (n : Nat) : Bool :=
  match s.cal.running with
  | some (m, mx, _, _) => (if n < 1024 then m.testBit n else mx.testBit (n - 1024)) && !s.cal.preempted.contains n
  | none => false

/-- The TDC of a pitch's followed reference, if it has one. -/
def State.refTdc (s : State) (p : Nat) : Option Nat :=
  match s.r .PH_SRC_KIND p with
  | 2 => some (1024 + s.r .PH_SRC_INDEX p)
  | 3 => some (s.r .PH_SRC_INDEX p)
  | _ => none

/-- Whether a TDC serves a phase tracker, or is TDCX00: it moves by steps (Table CAL-7). -/
def State.tdSteps (s : State) (n : Nat) : Bool :=
  n == 1024 || (s.r .TD_STATE_USE n == 3 && (1024 ≤ n || s.rb .CH_STATUS_REF_USE n))

/-- Whether a TDC serves an edge strip: it moves with its pitch (Table CAL-7). -/
def State.tdStrips (s : State) (n : Nat) : Bool := s.r .TD_STATE_USE n == 3 && !s.tdSteps n

def applyTdc (n : Nat) (s : State) : State :=
  tdRefresh n (s.onTd n (fun z => { z with off := z.tgtOff, bins := z.tgtBins, appT := (s.gp (tdcGroup n)).tgtTemp }))

def applyChan (c : Nat) (s : State) : State :=
  let x := s.ch c
  let s := forAll (upTo 4) (fun i t => t.w .CAL_APPLY_OFFSET c (unsint 32 (x.target.getD i 0)) i) s
  s.onCh c (fun z => { z with taps := z.tgtTaps })

/-- The applied point of a group is the temperature of its targets, which its applied values have reached (R239). -/
def setApplied (g : Nat) (s : State) : State :=
  (s.w .CAL_GTEMP_APPLIED_T g (unsint 16 (s.gp g).tgtTemp)).w .CAL_GSTAT_CATCHUP g 0

/-- The targets of a group applied in full (R237). -/
def applyGroup (g : Nat) (s : State) : State :=
  let s := forAll (chansOf g) applyChan s
  setApplied g (s.onGp g (fun z => { z with trims := z.tgtTrims }))

/-- One step of at most 64 units toward a target. -/
def step64 (x t : Int) : Int := if x < t then min t (x + 64) else max t (x - 64)
def stepNat (n : Nat) (nominal : Nat → Nat) (x t : List Nat) : List Nat :=
  if x = t then x
  else
    let r := (upTo n).map (fun i => (step64 (x.getD i (nominal i) : Nat) (t.getD i (nominal i) : Nat)).toNat)
    if t.isEmpty && r == (upTo n).map nominal then [] else r

def stepTdc (n : Nat) (s : State) : State :=
  let t := (s.gp (tdcGroup n)).tgtTemp
  tdRefresh n (s.onTd n (fun z =>
    let x := { z with off := step64 z.off z.tgtOff, bins := stepNat 1024 (fun i => 64 * i + 32) z.bins z.tgtBins }
    if x.off = x.tgtOff && x.bins = x.tgtBins then { x with appT := t } else x))

def stepChan (c : Nat) (s : State) : State :=
  let x := s.ch c
  let s := forAll (upTo 4) (fun i t =>
    t.w .CAL_APPLY_OFFSET c (unsint 32 (step64 (sint 32 (t.r .CAL_APPLY_OFFSET c i)) (x.target.getD i 0))) i) s
  let y := (upTo 4).map (fun i => stepNat 96 (fun k => 64 * k) (x.taps.getD i []) (x.tgtTaps.getD i []))
  s.onCh c (fun z => { z with taps := if y.all (·.isEmpty) then [] else y })

/-- Whether the applied values of a group differ from its targets. -/
def State.behind (s : State) (g : Nat) : Bool :=
  (s.gp g).trims != (s.gp g).tgtTrims ||
  (chansOf g).any (fun c => (s.ch c).taps != (s.ch c).tgtTaps ||
    (upTo 4).any (fun i => sint 32 (s.r .CAL_APPLY_OFFSET c i) != (s.ch c).target.getD i 0))

/-- The applied values of a group against its targets: T_a where they are equal (R239), else CATCHUP (R242). -/
def compareApplied (g : Nat) (s : State) : State := if s.behind g then s.setF .CAL_GSTAT_CATCHUP g else setApplied g s

/-- The QUIET step of one group: every applied value moves by at most 64 units, and T_a follows when all have arrived
(R238, R239). -/
def quietGroup (g : Nat) (s : State) : State :=
  let s := forAll (chansOf g) stepChan s
  let s := s.onGp g (fun z => { z with
    trims := if z.trims = z.tgtTrims then z.trims
      else
        let r := (upTo 16).map (fun i => step64 (z.trims.getD i 0) (z.tgtTrims.getD i 0))
        if z.tgtTrims.isEmpty && r.all (· == 0) then [] else r })
  let s := forAll (chansOf g) (fun c t => if t.tdStrips c then stepTdc c t else t) s
  compareApplied g s

/-- A group's temperature differs from its applied point by more than 2 °C (R239), and the temperature of a stepped TDC from that of the
target it last reached (R240). -/
def State.strays (s : State) (g : Nat) : Bool :=
  decide (32 < (s.temp g - sint 16 (s.r .CAL_GTEMP_APPLIED_T g)).natAbs)
def State.tdStrays (s : State) (n : Nat) : Bool := decide (32 < (s.temp (tdcGroup n) - (s.td n).appT).natAbs)

/-- Whether vectors of a pitch carry DRIFT now: a member group strays, or the TDC of its tracker does (R239, R240). The spec gives a
tracker's TDC no other result than the vectors of the pitches that it times (log entry 95). -/
def State.drifts (s : State) (p : Nat) : Bool :=
  (s.members p).any s.strays || (match s.refTdc p with | some n => s.tdStrays n | none => false)

/-- Follow the excursions of a running pitch's groups (R239). -/
def driftCheck (p : Nat) (s : State) : State :=
  forAll (s.members p) (fun g t =>
    if t.strays g then
      if t.rb .CAL_GSTAT_DRIFT g || t.pstate p != RUNNING then t
      else event EV_CAL_DRIFT [(5, p), (5, g)] (((t.setF .CAL_GSTAT_DRIFT g).setF .CAL_GSTAT_DRIFT_SEEN g).inc .CAL_GSTAT_DRIFT_CNT g)
    else t.w .CAL_GSTAT_DRIFT g 0) s

/-- A QUIET boundary of a pitch (R238). -/
def quietStep (p : Nat) (s : State) : State := driftCheck p (forAll (s.members p) quietGroup s)

/-- A TDC takes the targets of a thermal sample by its use (Table CAL-7); one under self-calibration counts as reserved and takes none
(R224, R237). -/
def sampleTdc (n : Nat) (s : State) : State :=
  if s.tdFrozen n || s.tdInCal n then s
  else if s.tdSteps n then stepTdc n s
  else if s.tdStrips n then (if s.groupIdle (n / 32) then applyTdc n s else s)
  else applyTdc n s

/-- A group in the core cycle after a thermal sample: full update unless its pitch is busy (R237, R238). -/
def sampleGroup (g : Nat) (s : State) : State :=
  if s.rb .CAL_GSTAT_NOSENSE g then s
  else
    let s := forAll (tdcsOf g) sampleTdc (retarget g s)
    if s.groupIdle g then applyGroup g s
    else
      let s := compareApplied g s
      match s.pitchOf g with
      | some p => driftCheck p s
      | none => s

/-- The groups sampled in the core cycle before take their targets (R237). -/
def sampleDue (s : State) : State := forAll s.cal.due sampleGroup { s with cal := { s.cal with due := [] } }

/-- The full update at the acceptance of SEQ.START and at the end of STOPPING (R237). -/
def applyPitch (p : Nat) (s : State) : State :=
  forAll (s.members p) (fun g t =>
    let t := applyGroup g t
    let t := forAll (chansOf g) (fun c u => if u.tdFrozen c || u.tdSteps c || u.tdInCal c then u else applyTdc c u) t
    t.w .CAL_GSTAT_DRIFT g 0) s

/-- The TDC leaves ACTIVE: pending system offsets and targets reach it (R240, R241). -/
def unfreezeTdc (n : Nat) (s : State) : State := applyTdc n s

/-! ## Self-calibration results (R225 to R230) -/

/-- The longest run of zero widths. -/
def zeroRun (best run : Nat) : List Nat → Nat
  | [] => max best run
  | w :: r => if w = 0 then zeroRun best (run + 1) r else zeroRun (max best run) 0 r

/-- An offset within ±262,144 units. -/
def offOk (x : Int) : Bool := decide (x.natAbs ≤ 262144)

/-- The mean of stamps, rounded to the nearest unit, and whether their standard deviation exceeds 1 ps, which is 524.288 units; `k` is the
scale of the times (R230). -/
def tapMean (x : TapStat) : Int := roundDiv x.sum x.n
def tapWide (x : TapStat) (k : Nat := 1) : Bool :=
  decide ((x.n * x.n * (k * k) * 274877906944 : Nat) < (((x.n * x.sq : Nat) : Int) - x.sum * x.sum) * 1000000)

/-- The Table CAL-3 line that a TDC result fails, 0 when it passes. A preempted one fails with line 7 alone (R224). -/
def tdcLine (x : CalRaw) (preempted : Bool) : Nat :=
  if preempted then 7
  else if x.stamps < 4194304 then 1
  else if (binWidths x.hist).any (255 < ·) || 4 < zeroRun 0 0 (binWidths x.hist) then 2
  else if tapWide x.ref then 3
  else if !offOk (x.refNominal - tapMean x.ref) then 5
  else 0

/-- The result of TDCX00's own calibration (R234): its bins and its offset at once, unless a line of Table CAL-3 fails it. -/
def calTdcx00 (x : CalRaw) (s : State) : State :=
  if tdcLine x false != 0 then s
  else
    let b := binTable 0 (binWidths x.hist)
    let v := x.refNominal - tapMean x.ref
    tdRefresh 1024 (s.onTd 1024 (fun z => { z with off := v, tgtOff := v, bins := b, tgtBins := b }))

/-- The centre of a tap of a sampler scan: the DRV edge time at which half of n trials read the new level, by linear interpolation
between the neighbouring settings that enclose it (R228). -/
def scanCentre (n : Nat) : List ScanPoint → Option Int
  | a :: b :: r =>
    if n ≤ 2 * a.hits && 2 * b.hits ≤ n && b.hits < a.hits then
      some (a.t + roundDiv ((b.t - a.t) * ((2 * a.hits : Nat) - (n : Int))) (2 * (a.hits - b.hits)))
    else scanCentre n (b :: r)
  | _ => none

/-- The histogram of a scan: the trials that turn between two settings lie midway between them. Times are doubled. -/
def scanStat : List ScanPoint → TapStat
  | a :: b :: r =>
    let x := scanStat (b :: r)
    let w := a.hits - b.hits
    let m := a.t + b.t
    { n := x.n + w, sum := x.sum + m * w, sq := x.sq + w * m.natAbs * m.natAbs }
  | _ => {}

/-- The measured centres of one signal, with whether one of them is wider than 1 ps (R227, R228, R230). A scan in which a tap has no
centre gives none. -/
structure Centres where
  c : List Int := []
  wide : Bool := false
deriving DecidableEq, Repr
def launched (delay : Int) (l : List TapStat) : Centres := { c := l.map (fun x => tapMean x - delay), wide := l.any (tapWide ·) }
def scanned (n : Nat) (l : List (List ScanPoint)) : Centres :=
  let c := l.map (scanCentre n)
  { c := if c.all (·.isSome) then c.filterMap id else [], wide := l.any (fun x => tapWide (scanStat x) 2) }

/-- The CML receiver trim: the tap that brings the CML path nearest the CMH path, the lowest of equals (R228). -/
def nearestTap (y : Int) : Nat → Nat → Nat → List Int → Nat
  | _, best, _, [] => best
  | i, best, d, a :: r => if (a - y).natAbs < d then nearestTap y (i + 1) i (a - y).natAbs r else nearestTap y (i + 1) best d r
def cmlTrimOf (x : CalRaw) : Nat := nearestTap x.cmhPath 0 0 (2 ^ 64) x.cmlPath

/-- taptab[i] = c_i − c_0, and the offset: the nominal time less c_0, less the package delay (R227). -/
def tapsOf (c : List Int) : List Nat := c.map (fun v => (v - c.getD 0 0).toNat)
def sigOff (x : CalRaw) (c : Centres) (pkg : Nat) : Int := x.nominal - c.c.getD 0 0 - pkg

/-- The Table CAL-3 line that a signal fails. -/
def sigLine (x : CalRaw) (c : Centres) (pkg : Nat) : Nat :=
  if c.wide then 3
  else if (tapsOf c.c).getD 95 0 < 4095 then 4
  else if !offOk (sigOff x c pkg) then 5
  else 0

/-- The package delays of a channel: those of the first valid point that holds them, which every set does (R221). -/
def State.pkgOf (s : State) (c : Nat) : List Nat :=
  match s.calPts (fun z => if (tget none z.units c).isSome || z.base.isSome then some (z.unit c).pkg else none) with
  | [] => [0, 0, 0, 0]
  | x :: _ => x.2

/-- A set in a slot. -/
def putSet (k : Nat) (z : CalSet) (s : State) : State := { s with cal := { s.cal with slots := tset {} s.cal.slots k z } }

/-- One unit's result in staging, with its FAIL bits and the first failing line (R222, R230). An entry that the run did not measure,
or that failed, holds nothing; of a TDCX unit only the TDC entry and FAIL bit 3 are in use (R232). -/
def stageUnit (what : Nat) (pre : List Nat) (x : CalRaw) (s : State) : State × Nat :=
  let n := x.unit
  let isCh := n < 1024
  let pkg := s.pkgOf n
  let c := [launched (Config.loopbackDelay n 0) x.drv, launched (Config.loopbackDelay n 1) x.den, scanned x.trials x.cmh, scanned x.trials x.cml]
  let line := fun (i : Nat) => if isCh && what.testBit (1 + failBit i) then sigLine x (c.getD i {}) (pkg.getD i 0) else 0
  let lt := if what.testBit 0 then tdcLine x (pre.contains n) else 0
  let ld := line 0
  let le := line 1
  let ls := if line 2 != 0 then line 2 else line 3
  let measured := b2n (what.testBit 1 && ld == 0) + 2 * b2n (what.testBit 2 && le == 0) +
    4 * b2n (what.testBit 3 && ls == 0) + 8 * b2n (what.testBit 0 && lt == 0)
  let has := fun (i : Nat) => isCh && measured.testBit (failBit i)
  let td := measured.testBit 3
  let u : CalUnit := {
    off := (upTo 4).map (fun i => if has i then sigOff x (c.getD i {}) (pkg.getD i 0) else 0)
    taps := if isCh then (upTo 4).map (fun i => if has i then tapsOf (c.getD i {}).c else []) else []
    pkg := if isCh then pkg else [0, 0, 0, 0]
    cmlTrim := if isCh && measured.testBit 2 then cmlTrimOf x else 0
    tdOff := if td then x.refNominal - tapMean x.ref else 0, widths := if td then binWidths x.hist else []
    fail := if isCh then 15 - measured else 8 - 8 * b2n td }
  let k := s.r .CAL_MAP_STAGE
  let z := s.slotSet k
  let s := putSet k { z with units := tset none z.units n (some u) } s
  let fails := b2n (ld != 0) + 2 * b2n (le != 0) + 4 * b2n (ls != 0) + 8 * b2n (lt != 0)
  let s := if isCh then s.w .CAL_CHFAIL_FAIL n fails else s
  (s, if lt != 0 then lt else if ld != 0 then ld else if le != 0 then le else ls)

/-- The median of an even number of values: the mean of the middle two (the spec names no other, log entry 72). -/
def insertInt (x : Int) : List Int → List Int
  | [] => [x]
  | y :: r => if x ≤ y then x :: y :: r else y :: insertInt x r
def median (l : List Int) : Int :=
  let v := l.foldl (fun t x => insertInt x t) []
  roundDiv (v.getD ((l.length - 1) / 2) 0 + v.getD (l.length / 2) 0) 2

/-- The phase trims of a group from the medians of its measured phases, in steps of 16 units (R229); line 6 beyond ±127. -/
def stageTrims (x : CalPhase) (s : State) : State × Bool :=
  let t := x.dev.map (fun l => -(roundDiv (median l) 16))
  if t.all (fun v => v.natAbs ≤ 127) then
    let k := s.r .CAL_MAP_STAGE
    let z := s.slotSet k
    (putSet k { z with trims := tset none z.trims x.group (some (t.map (· * 16))) } s, true)
  else (s, false)

/-- The TDCs of a channel mask and a TDCX mask. -/
def tdcsIn (m mx : Nat) : List Nat := chansIn m ++ (maskBits 16 mx).map (1024 + ·)

/-- The groups of a channel mask; and the groups whose temperature a run measures, those of its channels and of its TDCX units (R222,
R235). -/
def chanGroups (m : Nat) : List Nat := (upTo 32).filter (fun g => (chansOf g).any (fun c => m.testBit c))
def groupsIn (m mx : Nat) : List Nat :=
  (upTo 32).filter (fun g => (chansOf g).any (fun c => m.testBit c) || (g % 2 == 0 && mx.testBit (g / 2)))

/-! ## CAL commands (R222, R233, R241) -/

/-- Whether a TDC serves something that CAL.RUN of its bins must not disturb. -/
def State.tdBusy (s : State) (n : Nat) : Bool := s.r .TD_STATE_USE n != 0

/-- A lost edge opens a gap span at the last stamp, unless one is open (R197). -/
def openGap (n : Nat) (s : State) : State :=
  s.onTd n (fun x =>
    match x.gaps.getLast? with
    | some (_, none) => x
    | _ => { x with gaps := x.gaps ++ [(x.last.getD 0, none)] })

/-- A held TDC takes no stamps: the span of the hold is a gap span of its ACTIVE measurement, whose samples carry STALE from then on
(R201). -/
def holdTdc (n : Nat) (s : State) : State :=
  let s := s.onTd n (fun x => { x with hold := some (s.now * ETU) })
  if s.tdFrozen n then s.onMs (s.r .TD_STATE_OWNER n) (fun m => { m with stale := true }) else s

/-- The hold of a TDC ends, and with it its gap span (R201). -/
def freeTdc (n : Nat) (s : State) : State :=
  s.onTd n (fun x => match x.hold with
    | some a => { x with hold := none, gaps := x.gaps ++ [(a, some (s.now * ETU))] }
    | none => x)

/-- The checks of CAL.RUN (Table CAL-2). -/
def calRunChecks (d : Desc) (s : State) : List (Bool × Nat) :=
  let m := s.chanMask d d.a0
  let what := d.a2
  let gs := chanGroups m
  [   (s.r .CAL_RUN_STATE != 0, ST_BUSY),
      (2 ^ 5 ≤ what || 2 ^ 16 ≤ d.a1 || what == 0 || d.a1.testBit 0, ST_RANGE),
      s.rfault d d.a0 128,
      ((m == 0 && d.a1 == 0) ||
        (what.testBit 4 && gs.any (fun g => !(chansOf g).all (fun c => m.testBit c))),
        ST_RANGE),
      (gs.any (fun g => !s.gEn g), ST_STATE),
      (what.testBit 0 && ((chansIn m).any s.tdBusy || (maskBits 16 d.a1).any (fun x => s.tdBusy (1024 + x))), ST_STATE),
      ((d.a3 == 0 && (chansIn m).any (fun c => !s.groupIdle (groupOf c))) ||
        (what.testBit 4 && gs.any (fun g => !s.groupIdle g)), ST_STATE),
      (d.a3 == 1 && 2 ≤ s.r .THM_STATE_STAGE, ST_REFUSED)]

/-- A run begins: its TDCs are held, its channels place no edge and hold their levels, and its holds last until it ends (R66, R222,
R223). -/
def calRunStart (d : Desc) (s : State) : State :=
  let m := s.chanMask d d.a0
  let s := forAll (tdcsIn m d.a1) holdTdc (forAll (chansIn m) (fun c t =>
    (t.setF .CH_STATUS_STALE c).onCh c (fun x => { x with drvQ := [], denQ := [] })) (s.w .CAL_RUN_STATE 0 1))
  { s with cal := { s.cal with running := some (m, d.a1, d.a2, d.a3 == 1) }, jobs := s.jobs ++ [.calRun d] }

/-- CAL.RUN (Table CAL-2). ARG0 the address of the channel mask, ARG1 the TDCX mask, ARG2 WHAT, ARG3 FORCE. -/
def execCalRun (d : Desc) (s : State) : Out := .next <| runCmd 0x0901 d [args d 4, choice 2 d.a3, reachD d d.a0 128]
  (fun s => checked (calRunChecks d s) (calRunStart d s, .later) s) s

/-- Results of several units into staging, with the mask of the failing ones and the first failing line. -/
def stageUnits (what : Nat) (pre : List Nat) : List CalRaw → State → Nat × Nat × Nat → State × (Nat × Nat × Nat)
  | [], s, a => (s, a)
  | x :: r, s, (mask, n, line) =>
    let (s, l) := stageUnit what pre x s
    stageUnits what pre r s (if l = 0 then (mask, n, line) else (mask ||| 2 ^ x.unit, n + 1, if line = 0 then l else line))

/-- Phase trims of several groups into staging, with the groups that failed: a group's bit of the mask of failed units follows those of the
1,040 unit records (log entry 26). -/
def stageAllTrims : List CalPhase → State → Nat × Nat → State × (Nat × Nat)
  | [], s, a => (s, a)
  | x :: r, s, (mask, n) =>
    let (s, ok) := stageTrims x s
    stageAllTrims r s (if ok then (mask, n) else (mask ||| 2 ^ (1040 + x.group), n + 1))

/-- The statistics of a unit; of one that gave none, nothing was stamped. -/
def rawOfUnit (l : List CalRaw) (n : Nat) : CalRaw := (l.find? (fun x => x.unit == n)).getD { unit := n }

/-- A run's results into staging, with the mask of the failed units, how many units and groups failed, and the first
failing line in the order of the units (R222, R223, R231). TEMP is the mean of the groups' temperatures (R232). -/
def calRunStaged (units : List CalRaw) (phases : List CalPhase) (m mx what : Nat) (s : State) : State × Nat × Nat × Nat :=
  let pre := s.cal.preempted
  let k := s.r .CAL_MAP_STAGE
  let gs := groupsIn m mx
  let z : CalSet := { source := 3, temp := roundDiv ((gs.map s.temp).foldl (· + ·) 0) gs.length, epoch := s.clk.epoch, time := s.clk.ns,
                      gtemps := gs.foldl (fun t g => tset none t g (some (s.temp g))) [] }
  let s := putSet k z { s with cal := { s.cal with running := none, preempted := [], stagedUnits := tdcsIn m mx } }
  let (s, mask, n, line) := stageUnits what pre ((tdcsIn m mx).map (rawOfUnit units)) s (0, 0, 0)
  let gl := (chanGroups m).map (fun g => (phases.find? (fun x => x.group == g)).getD { group := g, dev := List.replicate 16 [] })
  let (s, gmask, ng) := if what.testBit 4 then stageAllTrims gl s (0, 0) else (s, 0, 0)
  (forAll (chansIn m) (fun c t => t.w .CH_STATUS_STALE c 0) s, mask ||| gmask, n + ng, if line = 0 && ng != 0 then 6 else line)

/-- A number as a result word, and a free value for one that no 64-bit word can hold (log entry 26). -/
def resultWord (x : Nat) (s : State) : Nat × State := if x < 2 ^ 64 then (x, s) else s.fresh

/-- T_m of the groups of a run, ascending, 16 bits each. -/
def State.runTemps (s : State) (m mx : Nat) : Nat := pack ((groupsIn m mx).map (fun g => (16, s.r .CAL_GTEMP_TEMP g)))

/-- A run is over: the registers show its end and staging holds its set. -/
def calRunEnded (fails : Nat) (s : State) : State :=
  { ((s.w .CAL_RUN_STATE 0 0).w .CAL_RUN_FAILS 0 (min 65535 fails)).setF .CAL_MAP_STAGED with jobs := s.jobs.filter (!·.isCalRun) }

/-- The run ends (R222, R223, R231): staging takes the results of the units that passed, the holds end, and CAL.RUN
completes with T_m of each measured group (16 bits each, ascending), the mask of the failed units and the first failing
line. A value that no 64-bit result word can hold is a free value (log entry 26). -/
def execCalRunDone (units : List CalRaw) (phases : List CalPhase) (s : State) : Out := .next <|
  match s.jobs.find? Job.isCalRun, s.cal.running with
  | some j, some (m, mx, what, _) =>
    let (s, mask, fails, line) := calRunStaged units phases m mx what s
    let s := calRunEnded fails (forAll (tdcsIn m mx) freeTdc s)
    let (v0, s) := resultWord (s.runTemps m mx) s
    let (v1, s) := resultWord mask s
    complete 0x0901 j.desc (if line = 0 then ST_OK else ST_FAULT) false v0 v1 line s
  | _, _ => s

/-- The checks of CAL.COMMIT (R233). -/
def calCommitChecks (d : Desc) (s : State) : List (Bool × Nat) := [
  (s.r .CAL_RUN_STATE != 0, ST_BUSY),
  (!s.rb .CAL_MAP_STAGED, ST_STATE),
  (d.a0 != ALL1 && (s.slotSet (s.r .CAL_MAP_STAGE)).gtemps.any (fun e =>
    match e.2 with | some x => decide (48 < (x - pointTemp d.a0).natAbs) | none => false), ST_RANGE)]

/-- CAL.COMMIT (R233). ARG0 the point 0 to 4, or all ones for TRIM. -/
def execCalCommit (d : Desc) (s : State) : Out := .next <| runCmd 0x0902 d [args d 1, bad (5 ≤ d.a0 && d.a0 != ALL1)]
  (fun s => checked (calCommitChecks d s)
    ({ s.w .CAL_RUN_STATE 0 2 with jobs := s.jobs ++ [.calCommit d (if d.a0 = ALL1 then 7 else d.a0)] }, .later) s) s

/-- A named point's content where the run measured nothing or failed, and measured offsets less the present trims. Of an absent point the
package delays are those of the run (R221). -/
def mergeUnit (s : State) (old : Option CalUnit) (new : CalUnit) (n : Nat) : CalUnit :=
  let ok := fun k => !new.fail.testBit k
  let z := old.getD { fail := 15, pkg := new.pkg }
  { z with
    off := (upTo 4).map (fun i => if ok (failBit i) then new.off.getD i 0 - s.trimOf n i else z.off.getD i 0)
    taps := (upTo 4).map (fun i => if ok (failBit i) then new.taps.getD i [] else z.taps.getD i [])
    cmlTrim := if ok 2 then new.cmlTrim else z.cmlTrim
    tdOff := if ok 3 then new.tdOff - s.trimOf n 4 else z.tdOff
    widths := if ok 3 then new.widths else z.widths
    fail := z.fail &&& new.fail }

def mergeSet (s : State) (p : Nat) : CalSet :=
  let old := s.slotSet (s.slotOf p)
  let st := s.slotSet (s.r .CAL_MAP_STAGE)
  let base : CalSet := if s.pointOk p then old else {}
  { base with
    source := 2, epoch := s.clk.epoch, time := s.clk.ns, temp := st.temp
    units := s.cal.stagedUnits.foldl (fun t n =>
      tset none t n (some (mergeUnit s (if s.pointOk p then some (old.unit n) else none) (st.unit n) n))) base.units
    trims := st.trims.foldl (fun t e => tset none t e.1 e.2) base.trims
    gtemps := st.gtemps.foldl (fun t e => tset none t e.1 e.2) base.gtemps }

/-- The bytes over which a set's DIGEST is taken: its group records, then its unit records (R232, Tables CAL-5, CAL-6). A table that a
set does not hold stands at its nominal widths. -/
def diffs : List Nat → List Nat
  | a :: b :: r => (b - a) :: diffs (b :: r)
  | _ => []
def unitBytes (n : Nat) (u : CalUnit) : List Byte :=
  let w := fun (l : List Nat) => ((upTo 96).map (fun i =>
    (BitVec.ofNat 8 (if l.isEmpty then (if n < 1024 && i != 95 then 64 else 0) else (diffs l).getD i 0) : Byte)))
  bytesOf 32 (pack (u.off.map (fun v => (32, unsint 32 v)) ++ [(32, unsint 32 u.tdOff), (7, u.cmlTrim), (1, 0), (4, u.fail), (20, 0)]
    ++ u.pkg.map (fun v => (16, v)))) ++ (upTo 4).flatMap (fun i => w (u.taps.getD i [])) ++ List.replicate 96 0#8
    ++ (upTo 1024).map (fun i => BitVec.ofNat 8 (u.widths.getD i 64))
def setBytes (z : CalSet) : List Byte :=
  (upTo 32).flatMap (fun g => bytesOf 64 (pack ((upTo 16).map (fun i => (8, unsint 8 (((z.trim g).getD []).getD i 0 / 16))) ++
    [(16, unsint 16 (z.gtemp g))]))) ++ List.replicate (4096 - 64 - 2048) 0#8 ++
  (upTo 1040).flatMap (fun n => unitBytes n (z.unit n))

/-- The slot map goes to record memory (R231): the fields of CAL_MAP from bit 64 on. The trims go there likewise (R233). -/
def saveMap (s : State) : State :=
  recWrite 1 0 (fun u => bytesOf 64 (pack [(32, u), (32, 0), (15, s.r .CAL_MAP_SLOT), (3, s.r .CAL_MAP_STAGE)])) s
def trimBytes (s : State) : List Byte :=
  (upTo 1040).flatMap (fun n => (upTo 5).flatMap (fun i => bytesOf 4 (unsint 32 (s.trimOf n i))))
def saveTrims (s : State) : State := recWrite 3 0 (fun _ => trimBytes s) s

/-- The DIGEST of a set as it stands (Table CAL-4). -/
def CalSet.digestNow (z : CalSet) : Nat := z.digest.getD (Config.shake256 (setBytes z) % 2 ^ 256)

/-- Staging becomes the set of a point: its slot and the slot map change places (R233). -/
def commitPoint (point : Nat) (s : State) : State :=
  let k := s.r .CAL_MAP_STAGE
  let z := mergeSet s point
  let z := { z with digest := some (Config.shake256 (setBytes z) % 2 ^ 256) }
  let old := s.slotOf point
  let s := putSet old {} (putSet k z s)
  let s := (s.w .CAL_MAP_SLOT 0 (putBits (s.r .CAL_MAP_SLOT) (3 * point + 2) (3 * point) k)).w .CAL_MAP_STAGE 0 old
  measure MK_CAL_SET point 0 z.digestNow <| saveMap (s.w .CAL_MAP_VALID 0 (s.r .CAL_MAP_VALID ||| 2 ^ point))

/-- The trims of a unit that a measured set brings to what it measured (R233). -/
def newTrims (s : State) (st : CalSet) (n : Nat) : List Int :=
  let ok := fun (u : CalUnit) k => !u.fail.testBit k
  let u := st.unit n
  let T := st.gtemp (tdcGroup n)
  (upTo 5).map (fun i =>
    let old := s.trimOf n i
    if i = 4 then (if ok u 3 then old + (u.tdOff - (s.tdAt n T + old)) else old)
    else if ok u (failBit i) then old + (u.off.getD i 0 - (s.offAt n i T + old)) else old)

/-- Staging sets the trims of the units that it measured, and empties (R233). -/
def commitTrims (s : State) : State :=
  let k := s.r .CAL_MAP_STAGE
  let st := s.slotSet k
  let tr := s.cal.stagedUnits.foldl (fun t n => tset [] t n (newTrims s st n)) s.cal.trim
  measure MK_CAL_SET 8 0 (Config.shake256 (setBytes st) % 2 ^ 256)
    (saveTrims (putSet k {} { s with cal := { s.cal with trim := tr } }))

/-- Nothing is staged, and every sampled group has new targets, which apply at the next thermal sample or by QUIET steps (R233, R237, R238). -/
def commitEnded (s : State) : State :=
  forAll (upTo 32) (fun g t => if (t.gp g).sampled && !t.rb .CAL_GSTAT_NOSENSE g then
      (let t := retarget g t; if t.behind g then t.setF .CAL_GSTAT_CATCHUP g else t) else t)
    { s with cal := { s.cal with stagedUnits := [] } }

/-- The commit takes effect (R233): a point's slot and the slot map, or the trims; the targets follow, and the DIGEST of
the set enters the measured-boot log. -/
def execCalCommitDone (s : State) : Out := .next <|
  match s.jobs.find? Job.isCalCommit with
  | some (.calCommit d point) =>
    let s := { (s.w .CAL_RUN_STATE 0 0).w .CAL_MAP_STAGED 0 0 with jobs := s.jobs.filter (· != .calCommit d point) }
    complete 0x0902 d ST_OK false 0 0 0 (commitEnded (if point < 5 then commitPoint point s else commitTrims s))
  | _ => s

/-- CAL.DISCARD empties staging (R233). -/
def execCalDiscard (d : Desc) (s : State) : Out := .next <| runCmd 0x0903 d [args d 0]
  (fun s =>
    ({ s.w .CAL_MAP_STAGED 0 0 with
        cal := { (putSet (s.r .CAL_MAP_STAGE) {} s).cal with stagedUnits := [] } },
      .done ST_OK)) s

/-- Write the four system offsets of the masked channels, 16 bytes each in ascending order. -/
def sysoffFrom (d : Desc) : Nat → List Nat → State → State
  | _, [], s => s
  | a, c :: r, s =>
    let s := forAll (upTo 4) (fun i t => t.w .CH_SYSOFF_OFFSET c (t.winN d.path (a + 4 * i) 4) i) s
    sysoffFrom d (a + 16) r (if s.tdFrozen c then s else tdRefresh c s)

/-- CAL.SYSOFF (R241). ARG0 the address of the channel mask, ARG1 the address of four signed 32-bit values per masked
channel. -/
def calSysoffAct (d : Desc) (s : State) : Act :=
  let l := chansIn (s.chanMask d d.a0)
  let n := 16 * l.length
  { checks := [s.rfault d d.a0 128, reachD d d.a1 n,
      dis (l.any (fun c => !s.gEn (groupOf c))),
      (l.any (fun c => !s.groupIdle (groupOf c)), ST_STATE),
      s.rfault d d.a1 n,
      ((s.words d d.a1 (4 * l.length)).any (fun v => let x := sint 32 v; decide (x < -4194304) || decide (4194303 < x)), ST_RANGE)]
    after := sysoffFrom d d.a1 l s }
def calSysoffForm (d : Desc) (_ : State) : List (Bool × Nat) := [args d 2, reachD d d.a0 128]
def execCalSysoff (d : Desc) (s : State) : Out := .next <| runAct 0x0904 d (calSysoffForm d s) (calSysoffAct d) s

end Sys2Proof.Machine
end

