-- ==== Sys2Proof/Machine/Tdc.lean ====
section
/-! DEFINITION. Timestamps, measurements and edge strips (R190 to R219). -/

namespace Sys2Proof.Machine

/-! ## The measurement descriptor (Table TDC-3) -/

def mdType (d : Nat) : Nat := bits d 2 0
def mdSigned (d : Nat) : Bool := bit d 3
def mdPhase (d : Nat) : Bool := bit d 4
def mdHist (d : Nat) : Bool := bit d 5
def mdEndOnStop (d : Nat) : Bool := bit d 6
def mdStartTdc (d : Nat) : Nat := bits d 18 8
def mdStartSig (d : Nat) : Bool := bit d 19
def mdStartEdge (d : Nat) : Nat := bits d 21 20
def mdStopSig (d : Nat) : Bool := bit d 22
def mdStopEdge (d : Nat) : Nat := bits d 24 23
def mdPrescale (d : Nat) : Nat := bits d 28 25
def mdGate (d : Nat) : Nat := bits d 30 29
def mdGbit (d : Nat) : Nat := bits d 33 32
def mdGbit2 (d : Nat) : Nat := bits d 35 34
def mdGxt (d : Nat) : Nat := bits d 38 36
def mdPitch (d : Nat) : Nat := bits d 44 40
def mdPnone (d : Nat) : Bool := bit d 45
def mdN (d : Nat) : Nat := bits d 79 48
def mdTimeout (d : Nat) : Nat := bits d 106 80
def mdMaxint (d : Nat) : Nat := bits d 151 112
def mdGateCc (d : Nat) : Nat := bits d 191 160
def mdHlo (d : Nat) : Int := sint 64 (bits d 255 192)
def mdHw (d : Nat) : Nat := bits d 287 256
def mdResult (d : Nat) : Nat := bits d 383 320
def mdRsv (d : Nat) : Bool :=
  bit d 7 || bit d 31 || bit d 39 || bits d 47 46 != 0 || bits d 111 107 != 0 || bits d 159 152 != 0 ||
    bits d 319 288 != 0 || bits d 511 384 != 0

abbrev T_INTERVAL : Nat := 0
abbrev T_PERIOD : Nat := 1
abbrev T_FREQ : Nat := 2
abbrev T_DUTY : Nat := 3
abbrev T_EDGE : Nat := 4

/-- The states of a measurement (R202) as TD_STATE shows them. -/
abbrev MFREE : Nat := 0
abbrev MREADY : Nat := 1
abbrev MACTIVE : Nat := 2
abbrev MDONE : Nat := 3

/-- Whether a code names a TDC that commands may use: not beyond TDCX15, and not TDCX00 (R193). -/
def tdcOk (code : Nat) : Bool := code < 1040 && code != 1024

/-- The state of the measurement of a primary (R202). -/
def State.mstate (s : State) (code : Nat) : Nat := (s.ms code).st

/-- The TDCs of a measurement, and those of them that it holds: not one that a followed reference took from it (R202, R213). -/
def State.mTdcs (s : State) (code : Nat) : List Nat :=
  let st := mdStartTdc (s.ms code).desc
  if st = code then [code] else [code, st]
def State.mHolds (s : State) (code : Nat) : List Nat :=
  (s.mTdcs code).filter (fun n => (s.r .TD_STATE_USE n == 1 || s.r .TD_STATE_USE n == 2) && s.r .TD_STATE_OWNER n == code)

/-- The state of a measurement, which TD_STATE shows at its primary and at the TDCs that it holds. -/
def setMstate (code v : Nat) (s : State) : State :=
  (forAll (s.mHolds code) (fun n t => t.w .TD_STATE_MSTATE n v) (s.onMs code (fun m => { m with st := v }))).w .TD_STATE_MSTATE code v

/-- The pitch of a measurement by its descriptor (R199). -/
def State.mdPitchOf (s : State) (code d : Nat) : Option Nat :=
  if code < 1024 then s.pitchOf (code / 32) else if mdPnone d then none else some (mdPitch d)

/-- Measurements in state ACTIVE, by primary. -/
def State.active (s : State) : List Nat := (s.meas.map (·.1)).filter (fun c => s.mstate c == MACTIVE)

/-! ## Stamp times and phases (R191, R199, R200) -/

/-- The time of a stamp. -/
def State.stampTime (s : State) (code coarse fine : Nat) : Nat :=
  let b := match (s.td code).bins with
    | [] => 64 * fine + 32
    | l => l.getD fine 0
  (((coarse * 65536 + b : Nat) : Int) + sint 32 (s.r .TD_OFF_OFFSET code)).toNat

/-- 64 times the phase of a time on a pitch's timeline, or on the Guyline beat counter, modulo 2^70 (R199). -/
def State.phase64 (s : State) (p : Option Nat) (t : Nat) : Nat :=
  let guy := unsint 70 (((64 * s.guyPhase : Nat) : Int) + (t : Int) - ((s.now * ETU + s.r .GY_BOFF_BEAT_OFF : Nat) : Int))
  match p with
  | none => guy
  | some p =>
    if s.isGref p then guy
    else
      match ((s.pt p).trk.segs.filter (fun m => m.t ≤ t)).getLast? with
      | some m => if m.r = 0 then 64 * m.phi else (64 * m.phi + (t - m.t) * 2 ^ 22 / m.r) % 2 ^ 70
      | none => 64 * (s.pt p).trk.lastPhase

/-- The vector of a pitch whose span contains a phase (R203). -/
def State.vecAt (s : State) (p phi : Nat) : Option VecInfo :=
  (s.pt p).vecs.find? (fun x => decide (0 ≤ phDiff phi x.phase) && decide (phDiff phi x.endPhase < 0))

/-! ## The end of a measurement (R211 to R214) -/

/-- The mean in 1/256 of the unit, rounded to nearest, and the population standard deviation likewise (R211). -/
def Meas.mean (m : Meas) : Int := if m.n = 0 then 0 else roundDiv ((m.x0 * m.n + m.s) * 256) m.n
def Meas.std (m : Meas) : Nat :=
  if m.n = 0 then 0
  else
    let v := (m.q * m.n - m.s * m.s).toNat
    (isqrt (4 * 65536 * v) + m.n) / (2 * m.n)

/-- The result record of Table TDC-6. -/
def Meas.record (m : Meas) (code status : Nat) : Nat :=
  let e := m.n = 0
  pack [(11, code), (5, 0), (3, mdType m.desc), (1, b2n (mdPhase m.desc)), (4, status), (4, m.tags), (1, b2n e),
    (1, b2n (mdHist m.desc)), (2, 0), (32, m.n), (64, if e then 0 else unsint 64 m.min'), (64, if e then 0 else unsint 64 m.max'),
    (64, unsint 64 m.mean), (64, m.std), (32, m.run), (32, m.lost), (32, m.orphan), (32, m.unpaired), (32, m.coinc),
    (32, m.reject)]

/-- The histogram block: 256 bins, UNDER, OVER, and zeros (R214). -/
def Meas.histBytes (m : Meas) : List Byte :=
  (upTo 258).flatMap (fun i => bytesOf 4 (tget 0 m.hist i)) ++ List.replicate 24 0#8

/-- Bytes of a result. -/
def mdBytes (d : Nat) : Nat := if mdHist d then 64 + 1056 else 64

def writeResult (m : Meas) (rec' addr : Nat) (path : Path) (s : State) : State :=
  s.winStore path addr (bytesOf 64 rec' ++ (if mdHist m.desc then m.histBytes else []))

/-- An event ends an ACTIVE measurement: of several in one core cycle the one higher in Table TDC-5, the lower status, is recorded when
that cycle ends (R213). -/
def endMeas (code status : Nat) (s : State) : State :=
  if s.mstate code != MACTIVE then s
  else s.onMs code (fun m => { m with ending := some (match m.ending with | some x => min x status | none => status) })

/-- The measurements that a park of channels ends (R213): their primary parks, or their pitch. -/
def parkMeas (chans : List Nat) (pitches : List Nat) (s : State) : State :=
  forAll s.active (fun c t =>
    if chans.contains c || (match (t.ms c).pitch with | some p => pitches.contains p | none => false) then endMeas c 1 t else t) s

/-- A park of all channels ends every measurement (R213). -/
def parkAllMeas (s : State) : State := forAll s.active (fun c t => endMeas c 1 t) s

/-- The measurements that use one of the listed TDCs end PREEMPTED (R213). -/
def preemptTdcs (l : List Nat) (s : State) : State :=
  forAll s.active (fun c t => if (t.mTdcs c).any l.contains then endMeas c 2 t else t) s

/-- A pitch completes STOPPING: measurements with END_ON_STOP end STOPPED (R213). -/
def stopMeas (p : Nat) (s : State) : State :=
  forAll s.active (fun c t => if mdEndOnStop (t.ms c).desc && (t.ms c).pitch == some p then endMeas c 4 t else t) s

/-! ## Gates (R207, R209) -/

/-- A gate closes: SIGNED stamps without a partner are ORPHAN, and an open start can no longer pair (log entry 27). -/
def gateClose (m : Meas) : Meas :=
  { m with
    orphan := satAdd 32 m.orphan (m.starts.length + m.stops.length), starts := [], stops := []
    unpaired := if m.openStart.isSome then satAdd 32 m.unpaired 1 else m.unpaired, openStart := none
    rise := none, fall := none }

/-- The gate opens or closes. -/
def gateMove (m : Meas) (on : Bool) : Meas :=
  if on == m.gate then m else if on then { m with gate := true } else { gateClose m with gate := false }

/-- The gate as a phase of the pitch finds it: the openings and closings up to it have happened. -/
def gateTo (phi : Nat) (m : Meas) : Meas :=
  let l := m.gates.takeWhile (fun g => decide (0 ≤ phDiff phi g.1))
  { l.foldl (fun m g => gateMove m g.2) m with gates := m.gates.drop l.length }

/-- What a vector from phi to e with its marker bits does to a gate: a MARKED gate is open over a marked vector, and one with the marked
vector next to it is one open span; a SPAN gate opens at a vector with GBIT and closes at a later one with GBIT2 (R207). -/
def gateMarks (phi e marks : Nat) (m : Meas) : Meas :=
  let g1 := marks.testBit (mdGbit m.desc)
  match mdGate m.desc with
  | 1 =>
    if !g1 then m
    else if m.gates.getLast? == some (phi, false) then { m with gates := m.gates.dropLast ++ [(e, false)] }
    else { m with gates := m.gates ++ [(phi, true), (e, false)] }
  | 2 =>
    if (match m.gates.getLast? with | some g => g.2 | none => m.gate) then
      (if marks.testBit (mdGbit2 m.desc) then { m with gates := m.gates ++ [(phi, false)] } else m)
    else if g1 then { m with gates := m.gates ++ [(phi, true)] } else m
  | _ => m

/-- A vector of a pitch starts: the gates of its measurements follow. -/
def gateVec (p phi e marks : Nat) (s : State) : State :=
  forAll s.active (fun c t => if (t.ms c).pitch == some p then t.onMs c (gateMarks phi e marks) else t) s

/-- An edge of XTRIG n becomes visible in core cycle cc: gates that wait for it open and stay open. -/
def gateXtrig (n cc : Nat) (s : State) : State :=
  forAll s.active (fun c t => t.onMs c (fun m =>
    if mdGate m.desc == 3 && mdGxt m.desc == n && !m.gate then { m with gate := true, gateFrom := cc, freqFrom := cc } else m)) s

/-- Whether the gate is open for a stamp. -/
def Meas.open' (m : Meas) (x : Stamp) : Bool :=
  match mdGate m.desc with
  | 0 => true
  | 3 => m.gate && m.gateFrom * ETU ≤ x.t
  | _ => m.gate

/-! ## Samples (R203, R208 to R212) -/

/-- The tags of a stamp of a TDC for a measurement (R201, R240). -/
def State.stampTags (s : State) (code n : Nat) (phi : Nat) : Nat :=
  let m := s.ms code
  let t0 := if n = code then m.armTemp else m.armTempS
  (match m.pitch with
    | some p => b2n (s.holdTag p phi) + 2 * b2n (s.rb .PT_STATUS_GREF_HOLD p)
    | none => 0) + 4 * b2n m.stale +
    8 * b2n ((s.td n).calBad || s.rb .CAL_GSTAT_NOSENSE (tdcGroup n) || decide (32 < (s.temp (tdcGroup n) - t0).natAbs))

/-- The histogram place of a sample: bin, UNDER 256 or OVER 257 (R212). -/
def histAt (d : Nat) (x : Int) : Nat :=
  let i := (x - mdHlo d) / (mdHw d : Nat)
  if x < mdHlo d then 256 else if i < 256 then i.toNat else 257

/-- The later of two stamps. -/
def laterStamp (a : Option Stamp) (b : Stamp) : Stamp := match a with | some x => if x.t < b.t then b else x | none => b

/-- A sample forms from stamps of which the last is z, with the tags of all of them (R201, R211, R212); the N-th one ends the
measurement. -/
def addSample (code : Nat) (x : Int) (tags : Nat) (z : Stamp) (s : State) : State :=
  let m := s.ms code
  let x0 := if m.n = 0 then x else m.x0
  let s := s.onMs code (fun m => { m with
    n := m.n + 1, x0 := x0, min' := if m.n = 0 then x else min m.min' x, max' := if m.n = 0 then x else max m.max' x
    s := m.s + (x - x0), q := m.q + (x - x0) * (x - x0), tags := m.tags ||| tags
    lastStamp := some (laterStamp m.lastStamp z)
    hist := if mdHist m.desc then
        let k := histAt m.desc x
        tset 0 m.hist k (satAdd 32 (tget 0 m.hist k) 1) else m.hist })
  let s := s.w .TD_COUNT_COUNT code (s.r .TD_COUNT_COUNT code + 1)
  if (s.ms code).n = mdN m.desc then endMeas code 0 s else s

def lost1 (m : Meas) (n : Nat := 1) : Meas := { m with lost := satAdd 32 m.lost n }
def reject1 (m : Meas) : Meas := { m with reject := satAdd 32 m.reject 1 }
def orphan1 (m : Meas) : Meas := { m with orphan := satAdd 32 m.orphan 1 }
def unpaired1 (m : Meas) : Meas := { m with unpaired := satAdd 32 m.unpaired 1 }

/-- Whether a gap span of a TDC overlaps the span from a to b (R197, R210). -/
def Tdc.gapIn (x : Tdc) (a b : Nat) : Bool :=
  x.gaps.any (fun q => decide (q.1 < b) && (match q.2 with | some e => decide (a < e) | none => true)) ||
    (match x.hold with | some h => decide (h < b) | none => false)

/-- Whether a time lies inside a gap span, or before the end of one that began before another time (R210). -/
def Tdc.inGap (x : Tdc) (t : Nat) : Bool :=
  x.gaps.any (fun q => decide (q.1 < t) && (match q.2 with | some e => decide (t < e) | none => true))
def Tdc.broken (x : Tdc) (t by' : Nat) : Bool :=
  x.gaps.any (fun q => decide (q.1 < by') && (match q.2 with | some e => decide (t < e) | none => true)) ||
    (match x.hold with | some h => decide (h < by') | none => false)

/-- The value from stamp a to stamp b in the sample unit (R199). -/
def spanOf (m : Meas) (a b : Stamp) : Int :=
  if mdPhase m.desc then sint 70 (b.phi + 2 ^ 70 - a.phi) else (b.t : Int) - a.t

/-- A pair of start a and stop b that the pairing rules join: LOST where a gap span overlaps it, REJECT beyond MAXINT (R198, R208 to R210,
Table TDC-4). Where both hold it is LOST (the spec does not order them, log entry 91). -/
def pairUp (code : Nat) (a b : Stamp) (s : State) : State :=
  let m := s.ms code
  let st := mdStartTdc m.desc
  let lo := min a.t b.t
  let hi := max a.t b.t
  let d := ((b.t : Int) - a.t).natAbs
  if (s.td st).gapIn lo hi || (s.td code).gapIn lo hi then s.onMs code lost1
  else if mdMaxint m.desc < d then s.onMs code reject1
  else
    let s := if st != code && decide (d < 64) then s.onMs code (fun m => { m with coinc := satAdd 32 m.coinc 1 }) else s
    addSample code (spanOf m a b) (a.tags ||| b.tags) (laterStamp (some a) b) s

/-- An open start whose age passes MAXINT closes as UNPAIRED (R208). -/
def ageStart (t : Nat) (m : Meas) : Meas :=
  match m.openStart with
  | some a => if a.t + mdMaxint m.desc < t then unpaired1 { m with openStart := none } else m
  | none => m

/-- A start stamp in ORDERED mode: an older open start is UNPAIRED (R208). -/
def orderedStart (x : Stamp) (m : Meas) : Meas :=
  { (if m.openStart.isSome then unpaired1 m else m) with openStart := some x }

/-- A stop stamp in ORDERED mode (R208). -/
def orderedStop (code : Nat) (x : Stamp) (s : State) : State :=
  match (s.ms code).openStart with
  | none => s.onMs code orphan1
  | some a =>
    if x.t + 256 < a.t then s.onMs code orphan1
    else pairUp code a x (s.onMs code (fun m => { m with openStart := none }))

/-- A stop edge lost on the one TDC of an ORDERED interval: the pair of the open start is LOST (Table TDC-4). -/
def orderedLost (m : Meas) : Meas := if m.openStart.isSome then lost1 { m with openStart := none } else m

/-- The gap spans that began before a time break the count of a SIGNED measurement: the stamps still unpaired that lie before the end of
one are LOST (R210). -/
def breakSigned (code t : Nat) (s : State) : State :=
  let m := s.ms code
  if mdSigned m.desc then
    let st := mdStartTdc m.desc
    let gone := fun (x : Stamp) => (s.td code).broken x.t t || (s.td st).broken x.t t
    let k := (m.starts.filter gone).length + (m.stops.filter gone).length
    s.onMs code (fun m => { lost1 m k with starts := m.starts.filter (!gone ·), stops := m.stops.filter (!gone ·) })
  else s

/-- A stamp in SIGNED mode: the k-th start joins the k-th stop; a stamp inside a gap span is LOST (R209, R210). -/
def signedStamp (code : Nat) (x : Stamp) (s : State) : State :=
  let m := s.ms code
  if (s.td code).inGap x.t || (s.td (mdStartTdc m.desc)).inGap x.t then s.onMs code lost1
  else if x.start then
    match m.stops with
    | b :: r => pairUp code x b (s.onMs code (fun m => { m with stops := r }))
    | [] => s.onMs code (fun m => { m with starts := m.starts ++ [x] })
  else
    match m.starts with
    | a :: r => pairUp code a x (s.onMs code (fun m => { m with starts := r }))
    | [] => s.onMs code (fun m => { m with stops := m.stops ++ [x] })

/-- A sample of one TDC over stamps from a to b, unless a gap or its span forbids it (R198, R203). -/
def ownSample (code : Nat) (a b : Stamp) (x : Int) (tags : Nat) (s : State) : State :=
  if (s.td code).gapIn a.t b.t then s.onMs code lost1
  else if mdMaxint (s.ms code).desc < b.t - a.t then s.onMs code reject1
  else addSample code x tags b s

/-- The EDGE sample of a stamp: its position in the vector of the measurement's pitch that holds it (R203). -/
def edgeSample (code : Nat) (x : Stamp) (s : State) : State :=
  let m := s.ms code
  match m.pitch.bind (fun p => s.vecAt p (x.phi / 64)) with
  | some v =>
    addSample code (if mdPhase m.desc then sint 70 (x.phi + 2 ^ 70 - 64 * v.phase) else (x.t : Int) - v.time) x.tags x s
  | none => s.onMs code reject1

/-- A stamp of a measurement whose gate is open (R203, R208, R209). -/
def useStamp (code : Nat) (x : Stamp) (s : State) : State :=
  let m := s.ms code
  match mdType m.desc with
  | 0 =>
    if mdSigned m.desc then signedStamp code x s
    else if x.start then s.onMs code (orderedStart x) else orderedStop code x s
  | 1 =>
    let s' := s.onMs code (fun m => { m with rise := some x })
    match m.rise with
    | some a => ownSample code a x (roundDiv (spanOf m a x) (2 ^ mdPrescale m.desc)) (a.tags ||| x.tags) s'
    | none => s'
  | 2 => s.onMs code (fun m => { m with
      freqFirst := some (m.freqFirst.getD x), freqLast := x, freqM := m.freqM + 1, freqTags := m.freqTags ||| x.tags })
  | 3 =>
    if x.rising then
      let s' := s.onMs code (fun m => { m with rise := some x, fall := none })
      match m.rise, m.fall with
      | some a, some f =>
        ownSample code a x (roundDiv (((f.t : Int) - a.t) * 2 ^ 32) (x.t - a.t)) (a.tags ||| f.tags ||| x.tags) s'
      | _, _ => s'
    else s.onMs code (fun m => { m with fall := if m.rise.isSome then some x else m.fall })
  | 4 => edgeSample code x s
  | _ => s

/-- The pairing logic takes the next stamp in order of time, or notes a lost stop edge; after the N-th sample it takes none (R208 to
R211). -/
def takeStamp (code : Nat) (x : Stamp) (s : State) : State :=
  if (s.ms code).n = mdN (s.ms code).desc then s
  else
    let s := breakSigned code x.t (s.onMs code (fun m => ageStart x.t (gateTo (x.phi / 64) m)))
    if x.lost then s.onMs code orderedLost
    else if (s.ms code).open' x then useStamp code x s
    else s.onMs code reject1

/-- A stamp's place in the order of time, behind those of the same time. -/
def insertStamp (x : Stamp) : List Stamp → List Stamp
  | [] => [x]
  | y :: r => if x.t < y.t then x :: y :: r else y :: insertStamp x r

/-- The time up to which a FREQUENCY measurement takes stamps: the end of its open gate window (R203). -/
def Meas.windowEnd (m : Meas) : Option Nat :=
  if mdType m.desc = T_FREQ && (mdGate m.desc == 0 || m.gate) then some ((m.freqFrom + mdGateCc m.desc) * ETU) else none

/-- The pairing logic takes the stamps that are older than a time; stamps of a later gate window wait for it. -/
def takeStamps (lim code : Nat) (s : State) : State :=
  let m := s.ms code
  let lim := match m.windowEnd with | some e => min lim e | none => lim
  let l := m.queue.takeWhile (fun x => decide (x.t < lim))
  (l.foldl (fun t x => takeStamp code x t) (s.onMs code (fun m => { m with queue := m.queue.drop l.length }))).onMs code (ageStart lim)

/-- Core cycles after its edge in which the pairing logic takes a stamp. A stamp is converted no later than 64 core cycles after its edge
(R200); the model takes it then, when every edge near it is known (log entry 91). -/
abbrev STAMP_LAG : Nat := 64

/-- The pairing logic of one core cycle. -/
def measTick (s : State) : State :=
  forAll s.active (takeStamps ((s.now - STAMP_LAG) * ETU)) s

/-- The leftovers of a measurement that ends: an open start is UNPAIRED, unpaired stamps are ORPHAN (R208, R209, R214). -/
def leftovers (m : Meas) : Meas :=
  { (if m.openStart.isSome then unpaired1 m else m) with
    orphan := satAdd 32 m.orphan (m.starts.length + m.stops.length), openStart := none, starts := [], stops := [], queue := [], gates := [] }

/-- A measurement has ended with a status (R214): the last stamps paired, leftovers counted, record and histogram written, TDC_RESULT
posted, held until the write completes, EV_TDC_DONE raised, DONE entered. -/
def closeMeas (code status : Nat) (s : State) : State :=
  let s := takeStamps ((s.now + 1 + STAMP_LAG) * ETU) code s
  let s := (breakSigned code ((s.now + 1) * ETU) s).onMs code leftovers
  let status := if (s.ms code).n = mdN (s.ms code).desc then 0 else status
  let m := s.ms code
  let r := m.record code status
  let s := writeResult m r (mdResult m.desc) m.path (s.onMs code (fun x => { x with result := some r, ending := none }))
  let s := forAll (s.mTdcs code) (fun n t => t.w .TD_STATE_LAST_STATUS n status) (setMstate code MDONE s)
  let vals := [(11, code), (32, m.run), (4, status)]
  let s := post 1 (tdcGroup code) 4 (pitchKey m.pitch) (pack vals) true s
  forAll (s.mHolds code) unfreezeTdc (event EV_TDC_DONE vals s)

/-- The measurements that an event of the core cycle ended. -/
def closeMeasures (s : State) : State :=
  forAll s.active (fun c t => match (t.ms c).ending with | some st => closeMeas c st t | none => t) s

/-! ## Edges (R195 to R198, R217) -/

/-- Whether an edge code selects an edge: 0 rising, 1 falling, 2 both. -/
def edgeSel (code : Nat) (rising : Bool) : Bool :=
  match code with | 0 => rising | 1 => !rising | 2 => true | _ => false

/-- 250 ps in edge-time units (R196). -/
abbrev DEAD_ETU : Nat := 131072

/-- The outcome of an edge at a TDC: its stamps due for delivery, two per core cycle, and whether it is stamped, lost to
dead time or lost to a full buffer (R196). Delivery slots are counted in half core cycles. -/
inductive Edged where
  | stamped (slot : Nat)
  | dead
  | full
deriving DecidableEq, Repr

def Tdc.edge (x : Tdc) (t coarse : Nat) : Edged :=
  let pending := x.buf.filter (fun z => coarse / 4 < z)
  match x.last with
  | some a => if t < a + DEAD_ETU then .dead
    else if 16 ≤ pending.length then .full else .stamped (max (coarse / 4 + 1) (pending.foldl max 0 + 1))
  | none => if 16 ≤ pending.length then .full else .stamped (max (coarse / 4 + 1) (pending.foldl max 0 + 1))

/-- A stamp taken at t: the buffer, the last stamp, and the end of an open gap span 250 ps later (R197). -/
def Tdc.take (x : Tdc) (t coarse slot : Nat) : Tdc :=
  { x with
    buf := x.buf.filter (fun z => coarse / 4 < z) ++ [slot], last := some t
    gaps := x.gaps.map (fun q => match q.2 with | none => (q.1, some (t + DEAD_ETU)) | some _ => q) }

/-- A lost edge: its counter, GAP, and a gap span from the last stamp (R197). -/
def loseEdge (n : Nat) (f : Fld) (s : State) : State := openGap n ((s.inc f n).setF .TD_STATE_GAP n)

/-- An edge meets a TDC: stamped and counted, or lost when the TDC is dead or its buffer full (R196, R197, R219). -/
def tdcEdge (n t coarse : Nat) (s : State) : Bool × State :=
  match (s.td n).edge t coarse with
  | .dead => (false, loseEdge n .TD_LOSS_DEAD_CNT s)
  | .full => (false, loseEdge n .TD_LOSS_OVR_CNT s)
  | .stamped k => (true, (s.inc .TD_STAMPS_STAMPS n).onTd n (fun x => x.take t coarse k))

/-- A stamp of a strip channel waits for the evaluation of its vector (R217). -/
def stripStamp (n t : Nat) (s : State) : State :=
  match s.pitchOf (groupOf n) with
  | none => s
  | some p =>
    let q := s.phase64 (some p) t
    let tags := b2n (s.holdTag p (q / 64)) + 4 * b2n (s.rb .CH_STATUS_STALE n) + 8 * b2n ((s.ch n).calBad || (s.td n).calBad)
    s.onCu (groupOf n) (fun u => { u with stripQ := u.stripQ ++ [{ cycle := t / ETU, phi := q, pos := n % 32, tags := tags }] })

/-- An edge at a channel's TDC in use by its strip (R200, R219). -/
def stripEdge (n : Nat) (cml rising : Bool) (t coarse : Nat) (s : State) : State :=
  let g := groupOf n
  if n < 1024 && (s.r .ES_MASK_MASK g).testBit (n % 32) && !s.rb .CH_STATUS_REF_USE n &&
      cml == s.rb .ES_CFG_SIG g && edgeSel (s.r .ES_CFG_EDGE g) rising then
    match tdcEdge n t coarse s with
    | (true, s) => stripStamp n t s
    | (false, s) => s.onCu g (fun u => { u with stripLost := satAdd 32 u.stripLost 1 })
  else s

/-- The prescale of a measurement's TDCs: ÷1 on a TDC that selects both polarities, as the one TDC of an INTERVAL does (R195). -/
def mdDivide (code d : Nat) : Nat := if mdType d = T_INTERVAL && mdStartTdc d = code then 1 else 2 ^ mdPrescale d

/-- An edge at a TDC of an ACTIVE measurement: as a start or a stop, past the prescaler, into the queue of the pairing logic. -/
def measEdge (n : Nat) (cml rising : Bool) (t coarse : Nat) (s : State) : State :=
  let use := s.r .TD_STATE_USE n
  let p := if use == 1 then n else s.r .TD_STATE_OWNER n
  let m := s.ms p
  if (use == 1 || use == 2) && s.mstate p == MACTIVE && m.started * ETU ≤ t then
    let sig := fun b => 1024 ≤ n || cml == b
    let isStart := mdType m.desc == T_INTERVAL && mdStartTdc m.desc == n && sig (mdStartSig m.desc) &&
      edgeSel (mdStartEdge m.desc) rising
    let isStop := p == n && sig (mdStopSig m.desc) && edgeSel (if mdType m.desc == T_DUTY then 2 else mdStopEdge m.desc) rising
    if isStart || isStop then
      let c := (s.td n).presc + 1
      if c < mdDivide p m.desc then s.onTd n (fun x => { x with presc := c })
      else
        let (ok, s) := tdcEdge n t coarse (s.onTd n (fun x => { x with presc := 0 }))
        let q := s.phase64 m.pitch t
        let x : Stamp := { t := t, phi := q, tags := s.stampTags p n (q / 64), start := isStart, stop := isStop, rising := rising, lost := !ok }
        if ok || (isStop && mdType m.desc == T_INTERVAL && mdStartTdc m.desc == p && !mdSigned m.desc) then
          s.onMs p (fun m => { m with queue := insertStamp x m.queue })
        else s
    else s
  else s

/-- Whether an edge rises as the TDC sees it: an inverted comparator turns it round. -/
def State.seenRising (s : State) (n : Nat) (cml rising : Bool) : Bool :=
  rising != (n < 1024 && (if cml then s.rb .CH_CFG_CML_INV n else s.rb .CH_CFG_CMH_INV n))

/-- An edge at a TDC's input (R195 to R197): selected and passed by the prescaler, then stamped or lost. An edge at a TDC
that serves nothing now is not selected. A held TDC takes no stamp (R201). -/
def execTdcStamp (code : Fin 1040) (cml rising : Bool) (coarse : Nat) (fine : Fin 1024) (s : State) : Out := .next <|
  let n := code.val
  if n == 1024 || s.tdInCal n then s
  else
    let t := s.stampTime n coarse fine.val
    if s.r .TD_STATE_USE n == 3 then stripEdge n cml (s.seenRising n cml rising) t coarse s
    else measEdge n cml (s.seenRising n cml rising) t coarse s

/-- The gate of a measurement at its arm instant: a MARKED gate is open in a marked vector that is being played (R207). -/
def State.gatesAt (s : State) (p : Option Nat) (d : Nat) : List (Nat × Bool) :=
  match p.bind (fun p => (s.pt p).vecs.getLast?) with
  | some v => if mdGate d = 1 && v.marks.testBit (mdGbit d) then [(v.phase, true), (v.endPhase, false)] else []
  | none => []

/-- A measurement starts: counts and accumulators cleared, prescalers restarted, RUN counted, ACTIVE entered (R206). Its samples carry
STALE where a self-calibration holds one of its TDCs (R201). -/
def armMeas (c : Nat) (s : State) : State :=
  let m := s.ms c
  let p := s.mdPitchOf c m.desc
  let s := s.onMs c (fun m => { desc := m.desc, path := m.path, run := (m.run + 1) % 2 ^ 32, started := s.now, pitch := p
                                gate := mdGate m.desc == 0, gates := s.gatesAt p m.desc, freqFrom := s.now
                                armTemp := s.temp (tdcGroup c), armTempS := s.temp (tdcGroup (mdStartTdc m.desc))
                                stale := (s.mTdcs c).any s.tdInCal })
  let s := forAll (s.mTdcs c) (fun n t => t.onTd n (fun x => { x with presc := 0, gaps := [], last := none, buf := [],
                                                                      sysSig := if n == c then mdStopSig m.desc else mdStartSig m.desc })) s
  let s := forAll (s.mTdcs c) tdRefresh s
  setMstate c MACTIVE (s.w .TD_COUNT_COUNT c 0)

/-- The arm instant of a measurement that TDC.ARM named (R206). -/
def execTdcArmInstant (code : Fin 1040) (s : State) : Out := .next <|
  match (s.ms code).armAt with
  | none => s
  | some a => if s.now < a || (s.mstate code != MREADY && s.mstate code != MDONE) then s else armMeas code s

/-- A FREQUENCY gate window ends with a sample from the at least 2 stamps in it, and the next window follows at once (R203). -/
def gateWindow (c : Nat) (s : State) : State :=
  let s := takeStamps ((s.now + 1) * ETU) c s
  let m := s.ms c
  let s' := s.onMs c (fun m => { m with freqFirst := none, freqM := 0, freqTags := 0, freqFrom := m.freqFrom + mdGateCc m.desc })
  match m.freqFirst with
  | some a =>
    if m.freqM < 2 then s'.onMs c reject1
    else
      let b := m.freqLast
      ownSample c a b (roundDiv ((2 ^ mdPrescale m.desc * (m.freqM - 1) * 2 ^ 16 * 524288000000000 : Nat) : Int) (b.t - a.t)) m.freqTags s'
  | none => s'.onMs c reject1

/-- The end of a FREQUENCY gate window (R203). -/
def execFreqGateWindow (code : Fin 1040) (s : State) : Out := .next <|
  let m := s.ms code
  match m.windowEnd with
  | some e => if s.mstate code == MACTIVE && e ≤ s.now * ETU then gateWindow code s else s
  | none => s

/-- TIMEOUT µs after the arm instant (R213). -/
def execMeasurementTimeout (code : Fin 1040) (s : State) : Out := .next <|
  let c := code.val
  if s.mstate c == MACTIVE && (s.ms c).started + 1000 * mdTimeout (s.ms c).desc ≤ s.now then endMeas c 5 s else s

/-! ## TDC commands (R205, R206, R215, R216) -/

/-- The range faults of a measurement descriptor (R205, line 3). -/
def State.mdFault (s : State) (code d : Nat) : Bool :=
  let ty := mdType d
  let same := mdStartTdc d == code
  let noPitch := (s.mdPitchOf code d).isNone
  mdRsv d || 5 ≤ ty || mdStartEdge d == 3 || mdStopEdge d == 3 || mdN d == 0 || mdTimeout d == 0 || 68000000 < mdTimeout d ||
    mdMaxint d == 0 || 8 < mdPrescale d ||
    (mdPrescale d != 0 && (mdStartEdge d == 2 || mdStopEdge d == 2 || ty == T_DUTY)) ||
    (mdSigned d && ty != T_INTERVAL) || (!same && ty != T_INTERVAL) ||
    (ty == T_INTERVAL && same && (mdStartSig d != mdStopSig d || mdStartEdge d == mdStopEdge d || mdStartEdge d == 2 || mdStopEdge d == 2)) ||
    ((ty == T_PERIOD || ty == T_EDGE) && mdStopEdge d == 2) ||
    (noPitch && (mdGate d == 1 || mdGate d == 2 || ty == T_EDGE || mdPhase d)) ||
    (ty == T_FREQ && (mdGate d == 1 || mdGate d == 2 || mdGateCc d == 0)) ||
    (mdHist d && mdHw d == 0) || mdResult d % 64 != 0 || !winOk (mdResult d) (mdBytes d)

/-- Whether a TDC is reserved, under calibration, or held by another measurement (R205, line 2). -/
def State.tdTaken (s : State) (code n : Nat) : Bool :=
  s.r .TD_STATE_USE n == 3 || s.tdInCal n || (s.r .TD_STATE_USE n != 0 && s.r .TD_STATE_OWNER n != code)

/-- Whether a TDC is that of a channel selected as a reference source (R19): commands that name it are refused. -/
def State.tdRef (s : State) (n : Nat) : Bool := n < 1024 && s.rb .CH_STATUS_REF_USE n

/-- Whether a TDC's group is disabled (R349). -/
def State.tdOffUnit (s : State) (n : Nat) : Bool := n < 1024 && !s.gEn (groupOf n)

/-- Free the TDCs of a measurement that it holds (R202). -/
def freeMeas (code : Nat) (s : State) : State :=
  if s.mstate code == MFREE then s
  else
    let l := s.mHolds code
    forAll l (fun n t => ((t.w .TD_STATE_MSTATE n 0).w .TD_STATE_USE n 0).w .TD_STATE_OWNER n 0) (setMstate code MFREE s)

/-- The checks of TDC.SETUP after those of its arguments (R205). -/
def tdcSetupChecks (d : Desc) (s : State) : List (Bool × Nat) :=
  let m := s.winN d.path d.a1 64
  let st := mdStartTdc m
  [s.rfault d d.a1 64, (!tdcOk st, ST_RANGE),
    (s.mstate d.a0 == MACTIVE || s.tdTaken d.a0 d.a0 || s.tdTaken d.a0 st || s.tdOffUnit st, ST_STATE), (s.mdFault d.a0 m, ST_RANGE)]

/-- A measurement takes its TDCs and its descriptor, and is READY (R205). -/
def setupMeas (c : Nat) (path : Path) (m : Nat) (s : State) : State :=
  let st := mdStartTdc m
  let s := freeMeas c s
  let s := s.onMs c (fun _ => { desc := m, path := path })
  let s := (s.w .TD_STATE_USE c 1).w .TD_STATE_OWNER c c
  let s := if st == c then s else (s.w .TD_STATE_USE st 2).w .TD_STATE_OWNER st c
  setMstate c MREADY (s.w .TD_COUNT_COUNT c 0)

/-- TDC.SETUP (R205). ARG0 the primary code, ARG1 the address of the descriptor. -/
def execTdcSetup (d : Desc) (s : State) : Out := .next <| runCmd 0x0801 d
  [args d 2, bad (!tdcOk d.a0), reachD d d.a1 64, dis (s.tdOffUnit d.a0)]
  (fun s => checked (tdcSetupChecks d s) (setupMeas d.a0 d.path (s.winN d.path d.a1 64) s, .done ST_OK) s) s

/-- The checks of a list of up to 16 primary codes. -/
def codeChecks (s : State) (d : Desc) : List (Bool × Nat) :=
  let n := s.listLen d d.a0
  let l := s.listAt d d.a0 (min n 16)
  [s.rfault d d.a0 8, bad (16 < n), reachD d d.a0 (8 + 8 * min n 16), s.rfault d d.a0 (8 + 8 * min n 16), bad (l.any (fun c => !tdcOk c)),
    dis (l.any s.tdOffUnit)]
def codesOf (s : State) (d : Desc) : List Nat := s.listAt d d.a0 (min (s.listLen d d.a0) 16)

/-- The checks of TDC.ARM. A DONE measurement that a followed reference took a TDC from holds it no longer, and cannot gather samples (log
entry 92). -/
def tdcArmChecks (d : Desc) (s : State) : List (Bool × Nat) :=
  codeChecks s d ++ [((codesOf s d).any (fun c => (s.mstate c != MREADY && s.mstate c != MDONE) || s.tdRef c || s.mHolds c != s.mTdcs c), ST_STATE)]
def tdcReleaseChecks (d : Desc) (s : State) : List (Bool × Nat) :=
  codeChecks s d ++ [((codesOf s d).any (fun c => s.mstate c == MACTIVE || s.tdRef c), ST_STATE)]
def tdcAbortChecks (d : Desc) (s : State) : List (Bool × Nat) := codeChecks s d ++ [((codesOf s d).any s.tdRef, ST_STATE)]

/-- TDC.ARM (R206). ARG0 the address of a list of primary codes. -/
def execTdcArm (d : Desc) (s : State) : Out := .next <| runCmd 0x0802 d [args d 1, reachD d d.a0 8]
  (fun s => checked (tdcArmChecks d s)
    (forAll (codesOf s d) (fun c t => t.onMs c (fun m => { m with armAt := some (s.now + 32) })) s, .done ST_OK) s) s

/-- Whether a measurement has a result to give, and that result: the last record, or one of now while ACTIVE (R215). -/
def State.hasResult (s : State) (c : Nat) : Bool :=
  s.mstate c == MACTIVE || ((s.mstate c == MDONE || s.mstate c == MREADY) && (s.ms c).result.isSome)
def State.resultOf (s : State) (c : Nat) : Nat :=
  if s.mstate c == MACTIVE then (s.ms c).record c 6 else (s.ms c).result.getD 0
def tdcResultChecks (d : Desc) (s : State) : List (Bool × Nat) :=
  [(s.hasResult d.a0 && !winOk d.a1 (mdBytes (s.ms d.a0).desc), ST_RANGE), (s.tdRef d.a0 || !s.hasResult d.a0, ST_STATE), s.wdown d.a1 64]

/-- TDC.RESULT (R215). ARG0 the primary code, ARG1 the destination. -/
def execTdcResult (d : Desc) (s : State) : Out := .next <| runCmd 0x0803 d
  [args d 2, bad (!tdcOk d.a0), reachD d d.a1 64, dis (s.tdOffUnit d.a0)]
  (fun s => checked (tdcResultChecks d s) (writeResult (s.ms d.a0) (s.resultOf d.a0) d.a1 d.path s, .done ST_OK) s) s

/-- TDC.ABORT (R215): only ACTIVE measurements end. -/
def execTdcAbort (d : Desc) (s : State) : Out := .next <| runCmd 0x0804 d [args d 1, reachD d d.a0 8]
  (fun s => checked (tdcAbortChecks d s) (forAll (codesOf s d) (fun c t => endMeas c 3 t) s, .done ST_OK) s) s

/-- TDC.RELEASE (R215). -/
def execTdcRelease (d : Desc) (s : State) : Out := .next <| runCmd 0x0805 d [args d 1, reachD d d.a0 8]
  (fun s => checked (tdcReleaseChecks d s) (forAll (codesOf s d) freeMeas s, .done ST_OK) s) s

/-- The channels of a group whose strip mask becomes m: those that leave it are freed, and those in it whose TDC serves nothing else
are reserved (R194, R216). A direct write of ES_MASK reserves the same way (log entry 93). -/
def stripMask (g m : Nat) (cml : Bool) (s : State) : State :=
  let s := forAll ((chansOf g).filter (fun c => s.r .TD_STATE_USE c == 3 && !s.rb .CH_STATUS_REF_USE c)) (fun c t => t.w .TD_STATE_USE c 0) s
  forAll ((maskBits 32 m).map (32 * g + ·)) (fun c t =>
    if t.r .TD_STATE_USE c == 0 && !t.rb .CH_STATUS_REF_USE c then
      tdRefresh c ((t.w .TD_STATE_USE c 3).onTd c (fun x => { x with sysSig := cml }))
    else t) (s.w .ES_MASK_MASK g m)

/-- TDC.STRIP (R216). ARG0 the group, ARG1 the channel mask, ARG2 SIG, ARG3 EDGE, ARG4 the interval. -/
def tdcStripAct (d : Desc) (s : State) : Act :=
  let g := d.a0
  let l := (maskBits 32 d.a1).map (32 * g + ·)
  { checks := [
      (!s.groupIdle g || l.any (fun c => s.rb .CH_STATUS_REF_USE c || s.tdInCal c || s.r .TD_STATE_USE c == 1 || s.r .TD_STATE_USE c == 2),
        ST_STATE),
      (2 ≤ d.a3 || d.a4 == 0 || 2 ^ 32 ≤ d.a4, ST_RANGE)]
    after := ((((stripMask g d.a1 (d.a2 == 1) s).w .ES_CFG_SIG g d.a2).w .ES_CFG_EDGE g d.a3).w .ES_INT_VECTORS g d.a4) }
def tdcStripForm (d : Desc) (s : State) : List (Bool × Nat) := [args d 5, unit 32 d.a0, mask 32 d.a1, choice 2 d.a2, s.gOff d.a0]
def execTdcStrip (d : Desc) (s : State) : Out := .next <| runAct 0x0806 d (tdcStripForm d s) (tdcStripAct d) s

end Sys2Proof.Machine
end

