-- ==== Sys2Proof/Machine/Stop.lean ====
section
/-! DEFINITION. The end of a run and park: completing STOPPING, abandoning an armed start, and every park source
(R36, R62 to R64, R128, R130, R133, R134, R180, R184, R188). -/

namespace Sys2Proof.Machine

/-- The marker outputs of a pitch sit at their inactive level (R128). -/
def marksOff (p : Nat) (s : State) : State :=
  forAll (upTo 8) (fun n t =>
    if t.r .MK_ROUTE_PITCH 0 n == p then { t with mark := tset {} t.mark n { tget {} t.mark n with active := false, q := [] } } else t) s

/-- The tracker enters LOCKED (R24). -/
def lockTracker (p : Nat) (s : State) : State :=
  event EV_REF_LOCK [(5, p)] (s.w .PT_STATUS_TRK p 2)

/-- Whether GREF is present and the edge-clock multiplier is locked on it (R37, R310). -/
def State.grefLocked (s : State) : Bool := s.guy.gref && s.guy.mult

/-- The tracker restarts in ACQUIRE (R21, R36); a Guyline tracker enters LOCKED in the same step where GREF is present
and the multiplier is locked (R24, R37). The results of a follow-mode pitch carry GREF_HOLD while it is not (R37). The spec says of PH_FREQ neither what a
Guyline pitch shows nor what a tracker that starts anew shows: the model shows 125 MHz, and 0 until the first estimate (log
entry 85). -/
def restartTracker (p : Nat) (s : State) : State :=
  let s := (s.w .PT_STATUS_TRK p 1).onPt p (fun x => { x with trk := { acqFrom := s.now } })
  if s.isGref p then
    let s := (s.w .PH_FREQ_FREQ p (2 ^ 24)).w .PT_STATUS_GREF_HOLD p 0
    if s.grefLocked then lockTracker p s else s
  else (s.w .PH_FREQ_FREQ p 0).w .PT_STATUS_GREF_HOLD p (b2n (!s.grefLocked))

/-- At a pitch stop the acquisition ends, unless it is off, done, or still waiting for vector 0 of a later start (R180,
R184). -/
def stopAcq (p : Nat) (park : Bool) (s : State) : State :=
  let a := s.acq p
  if s.astate p == AOFF || s.astate p == ADONE || (a.atStart && a.opened.isNone) then s
  else endAcq p (if park then 16 else 2) s

/-- A CAP_SUMMARY item of every member unit, with the tags of all vectors of the run (R188). It is held until the tags of the last
vectors are final (R33). -/
def summaries (p : Nat) (s : State) : State :=
  let n := (s.pt p).evalNext
  let i := s.vinfo p (n - 1)
  let due := (s.pt p).evalAt + s.capD p
  let wait := n != 0 && decide (s.now < due)
  forAll (s.members p) (fun g t =>
    let id := t.disp.nextId
    let t := post 0 g 3 p (pack [(5, g), (5, t.r .PT_RUN_STOP_CAUSE p), (64, (t.pt p).vec), (32, t.r .CU_RUNFAIL_MAP g),
      (4, t.tagsFrom g 0)]) wait t
    if wait then { t with disp := { t.disp with finals := t.disp.finals ++ [{ item := id, due := due, pitch := p, phase := i.phase, cycle := i.cycle }] } }
    else t) s

/-- An interrupt request latches in SQ_INTP: bit 2 CMD, bit 1 DONE, bit 0 TRACE (R144). -/
def raiseInt (g n : Nat) (s : State) : State :=
  if (s.r .SQ_INTP_PEND g).testBit n then s
  else
    let s := s.w .SQ_INTP_PEND g (s.r .SQ_INTP_PEND g ||| 2 ^ n)
    s.onSq g (fun x => match n with
      | 2 => { x with reqCmd := s.now }
      | 1 => { x with reqDone := s.now }
      | _ => { x with reqTrace := s.now })

/-- A commit that makes PT_POS.SEG equal to SQ_TRACE.SEG raises TRACE; `old` is the segment before it (Table MIC-5). -/
def traceSeg (g old : Nat) (s : State) : State :=
  let t := s.r .SQ_TRACE_SEG g
  if s.rb .SQ_TRACE_EN g && s.r .PT_POS_SEG g == t && old != t then raiseInt g 0 s else s

/-- A run that has ended is reported: EV_PITCH_STOP with its cause, and the summaries (R133, R188). -/
def reportStop (p : Nat) (s : State) : State :=
  summaries p (event EV_PITCH_STOP [(5, p), (5, s.r .PT_RUN_STOP_CAUSE p), (64, (s.pt p).vec)] s)

/-- A run that a park ends is reported at the end of its core cycle, with the highest cause that came in it (R62, R134). -/
def reportEnded (s : State) : State := forAll s.cyc.ended reportStop (onCyc (fun c => { c with ended := [] }) s)

/-- STOPPING ends: the acquisition, the state, the tracker, EV_PITCH_STOP, the summaries, END_ON_STOP measurements, and the
full update of the calibration (R36, R133, R180, R188, R213, R237). -/
def finishStop (p : Nat) (park : Bool) (s : State) : State :=
  let cause := s.r .PT_RUN_STOP_CAUSE p
  let s := stopAcq p park s
  let s := marksOff p ((s.w .PT_RUN_STATE p IDLE).w .PT_RUN_RESUMABLE p (b2n (cause == 0xF)))
  let s := s.onPt p (fun x => { x with stops := [], needFlow := false, late := []
                                       loops := x.loops.map (fun f => { f with latch := none }) })
  let s := if s.r .PT_STATUS_TRK p == 3 then restartTracker p s else s
  let s := if park then onCyc (fun c => { c with ended := c.ended ++ [p], stopped := p :: c.stopped }) s else reportStop p s
  let s := if cause == 0xB then askFlush (forAll (s.pchans p) (parkChan 7) s) else s
  raiseInt p 1 (applyPitch p (stopMeas p s))

/-- An armed start is abandoned: IDLE with its cause, no vector issued (R130). -/
def abandon (p cause : Nat) (s : State) : State :=
  onCyc (fun c => { c with stopped := p :: c.stopped })
    (((s.w .PT_RUN_STATE p IDLE).w .PT_RUN_STOP_CAUSE p cause).onPt p (fun x => { x with armed := none }))

/-- An event of a core cycle refuses starts that the cycle has accepted: their pitches are idle again (R308, R424, R425). -/
def refuseStarts (which : StartNow → Bool) (s : State) : State :=
  let s := forAll ((s.cyc.starts.filter (fun x => which x && !x.refused)).flatMap (fun x => maskBits 32 x.mask)) (fun p t =>
    if t.pstate p == ARMED then (t.w .PT_RUN_STATE p IDLE).onPt p (fun x => { x with armed := none }) else t) s
  onCyc (fun c => { c with starts := c.starts.map (fun x => { x with refused := x.refused || which x }) }) s

/-- A park with cause 0b110 or 0b111 asks for a flush (R436). -/
def parkFlush (pc : Nat) (s : State) : State := if pc = 6 || pc = 7 then askFlush s else s

/-- A second cause of the core cycle in which a run stopped: the higher in Table SEQ-10, which is the lower code, is recorded
(R134). -/
def higherCause (p sc : Nat) (s : State) : State :=
  if sc < s.r .PT_RUN_STOP_CAUSE p then s.w .PT_RUN_STOP_CAUSE p sc else s

/-- A pitch parks: every channel, and its run ends at once with a stop cause (R62, R133). -/
def parkRun (pc sc p : Nat) (s : State) : State :=
  let s := forAll (s.pchans p) (parkChan pc) s
  let s := parkMeas (s.pchans p) [p] s
  match s.pstate p with
  | 1 => abandon p 1 s
  | 2 => finishStop p true (marksOff p (fixStop p sc s))
  | 3 => finishStop p true (marksOff p (if s.cyc.fixed.contains p then higherCause p sc s else s))
  | _ => if s.cyc.stopped.contains p then higherCause p sc s else s

/-- The pitches that a park must reach: those not idle, and those that stopped in the present core cycle (R134). -/
def State.parkable (s : State) (p : Nat) : Bool := !s.idle p || s.cyc.stopped.contains p

def parkPitch (pc sc p : Nat) (s : State) : State := parkFlush pc (parkRun pc sc p s)

/-- A park of a list of channels: every pitch that is not idle and holds one of them parks whole (R62). -/
def parkChans (pc : Nat) (l : List Nat) (s : State) : State :=
  let busy := (upTo 32).filter (fun p => s.parkable p && (s.pchans p).any l.contains)
  let s := forAll busy (parkRun pc 1) s
  parkFlush pc (parkMeas l [] (forAll l (parkChan pc) s))

/-- A park of all channels (R63). -/
def parkAll (pc : Nat) (s : State) : State :=
  let s := forAll ((upTo 32).filter s.parkable) (parkRun pc 1) s
  parkFlush pc (parkAllMeas (forAll (upTo 1024) (parkChan pc) s))

end Sys2Proof.Machine
end

