-- ==== Sys2Proof/Machine/Timeline.lean ====
section
/-! DEFINITION. Pitches, followed references, the phase tracker and reference loss (R11 to R39, R310, R481). -/

namespace Sys2Proof.Machine

/-! ## Reference sources (R18 to R21) -/

/-- The source of a pitch is released; another pitch that follows it keeps it reserved (R19). -/
def releaseSource (p : Nat) (s : State) : State :=
  match s.refTdc p with
  | none => s
  | some n =>
    if (upTo 32).any (fun q => q != p && s.refTdc q == some n) then s
    else
      let s := (s.w .TD_STATE_USE n 0).w .TD_STATE_OWNER n 0
      if n < 1024 then s.w .CH_STATUS_REF_USE n 0 else s

/-- The source of a pitch is taken: its measurement ends PREEMPTED and keeps its result, its calibration fails as preempted, its TDC is
reserved, and a channel holds DRV and DEN at 0 (R19, R68, R213, R224). -/
def takeSource (p : Nat) (s : State) : State :=
  match s.refTdc p with
  | none => s
  | some n =>
    let s := preemptTdcs [n] s
    let s := if s.tdInCal n then { s with cal := { s.cal with preempted := s.cal.preempted ++ [n] } } else s
    let s := (s.w .TD_STATE_USE n 3).onTd n (fun x => { x with sysSig := false })
    if n < 1024 then
      (s.setF .CH_STATUS_REF_USE n).onCh n (fun x => { x with drv := false, den := false, drvQ := [], denQ := [] })
    else s

/-- The six register images of SEQ.FOLLOW in the order of Table TLN-5. -/
abbrev followRegs : List Reg := [.PH_SRC, .PH_LOOP, .PH_FMIN, .PH_FMAX, .PH_LIMIT, .PH_HOLD]

/-- Whether SEQ.FOLLOW's register images are out of range (R21 check 2, R35, Table TLN-5). -/
def followRange (v : List Nat) : Bool :=
  let src := v.getD 0 0
  let loop := v.getD 1 0
  let fmin := v.getD 2 0
  let fmax := v.getD 3 0
  let lim := v.getD 4 0
  let hold := v.getD 5 0
  let kind := bits src 31 30
  let ix := bits src 9 0
  regRsv .PH_SRC src || regRsv .PH_LIMIT lim || regRsv .PH_HOLD hold ||
    kind == 0 || (kind == 1 && ix != 0) || (kind == 2 && (ix == 0 || 16 ≤ ix)) ||
    bits loop 31 20 < 50 || 4000 < bits loop 31 20 || bits loop 19 14 < 8 || 32 < bits loop 19 14 ||
    bits loop 10 0 == 0 || 1000 < bits loop 10 0 ||
    fmin < 0x00333333 || fmax ≤ fmin || 0x06666666 < fmax ||
    bits lim 31 30 == 3 || bits lim 29 16 < 16 || 1000000 < hold || (bits lim 31 30 == 1 && hold == 0)

/-- Whether a source is a channel whose TDC serves an edge strip, or a channel of another pitch that is not idle (R21
check 3). -/
def State.followBusy (s : State) (p src : Nat) : Bool :=
  let c := bits src 9 0
  bits src 31 30 == 3 && ((s.r .TD_STATE_USE c == 3 && !s.rb .CH_STATUS_REF_USE c) ||
    (match s.pitchOf (groupOf c) with | some q => q != p && !s.idle q | none => false))

/-- SEQ.FOLLOW's effect (R21): the registers, the sources, and the tracker in ACQUIRE. -/
def follow (p : Nat) (v : List Nat) (s : State) : State :=
  let s := releaseSource p s
  let s := (followRegs.zip v).foldl (fun t x => t.wImg x.1 p x.2) s
  restartTracker p (takeSource p s)

def followChecks (s : State) (p : Nat) (v : List Nat) : List (Bool × Nat) :=
  [(!s.idle p || s.r .PT_MEMBERS_MASK p == 0, ST_STATE), (followRange v, ST_RANGE), (s.followBusy p (v.getD 0 0), ST_STATE)]

/-- SEQ.FOLLOW (R21). ARG0 the pitch, ARG1 the address of the six images. -/
def seqFollowForm (d : Desc) (s : State) : List (Bool × Nat) := [args d 2, unit 32 d.a0, reachD d d.a1 24, s.pOff d.a0]
def seqFollowAct (d : Desc) (s : State) : Act :=
  let v := s.words d d.a1 6
  let cs := followChecks s d.a0 v
  { checks := cs.take 1 ++ [s.rfault d d.a1 24] ++ cs.drop 1, after := follow d.a0 v s }
def execSeqFollow (d : Desc) (s : State) : Out := .next <| runAct 0x0602 d (seqFollowForm d s) (seqFollowAct d) s

/-- The six images of a pitch's loop settings with one of them as a write gives it. -/
def State.phImages (s : State) (p : Nat) (r : Reg) (v : Nat) : List Nat := followRegs.map (fun q =>
  if q = r then q.fields.foldl (fun m f => m ||| (bits v f.info.hi f.info.lo * 2 ^ f.info.lo)) 0 else s.img q p)

/-- A direct write of a timeline register acts as a SEQ.FOLLOW with the other registers' present values, or has no effect
and sets WR_IGNORED (R481). -/
def phWrite (p : Nat) (r : Reg) (v : Nat) (s : State) : State :=
  match firstBad (followChecks s p (s.phImages p r v)) with
  | some _ => s.setF .PT_STATUS_WR_IGNORED p
  | none => follow p (s.phImages p r v) s

def PhReg.reg : PhReg → Reg
  | .src => .PH_SRC | .loop => .PH_LOOP | .fmin => .PH_FMIN | .fmax => .PH_FMAX | .limit => .PH_LIMIT | .hold => .PH_HOLD

def execPhRegisterWrite (p : Fin 32) (r : PhReg) (v : Nat) (s : State) : Out := .next <| phWrite p.val (PhReg.reg r) v s

/-! ## Pitch formation (R15, R16, R18, R132, R153) -/

/-- SEQ.SERVICE's effect on one sequencer: SVC mode at IDLE, any primer program stopped (R153). -/
def toService (g : Nat) (s : State) : State :=
  if s.rb .SQ_UCTL_UMODE g || (s.gp g).sq.stopped then
    let s := s.onSq g (fun x => { x with stopped := false, masked := false, lastInt := true, gap := 0 })
    (((s.w .SQ_UCTL_UMODE g 0).w .SQ_UCTL_URUN g 0).w .SQ_UPC_UPC g 0).w .SQ_UPC_UPATCH g 0
  else s

/-- Any change of a pitch's groups clears PREPARED and RESUMABLE (R91, R132). -/
def clearPrep (p : Nat) (s : State) : State := s.w .PT_SUPPLY_PREPARED p 0
def touchPitch (p : Nat) (s : State) : State := (clearPrep p s).w .PT_RUN_RESUMABLE p 0

/-- A pitch loses its last group or its leader: PH_SRC at its reset value, tracker OFF (R16, R18). PH_FREQ and GREF_HOLD, of which
the spec says nothing here, stay as they were (log entry 85). -/
def dissolve (p : Nat) (s : State) : State :=
  let s := releaseSource p s
  let s := ((s.w .PH_SRC_KIND p 0).w .PH_SRC_EDGE p 0).w .PH_SRC_INDEX p 0
  ((s.w .PT_MEMBERS_MASK p 0).w .PT_STATUS_TRK p 0).onPt p (fun x => { x with trk := {} })

/-- Take the groups of a mask from another pitch (R16). -/
def loseGroups (m q : Nat) (s : State) : State :=
  let old := s.r .PT_MEMBERS_MASK q
  if old &&& m = 0 then s
  else
    let s := touchPitch q s
    if m.testBit q then dissolve q s else s.w .PT_MEMBERS_MASK q (old - (old &&& m))

/-- The groups of a pitch become those of a mask (R15, R16, R18). -/
def form (p m : Nat) (s : State) : State :=
  let old := s.r .PT_MEMBERS_MASK p
  let before := (upTo 32).map s.pitchOf
  let moved := (maskBits 32 m).filter (fun g => match s.pitchOf g with | some q => q != p | none => false)
  let s := forAll s.active (fun c t => if moved.contains (tdcGroup c) && c < 1024 then endMeas c 2 t else t) s
  let s := forAll ((upTo 32).filter (· != p)) (loseGroups m) s
  let s := touchPitch p s
  let s := if m = 0 then (if old = 0 then s else dissolve p s) else s.w .PT_MEMBERS_MASK p m
  let s := forAll (maskBits 32 m) (fun g t =>
    if t.rb .SQ_UCTL_UMODE g then
      let run := t.rb .SQ_UCTL_URUN g
      let t := toService g t
      if run then event EV_PRIMER_ABORT [(5, g)] t else t
    else t) s
  let s := forAll (upTo 32) (fun g t =>
    if (before.getD g none).isSome && (t.pitchOf g).isNone then forAll (chansOf g) (parkChan 1) t else t) s
  if old = 0 && m != 0 then restartTracker p (((s.w .PH_SRC_KIND p 1).w .PH_SRC_EDGE p 0).w .PH_SRC_INDEX p 0) else s

/-- SEQ.FORM (Table TLN-1). ARG0 the pitch, ARG1 the member mask. -/
def seqFormForm (d : Desc) (s : State) : List (Bool × Nat) := [args d 2, unit 32 d.a0, mask 32 d.a1, s.pOff d.a0, s.gsOff d.a1]
def seqFormAct (d : Desc) (s : State) : Act :=
  let p := d.a0
  let m := d.a1
  { checks := [
      (m != 0 && (!m.testBit p || m % 2 ^ p != 0), ST_RANGE),
      ((maskBits 32 m).any (fun g => match s.pitchOf g with | some q => q != p && !s.idle q | none => false), ST_STATE),
      (!s.idle p, ST_STATE)]
    after := form p m s }
/-- The groups whose pitch an effect changes. -/
def regrouped (s t : State) : List Nat := (upTo 32).filter (fun g => s.pitchOf g != t.pitchOf g)

/-- The groups still to be enabled after the first, one a ramp time: SEQ.FORM completes when none is left. -/
def formEnd (d : Desc) (l : List Nat) (s : State) : State × Reply :=
  match l with
  | [] => (s, .done ST_OK)
  | r => ({ s with jobs := s.jobs ++ [.ramp d r s.now] }, .later)

/-- The first of the groups is ramped with the step, and the rest one every 40 µs; SEQ.FORM completes after the last (R412). -/
def execSeqForm (d : Desc) (s : State) : Out := .next <| runCmd 0x0601 d (seqFormForm d s)
  (fun s =>
    let a := seqFormAct d s
    checked a.checks (formEnd d ((regrouped s a.after).drop 1) a.after) s) s

/-- The next group of a SEQ.FORM is ramped 40 µs after the one before it (R412). -/
def execGroupRamp (s : State) : Out := .next <|
  match s.jobs.find? (Job.rampDue s.now) with
  | some (.ramp d l t) =>
    let s := { s with jobs := s.jobs.filter (· != .ramp d l t) }
    (match l.drop 1 with
      | [] => complete 0x0601 d ST_OK false 0 0 0 s
      | r => { s with jobs := s.jobs ++ [.ramp d r s.now] })
  | _ => s

/-! ## Reference loss (R31 to R37) -/

/-- Whether a result of a vector with a start phase and a start cycle belongs to the detection interval of a loss declared now: it
started after the last accepted edge (R30, R33). -/
def State.inDetection (s : State) (p phase cycle : Nat) : Bool :=
  decide (0 < phDiff phase (s.pt p).trk.lastPhase) && decide (s.now ≤ cycle + s.capD p)

/-- The HOLD tag reaches a group's records that have not left: those waiting in the buffer, those in progress, the strip stamps that wait,
and the tags of the run and of a window that waits for its close (R33). -/
def holdUnit (p g : Nat) (s : State) : State :=
  let n := (s.pt p).evalNext
  let i := s.vinfo p (n - 1)
  let now' := n != 0 && s.inDetection p i.phase i.cycle
  let a := s.acq p
  let e := match a.trig with | some t => s.vinfo p (t + a.post - 1) | none => {}
  s.onCu g (fun u =>
    let u := { u with
      buf := u.buf.map (fun x => if s.inDetection p x.phase x.cycle then { x with tags := x.tags ||| 1 } else x)
      stripQ := u.stripQ.map (fun h =>
        if s.inDetection p (h.phi / 64) h.cycle then { h with tags := h.tags ||| 1 } else h)
      winTags := if a.endAt.isSome && s.inDetection p e.phase e.cycle then u.winTags ||| 1 else u.winTags }
    if now' then
      { u with
        newest := tset 0 u.newest 0 n, rawTags := if u.rawData.isEmpty then u.rawTags else u.rawTags ||| 1
        redTags := if u.redN = 0 then u.redTags else u.redTags ||| 1, stripTags := if u.stripN = 0 then u.stripTags else u.stripTags ||| 1 }
    else u)

/-- The HOLD tag reaches the summaries that are still held (R33, R188): bit 106 of the payload is the lowest tag bit. -/
def holdSums (p : Nat) (s : State) : State :=
  let l := (s.disp.finals.filter (fun f => f.pitch == p && s.inDetection p f.phase f.cycle)).map (·.item)
  let tag := fun (x : Item) => if l.contains x.id then { x with payload := x.payload ||| 2 ^ 106 } else x
  { s with disp := { s.disp with items := s.disp.items.map tag, refused := s.disp.refused.map tag } }

/-- The HOLD tag reaches the stamps of a measurement that lie after the last accepted edge, and with the last of them the samples it formed
(R33, R201). -/
def holdMeas (late : Stamp → Bool) (m : Meas) : Meas :=
  let tag := fun (x : Stamp) => if late x then { x with tags := x.tags ||| 1 } else x
  { m with
    queue := m.queue.map tag, openStart := m.openStart.map tag, starts := m.starts.map tag, stops := m.stops.map tag
    rise := m.rise.map tag, fall := m.fall.map tag
    freqTags := if m.freqM != 0 && late m.freqLast then m.freqTags ||| 1 else m.freqTags
    tags := match m.lastStamp with | some x => if late x then m.tags ||| 1 else m.tags | none => m.tags }

/-- The HOLD tag reaches what was already recorded of vectors after the last accepted edge (R33). -/
def holdLate (p : Nat) (s : State) : State :=
  let s := holdSums p (forAll (s.members p) (holdUnit p) s)
  let s := forAll (s.pchans p) (fun c t =>
    t.onCh c (fun x => if x.firstFail != 0 && t.inDetection p x.firstPhase x.firstCycle then { x with firstFail := x.firstFail ||| 2 ^ 120 } else x)) s
  forAll s.active (fun c t => if (t.ms c).pitch == some p then t.onMs c (holdMeas (fun x => t.inDetection p (x.phi / 64) (x.t / ETU))) else t) s

/-- Keep the loop as it stood, for a second check that fails in the same core cycle (R37). -/
def noteLost (p : Nat) (x : LostLoop) (s : State) : State := s.onPt p (fun y => { y with trk := { y.trk with lost := some x } })

/-- The loop of a pitch when its loss is declared. -/
def State.lostLoop (s : State) (p : Nat) : LostLoop :=
  { at' := s.now, last := (s.pt p).trk.last, pred := (s.pt p).trk.pred, freq := s.r .PH_FREQ_FREQ p }

/-- Declare reference loss with the failing causes: MISSING 4, WINDOW 2, ERROR 1 (R31 to R34). -/
def declareLoss (p causes : Nat) (s : State) : State :=
  let first := if causes.testBit 2 then 4 else if causes.testBit 1 then 2 else 1
  let x := s.lostLoop p
  let s := (s.setF .PT_STATUS_REF_LOST p).setW .PT_STATUS_CAUSE p causes
  let s := event EV_REF_LOSS [(5, p), (3, first), (64, (s.pt p).trk.lastPhase)] s
  noteLost p x <| match s.pstate p with
  | 0 => restartTracker p (holdLate p s)
  | 1 => restartTracker p (abandon p 3 (holdLate p s))
  | st =>
    let s := holdLate p ((s.w .PT_STATUS_TRK p 3).onPt p (fun x => { x with trk := { x.trk with lossAt := some s.now } }))
    match s.r .PH_LIMIT_POLICY p with
    | 1 => if st = RUNNING then planStop p { cause := 3, when' := .boundary (s.now + 24) } s else s
    | 2 => parkPitch 5 3 p s
    | _ => s

/-! ## The tracker loop (R22 to R30) -/

/-- The expected period before the first estimate is that of FMAX (Table TLN-4A). -/
def State.expected (s : State) (p : Nat) : Nat :=
  if s.r .PT_STATUS_TRK p == 1 && (s.pt p).trk.count < 64 then periodOf (s.r .PH_FMAX_FMAX p) else periodOf (s.r .PH_FREQ_FREQ p)

/-- At most 50 ppm per core cycle since the last stamp (R22). -/
def clampFreq (f new cycles : Nat) : Nat :=
  let d := f * 50 * cycles / 1000000
  if f + d < new then f + d else if new + d < f then f - d else new

def State.onTrk (s : State) (p : Nat) (f : Tracker → Tracker) : State := s.onPt p (fun x => { x with trk := f x.trk })

/-- Whether the loss of a pitch was declared in the present core cycle. -/
def State.lostNow (s : State) (p : Nat) : Bool := match (s.pt p).trk.lost with | some x => x.at' == s.now | none => false

/-- Causes that fail in the core cycle of a loss already declared set their bits too (R37). -/
def addCause (p causes : Nat) (s : State) : State := s.setW .PT_STATUS_CAUSE p causes

/-- The error statistics of an accepted edge: the peak, and the RMS over the last 1,024 edges (Table TLN-5). Both registers hold
whole numbers: the peak in whole sub-beats and the root are rounded down, and before 1,024 edges the RMS is over those there
are (log entry 83). -/
def trackErr (p : Nat) (e16 : Int) (s : State) : State :=
  let s := s.hi .PH_ERR_ERR_PEAK p (min 65535 (e16.natAbs / 16))
  let l := (((s.pt p).trk.errs) ++ [e16.natAbs * e16.natAbs]).reverse.take 1024 |>.reverse
  (s.onTrk p (fun k => { k with errs := l })).w .PH_ERR_ERR_RMS p (min 65535 (isqrt (l.foldl (· + ·) 0 / max 1 l.length)))

/-- What an edge at time t asks of the loop (R22, R31): the error e in 1/16 sub-beat, with the demand beyond 50 ppm per core
cycle counted as the phase that it would move in one period; the frequency after it; and whether it fails the range check or
the error check. -/
structure LoopStep where
  e16 : Int
  freq : Nat
  out : Bool
  big : Bool
deriving DecidableEq, Repr

def State.loopStep (s : State) (p : Nat) (last : Option Nat) (pred f t : Nat) : LoopStep :=
  let per := max 1 (periodOf f)
  let e16 : Int := ((t : Int) - (pred : Int)) * 2 ^ 20 / (per : Int)
  let want := Config.loopFreq (s.r .PH_LOOP_BW_KHZ p) (s.r .PH_LOOP_ZETA p) e16 f
  let f' := clampFreq f want (max 1 ((t - last.getD t) / ETU))
  let e16 := e16 + ((want : Int) - (f' : Int)) * 2 ^ 20 / (max 1 f : Nat)
  { e16 := e16, freq := f', out := f' < s.r .PH_FMIN_FMIN p || s.r .PH_FMAX_FMAX p < f'
    big := decide ((16 * s.r .PH_LIMIT_ERR_LIM p : Nat) < e16.natAbs) }

/-- WINDOW 2 and ERROR 1, where an edge fails them. -/
def LoopStep.causes (x : LoopStep) : Nat := (if x.out then 2 else 0) + (if x.big then 1 else 0)

/-- Whether the timeout of four expected periods after the last accepted edge falls in the present core cycle or before it (R30). -/
def State.missing (s : State) (p : Nat) : Bool :=
  match (s.pt p).trk.last with
  | some a => decide (a + 4 * s.expected p < s.now * ETU + ETU)
  | none => false

/-- Whether the filter rejects a stamp (Table TLN-4A). -/
def tooEarly (last : Option Nat) (t per : Nat) : Bool := match last with | some a => decide (2 * (t - a) < per) | none => false

/-- The first 64 stamps of ACQUIRE estimate the frequency from their spacing (R24). -/
def acquireStamp (p t : Nat) (s : State) : State :=
  let k := (s.pt p).trk
  let n := k.count + 1
  let first := if n = 1 then t else k.firstStamp
  let s := s.onTrk p (fun k => { k with count := n, firstStamp := first, last := some t, lockCnt := 0 })
  if n < 64 then s
  else
    let f := if t = first then 0 else 63 * 2 ^ 46 / (t - first)
    (s.w .PH_FREQ_FREQ p f).onTrk p (fun k => { k with pred := t + periodOf f })

/-- An accepted edge of a locked tracker: one beat more, or beat 0 after the lock (R13); the first at or after the start instant
of an armed pitch is the one that it uses (R25). -/
def beatEdgeAt (p t nxt : Nat) (s : State) : State :=
  s.onPt p (fun x =>
    let k := x.trk
    let phi := if k.zeroNext then 0 else phAdd k.lastPhase 65536
    { x with trk := { k with
        last := some t, pred := nxt, zeroNext := false, segs := if k.zeroNext then [] else k.segs, lastPhase := phi
        startEdge := match k.startEdge, x.armed with
          | none, some a => if a.atCycle * ETU ≤ t then some phi else none
          | e, _ => e } })

/-- An edge that closes the loop in ACQUIRE counts toward the lock criterion (R24). -/
def lockStamp (p t nxt : Nat) (x : LoopStep) (s : State) : State :=
  let good := !x.out && decide (x.e16.natAbs < 4 * s.r .PH_LIMIT_ERR_LIM p)
  let c := if good then (s.pt p).trk.lockCnt + 1 else 0
  let s := s.onTrk p (fun k => { k with last := some t, pred := nxt, lockCnt := c })
  if 2 ^ (8 + s.r .PH_LOOP_LOCK_EDGES p) ≤ c then lockTracker p (s.onTrk p (fun k => { k with zeroNext := true })) else s

/-- A stamp of the edge that a follow-mode tracker follows (R24, R30, R31): filter, then acquisition, then the loop with its
range and error checks. -/
def followStamp (p t : Nat) (s : State) : State :=
  let k := (s.pt p).trk
  let st := s.r .PT_STATUS_TRK p
  if s.lostNow p then
    (match k.lost with
      | some x =>
        if tooEarly x.last t (periodOf x.freq) then s
        else addCause p (s.loopStep p x.last x.pred x.freq t).causes s
      | none => s)
  else if st != 1 && st != 2 then s
  else if tooEarly k.last t (s.expected p) then s.inc .PT_STATUS_GLITCH_CNT p
  else if st == 1 && k.count < 64 then acquireStamp p t s
  else
    let x := s.loopStep p k.last k.pred (s.r .PH_FREQ_FREQ p) t
    if st == 2 && (x.out || x.big) then declareLoss p (x.causes + (if s.missing p then 4 else 0)) s
    else
      let s := trackErr p x.e16 (s.w .PH_FREQ_FREQ p x.freq)
      let nxt := Config.loopTime (s.r .PH_LOOP_BW_KHZ p) (s.r .PH_LOOP_ZETA p) x.e16 x.freq k.pred
      if st == 2 then beatEdgeAt p t nxt s else lockStamp p t nxt x s

/-- A rising edge of GREF at time t (R30, R37): filtered with its period of 8 ns, then the last accepted edge of every Guyline
tracker in LOCKED. -/
def grefStamp (t : Nat) (s : State) : State :=
  if !s.guy.gref then s
  else if 2 * (t - s.guy.grefAt) < 2 ^ 22 then
    forAll ((upTo 32).filter s.isGref) (fun p t => if t.r .PT_STATUS_TRK p == 2 then t.inc .PT_STATUS_GLITCH_CNT p else t) s
  else
    let phi := s.grefPhase t
    forAll ((upTo 32).filter s.isGref) (fun p u =>
      if u.r .PT_STATUS_TRK p == 2 then u.onTrk p (fun k => { k with last := some t, lastPhase := phi }) else u)
      (onGuy (fun (g : Guy) => { g with grefAt := t }) s)

/-- The edge of a source that a pitch's tracker stamps (R20): EDGE 0 rising, 1 falling. -/
def State.stampsEdge (s : State) (p : Nat) (rising : Bool) : Bool := rising == (s.r .PH_SRC_EDGE p == 0)

/-- A stamp of a followed reference's TDC: each tracker that follows the source, and whose EDGE selects this edge, runs its own
loop on it (R19, R20). The TDC stamps and counts the edge where some tracker takes it, unless it is lost (R196, R219). -/
def sourceStamp (n : Nat) (rising : Bool) (t coarse : Nat) (s : State) : State :=
  let l := (upTo 32).filter (fun p => s.refTdc p == some n && s.stampsEdge p rising)
  if l.isEmpty then s
  else match tdcEdge n t coarse s with
    | (true, s) => forAll l (fun p u => followStamp p t u) s
    | (false, s) => s

/-- No accepted stamp for four expected periods (R30): loss with cause MISSING. -/
def refMissing (p : Nat) (s : State) : State :=
  if !s.isGref p && s.r .PT_STATUS_TRK p == 2 && s.missing p then declareLoss p 4 s else s

/-- ACQ_TIMEOUT expires (Table TLN-3): OFF with EV_REF_NOLOCK. -/
def execAcqTimeout (p : Fin 32) (s : State) : Out := .next <|
  if s.r .PT_STATUS_TRK p.val == 1 && !s.isGref p.val && s.r .PH_SRC_KIND p.val != 0 &&
      (s.pt p.val).trk.acqFrom + 1000000 * s.r .PH_LOOP_ACQ_TIMEOUT p.val ≤ s.now then
    event EV_REF_NOLOCK [(5, p.val)] (s.w .PT_STATUS_TRK p.val 0)
  else s

/-- HOLD_LIMIT µs after the declaration of loss (R35): the pitch parks. -/
def holdLimit (p : Nat) (s : State) : State :=
  match (s.pt p).trk.lossAt with
  | some a =>
    if s.r .PT_STATUS_TRK p == 3 && s.r .PH_HOLD_HOLD_LIMIT p != 0 && a + 1000 * s.r .PH_HOLD_HOLD_LIMIT p ≤ s.now then
      parkPitch 5 4 p s else s
  | none => s

/-- Whether the timeout of 32 ns after the last accepted rising edge of GREF falls in the present core cycle or before it (R37). -/
def State.grefMissing (s : State) : Bool := s.guy.grefAt + 4 * 2 ^ 22 < s.now * ETU + ETU

/-- GREF is lost for every pitch that follows Guyline; follow-mode results carry GREF_HOLD (R37). A second cause in the core
cycle of the loss sets its bit as well. -/
def loseGref (cause : Nat) (s : State) : State :=
  if !s.guy.gref then forAll ((upTo 32).filter (fun p => s.isGref p && s.lostNow p)) (fun p t => addCause p cause t) s
  else
    let phi := s.grefPhase s.guy.grefAt
    let s := { s.w .TM_STATUS_GREF_DISC 0 0 with guy := { s.guy with gref := false, inRange := false, mult := false, lossAt := s.now } }
    forAll (upTo 32) (fun p t =>
      if t.isGref p then
        if t.r .PT_STATUS_TRK p == 2 then
          declareLoss p cause (t.onTrk p (fun k => { k with lastPhase := phi }))
        else t
      else if t.r .PH_SRC_KIND p != 0 then t.setF .PT_STATUS_GREF_HOLD p else t) s

/-- No GREF edge for 32 ns (R37). -/
def grefTimeout (s : State) : State := if s.grefMissing then loseGref 4 s else s

/-- The 10 µs frequency measurement of GREF ends (Table GUY-3A); outside ±200 ppm it is reference loss, of the range
check's cause WINDOW. -/
def grefCheck (ppm : Int) (s : State) : State :=
  if ppm.natAbs ≤ 200 then { s with guy := { s.guy with inRange := true, rangeFrom := if s.guy.inRange then s.guy.rangeFrom else s.now } }
  else loseGref (2 + (if s.guy.gref && s.grefMissing then 4 else 0)) { s with guy := { s.guy with inRange := false } }

/-- GREF has been in range for 100 µs (Table GUY-3A): present again, and the multiplier relocks. -/
def execGrefReturn (s : State) : Out := .next <|
  if s.guy.gref || !s.guy.inRange || s.now < s.guy.rangeFrom + 100000 then s
  else { s.setF .TM_STATUS_GREF_DISC with guy := { s.guy with gref := true, mult := false, grefAt := s.now * ETU } }

/-- The multiplier locks on GREF (R37): Guyline trackers in ACQUIRE enter LOCKED and GREF_HOLD ends. -/
def execMultiplierLock (s : State) : Out := .next <|
  if !s.guy.gref || s.guy.mult then s
  else
    let s := { s with guy := { s.guy with mult := true, everLocked := true } }
    forAll (upTo 32) (fun p t =>
      let t := t.w .PT_STATUS_GREF_HOLD p 0
      if t.isGref p && t.r .PT_STATUS_TRK p == 1 then lockTracker p t else t) s

/-- The deferred calibration of TDCX00 completes with its measured statistics (R234). -/
def execTdcx00CalDone (x : CalRaw) (s : State) : Out := .next <|
  if s.rb .GY_STATUS_CALPEND && s.guy.everLocked then calTdcx00 x (s.w .GY_STATUS_CALPEND 0 0) else s

/-- The rate of a segment that begins at phase `phi` and time t and meets the tracker's estimate one core cycle later, or the
rate of the held frequency where the estimate has not moved on (log entry 84). -/
def Tracker.rate (k : Tracker) (r phi : Nat) (t : Int) : Nat :=
  let d := phDiff (k.phaseAt r (t + (ETU : Int))) phi
  if d ≤ 0 then r else ETU * 65536 / d.toNat

/-- The segment that the timeline map of a pitch gains at a time t, one core cycle after its last and at the phase at which that
one ends, or its first, at the tracker's estimate (R26, R27); none while the last is still to come. In LOCKED its rate leads to the
estimate of the loop one core cycle on, and in HOLDOVER (`held`) it is that of the held frequency (R32). -/
def nextSeg (k : Tracker) (t r : Nat) (held : Bool) : Option MapSeg :=
  let seg := fun (n phi t : Nat) => { k := n, phi := phi, t := t, r := if held then r else k.rate r phi t : MapSeg }
  match k.segs.getLast? with
  | some m => if t < m.t + ETU || m.r = 0 then none else some (seg (m.k + 1) m.endPhi (m.t + ETU))
  | none => some (seg 0 (k.phaseAt r t) t)

/-- Whether a segment is still kept: it ends no more than 256 core cycles ago (R200). -/
def State.segKept (s : State) (m : MapSeg) : Bool := decide (s.now * ETU ≤ m.t + 257 * ETU)

/-- The map segment of core cycle now + 16 (R26, R27). -/
def execMapSegmentPublish (p : Fin 32) (s : State) : Out := .next <|
  let k := (s.pt p.val).trk
  let st := s.r .PT_STATUS_TRK p.val
  let r := periodOf (s.r .PH_FREQ_FREQ p.val)
  if s.isGref p.val || (st != 2 && st != 3) || k.zeroNext || r = 0 then s
  else match nextSeg k ((s.now + 16) * ETU) r (st == 3) with
    | none => s
    | some m => s.onTrk p.val (fun k => { k with segs := (k.segs ++ [m]).filter (s.segKept) })

end Sys2Proof.Machine
end

