-- ==== Sys2Proof/Machine/Supply.lean ====
section
/-! DEFINITION. Channel configuration, timing sets, and vector supply: bindings, staging, quotas, rings, and prepared
pitches (R48 to R52, R67, R69 to R106). -/

namespace Sys2Proof.Machine

/-! ## Channel configuration (R45, R46, R67) -/

/-- The registers that CH.CONFIG writes, in the order of Table CHN-8. -/
def chRegs : List Reg := [.CH_CFG, .CH_SER_POLY, .CH_SER_SEED, .CH_SER_SH_LO, .CH_SER_SH_HI, .CH_UTAB_LO, .CH_UTAB_HI]

/-- Whether the images of one channel break the range rules of CH.CONFIG: a reserved field, SER_MODE 0b11, or a
user-table entry in use that holds 0xE or 0xF. -/
def chImgBad (v : List Nat) : Bool :=
  let cfg := v.getD 0 0
  let ent := v.getD 5 0 + 2 ^ 32 * v.getD 6 0
  regRsv .CH_CFG cfg || bits cfg 27 26 == 3 || (upTo (bits cfg 25 22 + 1)).any (fun k => 14 ≤ bits ent (4 * k + 3) (4 * k))

/-- CH.CONFIG. ARG0 the address of the channel mask, ARG1 the address of seven images for each masked channel. -/
def chConfigForm (d : Desc) (_ : State) : List (Bool × Nat) := [args d 2, reachD d d.a0 128]
def chConfigAct (d : Desc) (s : State) : Act :=
  let l := chansIn (s.chanMask d d.a0)
  let v := fun i => s.words d (d.a1 + 28 * i) 7
  { checks := [s.rfault d d.a0 128, reachD d d.a1 (28 * l.length), dis (l.any (fun c => !s.gEn (groupOf c))),
      (l.any (fun c => !s.groupIdle (groupOf c)), ST_STATE), s.rfault d d.a1 (28 * l.length),
      ((upTo l.length).any (fun i => chImgBad (v i)), ST_RANGE)]
    after := (upTo l.length).foldl (fun t i => (chRegs.zip (v i)).foldl (fun t x => t.wImg x.1 (l.getD i 0) x.2) t) s }
def execChConfig (d : Desc) (s : State) : Out := .next <| runAct 0x0301 d (chConfigForm d s) (chConfigAct d) s

/-! ## Timing sets (R48, R49) -/

/-- A channel entry of an image (Table CHN-5), its reserved content, and its image. -/
def tEntryOf (n : Nat) : TEntry :=
  { d0 := bits n 23 0, d1 := bits n 47 24, e0 := bits n 71 48, e1 := bits n 95 72, s0 := bits n 119 96, s1 := bits n 143 120
    fmt := bits n 146 144, smode := bit n 147, e1en := bit n 148 }
def tEntryRsv (n : Nat) : Bool := bits n 191 149 != 0 || 5 ≤ bits n 146 144
def tEntryImg (e : TEntry) : Nat :=
  pack [(24, e.d0), (24, e.d1), (24, e.e0), (24, e.e1), (24, e.s0), (24, e.s1), (3, e.fmt), (1, b2n e.smode), (1, b2n e.e1en)]

/-- Entry i of an image of 800 bytes as a number. -/
def tSlice (n i : Nat) : Nat := bits n (256 + 192 * i + 191) (256 + 192 * i)

/-- The timing set that an image spells (Tables CHN-4 and CHN-5), and the image of a stored set. -/
def tsetOf (n : Nat) : TSet :=
  { period := bits n 31 0, valid := bit n 32
    ents := (upTo 32).foldl (fun t i => tset {} t i (tEntryOf (tSlice n i))) [] }
def TSet.image (t : TSet) : List Byte :=
  bytesOf 32 (pack [(32, t.period), (1, b2n t.valid)]) ++ (upTo 32).flatMap (fun i => bytesOf 24 (tEntryImg (tget {} t.ents i)))

/-- The checks of an image after the state check, in the order of R49. -/
def tsetChecks (n : Nat) : List (Bool × Nat) :=
  let t := tsetOf n
  let es := (upTo 32).map (tget {} t.ents)
  let lim := min (4 * t.len) (2 ^ 24)
  [(bits n 255 33 != 0 || (upTo 32).any (fun i => tEntryRsv (tSlice n i)), ST_RANGE),
    (t.valid && t.period != 0 && t.period < 1024, ST_RANGE),
    (t.valid && es.any (fun e => e.used.any (fun x => lim ≤ x)), ST_RANGE),
    (t.valid && es.any (fun e => e.d1 ≤ e.d0 || (e.e1en && e.e1 ≤ e.e0) || (e.smode && e.s1 ≤ e.s0)), ST_RANGE)]

/-- The busy check of the timing-set commands and PAT.BIND. -/
abbrev State.gBusy (s : State) (g : Nat) : Bool × Nat := (!s.groupIdle g, ST_STATE)

/-- TSET.WRITE (R49). ARG0 the group, ARG1 the set, ARG2 the address of the image. -/
def tsetWriteForm (d : Desc) (s : State) : List (Bool × Nat) :=
  [args d 3, unit 32 d.a0, unit 256 d.a1, reachD d d.a2 800, s.gOff d.a0]
def tsetWriteAct (d : Desc) (s : State) : Act :=
  let n := s.winN d.path d.a2 800
  { checks := [s.gBusy d.a0, s.rfault d d.a2 800] ++ tsetChecks n
    after := s.onGp d.a0 (fun x => { x with tsets := tset {} x.tsets d.a1 (tsetOf n) }) }
def execTsetWrite (d : Desc) (s : State) : Out := .next <| runAct 0x0401 d (tsetWriteForm d s) (tsetWriteAct d) s

/-- TSET.READ (R49). ARG0 the group, ARG1 the set, ARG2 the destination. -/
def execTsetRead (d : Desc) (s : State) : Out := .next <| runCmd 0x0402 d
  [args d 3, unit 32 d.a0, unit 256 d.a1, reachD d d.a2 800, s.gOff d.a0, s.wdown d.a2 800]
  (fun s => (s.winStore d.path d.a2 (tget {} (s.gp d.a0).tsets d.a1).image, .done ST_OK)) s

/-- TSET.INVALIDATE (R49). ARG0 the group, ARG1 the set. -/
def tsetInvalidateForm (d : Desc) (s : State) : List (Bool × Nat) := [args d 2, unit 32 d.a0, unit 256 d.a1, s.gOff d.a0]
def tsetInvalidateAct (d : Desc) (s : State) : Act :=
  { checks := [s.gBusy d.a0]
    after := s.onGp d.a0 (fun x => { x with tsets := tset {} x.tsets d.a1 { tget {} x.tsets d.a1 with valid := false } }) }
def execTsetInvalidate (d : Desc) (s : State) : Out := .next <|
  runAct 0x0403 d (tsetInvalidateForm d s) (tsetInvalidateAct d) s

/-! ## Block formats (R69 to R73) -/

/-- The EMPTY tag (R72). -/
abbrev EMPTY : Nat := 0xFF

/-- Whether a tag is one that no image may carry (Table VSP-2). -/
def tagBad (t : Nat) : Bool := t % 4 == 3 || t / 8 != 0

/-- Whether a byte string holds symbol 0xF in either half of a byte (R69, R46). -/
def hasF (l : List Byte) : Bool := l.any (fun b => b.toNat % 16 == 15 || b.toNat / 16 == 15)

/-- The stored bytes of a vector block, and with its timing-set block (Table VSP-1, R75). -/
def encBytes (t : Nat) : Nat := if t % 4 = 0 then 1024 else 64
def tagBytes (t : Nat) : Nat := encBytes t + (if bit t 2 then 64 else 0)

/-- Whether the stored bytes of a vector block break step 9 of Table VSP-4. -/
def blockBad (t : Nat) (b : List Byte) : Bool :=
  match t % 4 with
  | 0 => hasF b
  | 1 => hasF (b.take 16) || (b.drop 16).any (· != 0#8)
  | _ => false

def State.limit (s : State) (g : Nat) : Nat := s.r .PG_LIMIT_LIMIT g
def State.vecByte (s : State) (g b : Nat) : Nat := 64 * s.r .PG_VEC_BASE_BASE g + 1024 * b
def State.tsByte (s : State) (g b : Nat) : Nat := 64 * s.r .PG_TS_BASE_BASE g + 64 * b
def State.tagByte (s : State) (g b : Nat) : Nat := 64 * s.r .PG_TAG_BASE_BASE g + b

/-- The tag of a block address; at or beyond LIMIT it counts as EMPTY (R72, R111). -/
def State.tag (s : State) (g b : Nat) : Nat := if b < s.limit g then s.loadN 0 (s.tagByte g b) 1 else EMPTY

/-! ## PAT.BIND (R74) -/

/-- The checks of PAT.BIND before it reads the dictionary. -/
def bindFault (d : Desc) (s : State) : Bool :=
  let lim := d.a4
  let l := arraysOf d.a1 d.a2 d.a3 lim
  let others := ((upTo 32).filter (· != d.a0)).flatMap s.arrays
  lim == 0 || 2 ^ 27 < lim || d.a1 % 1024 != 0 || d.a2 % 64 != 0 || d.a3 % 64 != 0 || l.any (fun e => spaceSize 0 < e.1 + e.2) ||
    clash (d.a1, 1024 * lim) (d.a2, 64 * lim) || clash (d.a1, 1024 * lim) (d.a3, lim) || clash (d.a2, 64 * lim) (d.a3, lim) ||
    l.any (fun e => others.any (clash e)) || spaceSize d.a5 < d.a6 + 4096

/-- Bind a group: the registers, the dictionary, EMPTY in every tag, and PREPARED of its pitch cleared. -/
def bind (g vec ts tag lim : Nat) (dict : Tab Nat) (s : State) : State :=
  let s := (((s.w .PG_VEC_BASE_BASE g (vec / 64)).w .PG_TS_BASE_BASE g (ts / 64)).w .PG_TAG_BASE_BASE g (tag / 64)).w .PG_LIMIT_LIMIT g lim
  let s := (s.onGp g (fun x => { x with dict := dict })).store 0 tag (List.replicate lim 0xFF#8)
  match s.pitchOf g with | some p => clearPrep p s | none => s

/-- PAT.BIND (R74). ARG0 the group, ARG1 VEC_BASE, ARG2 TS_BASE, ARG3 TAG_BASE, ARG4 LIMIT, ARG5 the dictionary's place
(0 VCM, 1 CX0, 2 CX1), ARG6 its address; `portFail` says that its deep-store port fails under the dictionary read. -/
def execPatBind (d : Desc) (portFail : Bool) (s : State) : Out := .next <| runCmd 0x0501 d
  [unit 32 d.a0, choice 3 d.a5, s.gOff d.a0, dis (d.a5 != 0 && !s.xEn (d.a5 - 1))]
  (fun s =>
    let b := s.load d.a5 d.a6 4096
    let dict := (upTo 256).foldl (fun t i => tset 0 t i (s.loadN d.a5 (d.a6 + 16 * i) 16)) []
    checked [s.gBusy d.a0, (bindFault d s, ST_RANGE), ((portFail && d.a5 != 0) || s.anyBad d.a5 d.a6 4096 || s.vcmDown, ST_FAULT), (hasF b, ST_RANGE)]
      ((bind d.a0 d.a1 d.a2 d.a3 d.a4 dict { s with jobs := s.jobs ++ [.bind d d.a0] }), .later) s) s

/-- Whether VCM throttling stops bulk traffic to an address of a list: its stack reads 95 °C or has not cooled below 92 °C since
(R253). -/
def State.bulkStopped (s : State) (l : List Nat) : Bool := l.any (fun a => s.r .VS_STAT_TMODE (vcmPort a / 32) == 2)

/-- The last tag write of a bind completes (R74); the tag writes are bulk traffic, which throttling stops (R253). -/
def execPatBindDone (g : Fin 32) (s : State) : Out := .next <|
  match s.jobs.find? (Job.isBind g.val) with
  | some j =>
    if s.bulkStopped ((granules j.desc.a3 j.desc.a4).map (64 * ·)) then s
    else complete 0x0501 j.desc ST_OK false 0 0 0 { s with jobs := s.jobs.filter (· != j) }
  | none => s

/-! ## Rings (R96 to R100) -/

def State.ringSize (s : State) (r : Nat) : Nat := 4096 * s.r .SR_CFG_PAGES r

/-- The pool byte of a count of ring bytes (R97). -/
def State.ringByte (s : State) (r x : Nat) : Nat := pageAt (s.rg r).page + x % max 1 (s.ringSize r)

/-- n bytes of a ring from a byte count on, around its end; the length is at most the ring's size. -/
def State.ringLoad (s : State) (r x n : Nat) : List Byte :=
  let rest := s.ringSize r - x % max 1 (s.ringSize r)
  if n ≤ rest then s.load 3 (s.ringByte r x) n
  else s.load 3 (s.ringByte r x) rest ++ s.load 3 (pageAt (s.rg r).page) (n - rest)
def State.ringBad (s : State) (r x n : Nat) : Bool :=
  let rest := s.ringSize r - x % max 1 (s.ringSize r)
  if n ≤ rest then s.anyBad 3 (s.ringByte r x) n
  else s.anyBad 3 (s.ringByte r x) rest || s.anyBad 3 (pageAt (s.rg r).page) (n - rest)
def ringStore (r x : Nat) (b : List Byte) (s : State) : State :=
  let rest := s.ringSize r - x % max 1 (s.ringSize r)
  if b.length ≤ rest then s.store 3 (s.ringByte r x) b
  else (s.store 3 (s.ringByte r x) (b.take rest)).store 3 (pageAt (s.rg r).page) (b.drop rest)

/-- A source of staged or streamed bytes: a memory space, or 100 + n for ring n. -/
def State.srcLoad (s : State) (sp a n : Nat) : List Byte := if 100 ≤ sp then s.ringLoad (sp - 100) a n else s.load sp a n
def State.srcBad (s : State) (sp a n : Nat) : Bool := if 100 ≤ sp then s.ringBad (sp - 100) a n else s.anyBad sp a n

/-- The status of a fault in a source. -/
def State.srcSt (s : State) (sp a n : Nat) : Nat :=
  if 100 ≤ sp then
    let rest := s.ringSize (sp - 100) - a % max 1 (s.ringSize (sp - 100))
    let st := s.faultSt 3 (s.ringByte (sp - 100) a) (min n rest)
    if st = ST_FAULT && rest < n then s.faultSt 3 (pageAt (s.rg (sp - 100)).page) (n - rest) else st
  else s.faultSt sp a n

/-- Guaranteed pages in use: quotas and ring pages (R80). -/
def State.quotaPages (s : State) (g : Nat) : Nat := s.r .PG_QUOTA_PAT_PAGES g + s.r .PG_QUOTA_CAP_PAGES g
def State.allocated (s : State) : Nat := ((upTo 32).map s.quotaPages).foldl (· + ·) 0 + s.ringPages

/-- POOL_FREE.UNALLOC follows the division (Table VSP-8). -/
def unalloc (s : State) : State := s.w .POOL_FREE_UNALLOC 0 (47104 - s.allocated)

/-- PAT.QUOTA (R80). ARG0 the group, ARG1 the pattern quota, ARG2 the capture quota. R80 gives no status for a quota above the 16,384
pages of Table VSP-5 that fits the sum: the model gives ST_RANGE, after the two checks of the rule (log entry 89). -/
def patQuotaForm (d : Desc) (s : State) : List (Bool × Nat) := [args d 3, unit 32 d.a0, s.gOff d.a0]
def patQuotaAct (d : Desc) (s : State) : Act :=
  { checks := [s.gBusy d.a0, (47104 < s.allocated - s.quotaPages d.a0 + d.a1 + d.a2, ST_NOSPACE),
      (16384 < d.a1 || 16384 < d.a2, ST_RANGE)]
    after :=
      let s := unalloc ((s.w .PG_QUOTA_PAT_PAGES d.a0 d.a1).w .PG_QUOTA_CAP_PAGES d.a0 d.a2)
      match s.pitchOf d.a0 with | some p => clearPrep p s | none => s }
def execPatQuota (d : Desc) (s : State) : Out := .next <| runAct 0x0503 d (patQuotaForm d s) (patQuotaAct d) s

/-- Where a new ring of n pages begins: the lowest run of the 47,104 divided pages, 1,024 to 48,127, that no ring in use
holds (log entry 28). -/
def State.ringPlace (s : State) (n : Nat) : Option Nat :=
  let used := ((upTo 48).filter (fun r => s.r .SR_CFG_USE r != 0)).map (fun r => ((s.rg r).page, s.r .SR_CFG_PAGES r))
  let cand := (1024 :: used.map (fun e => e.1 + e.2)).filter (fun c => c + n ≤ 48128 && !used.any (clash (c, n)))
  match cand with
  | [] => none
  | a :: l => some (l.foldl min a)

/-- Free a ring (R96). -/
def freeRing (r : Nat) (s : State) : State :=
  let s := if s.r .SR_CFG_USE r == 1 then s.w .PT_SUPPLY_RING (s.r .SR_CFG_PITCH r) 0x3F else s
  let s := ((((s.w .SR_CFG_USE r 0).w .SR_CFG_PITCH r 0).w .SR_CFG_PAGES r 0).w .SR_HEAD_HEAD r 0).w .SR_TAIL_TAIL r 0
  unalloc (s.onRg r (fun _ => {}))

/-- PAT.RING (R96). ARG0 the ring, ARG1 the use (0 STREAM, 1 STAGE), ARG2 the pitch of STREAM, ARG3 the pages, ARG4 the
producer (all ones HOST, or the deep-store port), ARG5 its start address, ARG6 its rows. R96 gives no status for a pitch that has a
stream ring already, nor for a page count outside 16 to 4,096: the model gives ST_STATE, and ST_RANGE after the two checks of the rule
(log entry 89). -/
def patRingForm (d : Desc) (s : State) : List (Bool × Nat) :=
  [unit 48 d.a0, choice 2 d.a1, unit 32 d.a2, (d.a1 == 1 && d.a2 != 0, ST_RANGE),
    (2 ≤ d.a4 && d.a4 != ALL1, ST_RANGE),
    (d.a4 == ALL1 && (d.a5 != 0 || d.a6 != 0), ST_RANGE), dis (d.a1 == 0 && (s.pOff d.a2).1),
    dis (d.a4 != ALL1 && !s.xEn d.a4)]
def patRingAct (d : Desc) (s : State) : Act :=
  let r := d.a0
  let use := s.r .SR_CFG_USE r
  if d.a3 = 0 then
    { checks := [(use == 1 && !s.idle (s.r .SR_CFG_PITCH r), ST_STATE)], after := freeRing r s }
  else
    { checks := [(use != 0 || (d.a1 == 0 && (!s.idle d.a2 || s.r .PT_SUPPLY_RING d.a2 != 0x3F)), ST_STATE),
        (47104 < s.allocated + d.a3 || (d.a3 ≤ 4096 && (s.ringPlace d.a3).isNone), ST_NOSPACE), (d.a3 < 16 || 4096 < d.a3, ST_RANGE)]
      after :=
        let page := (s.ringPlace d.a3).getD 1024
        let s := ((s.w .SR_CFG_USE r (d.a1 + 1)).w .SR_CFG_PITCH r d.a2).w .SR_CFG_PAGES r d.a3
        let s := (s.w .SR_HEAD_HEAD r 0).w .SR_TAIL_TAIL r 0
        let s := s.onRg r (fun _ => { page := page, src := if d.a4 = ALL1 then none else some { port := d.a4, addr := d.a5, rows := d.a6 } })
        unalloc (if d.a1 = 0 then s.w .PT_SUPPLY_RING d.a2 r else s) }
def execPatRing (d : Desc) (s : State) : Out := .next <| runAct 0x0504 d (patRingForm d s) (patRingAct d) s

/-! ## Staging (R75 to R78) -/

/-- A stage chunk header (Table VSP-3). -/
structure ChunkHdr where
  fmt : Nat
  count : Nat
  base : Nat
  len : Nat
  rsv : Nat
deriving DecidableEq, Repr

def State.chunkHdr (s : State) (sp a : Nat) : ChunkHdr :=
  let n := ofBytes (s.srcLoad sp a 64)
  { fmt := bits n 15 0, count := bits n 31 16, base := bits n 71 32, len := bits n 103 72, rsv := bits n 511 104 }

/-- The tags of a chunk. -/
def State.chunkTags (s : State) (sp a count : Nat) : List Nat := (s.srcLoad sp (a + 64) count).map (·.toNat)

/-- The length in 64-byte units that the tags of a chunk imply (R75). -/
def impliedLen (count : Nat) (tags : List Nat) : Nat :=
  1 + ceilDiv count 64 + (tags.map tagBytes).foldl (· + ·) 0 / 64

/-- Whether a range of n blocks from b overlaps the used range of a pitch (R90); an empty range overlaps nothing. -/
def State.inUsed (s : State) (p b n : Nat) : Bool :=
  match (s.pt p).used with
  | some (lo, hi) => n != 0 && b ≤ hi && lo < b + n
  | none => false

/-- Steps 4 to 7 of Table VSP-4 on a chunk; `portFail` says that a deep-store port fails while the header and the tags are read. -/
def State.chunkFault (s : State) (g sp a : Nat) (portFail : Bool) : Option Nat :=
  let h := s.chunkHdr sp a
  let area := 64 * ceilDiv h.count 64
  let tags := s.chunkTags sp a h.count
  let pad := (s.srcLoad sp (a + 64 + h.count) (area - h.count))
  firstBad [(s.vcmDown || (portFail && sp < 100), ST_FAULT), (s.srcBad sp a (64 + area), s.srcSt sp a (64 + area)),
    ((match s.pitchOf g with | some p => !s.idle p && s.inUsed p h.base h.count | none => false), ST_STATE),
    (h.fmt != 1 || h.count == 0 || s.limit g < h.base + h.count || h.rsv != 0 || tags.any tagBad || pad.any (· != 0#8), ST_RANGE),
    (h.len != impliedLen h.count tags || (sp < 100 && spaceSize sp < a + 64 * h.len), ST_RANGE)]

/-- What the start of a PAT.STAGE comes to: a status with the first block not written, waiting for its chunk, or copying. -/
inductive StageStart where
  | fail (st first : Nat)
  | wait
  | go (j : Job)
deriving DecidableEq, Repr

/-- The chunk at the tail of a stage ring is wholly committed. -/
def State.chunkHere (s : State) (r : Nat) : Bool :=
  let n := s.r .SR_HEAD_HEAD r - s.r .SR_TAIL_TAIL r
  s.r .SR_CFG_USE r == 2 && 64 ≤ n && 64 * (s.chunkHdr (100 + r) (s.r .SR_TAIL_TAIL r)).len ≤ n

/-- Begin with a chunk that is there. -/
def State.stageChunk (s : State) (d : Desc) (sp a : Nat) (portFail : Bool) : StageStart :=
  let h := s.chunkHdr sp a
  match s.chunkFault d.a0 sp a portFail with
  | some st => .fail st h.base
  | none => .go (.stage d d.a0 h.base h.count a sp)

/-- Steps 1 to 3 (Table VSP-4): a ring's chunks go to the stages in order. Where they fail, BASE has not been read, so that the spec
names no first block not written: the completion carries 0 (log entry 89). -/
def State.stageStart (s : State) (d : Desc) (portFail : Bool) : StageStart :=
  let r := d.a2
  if s.limit d.a0 = 0 then .fail ST_STATE 0
  else if d.a1 < 2 then
    if spaceSize (1 + d.a1) < d.a2 + 64 then .fail ST_RANGE 0 else s.stageChunk d (1 + d.a1) d.a2 portFail
  else if s.chunkHere r && !s.jobs.any (fun j => match j with
      | .stageRing _ _ x _ => x == r
      | .stage _ _ _ _ _ sp => sp == 100 + r
      | _ => false) then s.stageChunk d (100 + r) (s.r .SR_TAIL_TAIL r) false
  else .wait

/-- The chunk at the tail of a ring is consumed (log entry 29). -/
def eatChunk (r : Nat) (s : State) : State :=
  let t := s.r .SR_TAIL_TAIL r
  s.w .SR_TAIL_TAIL r (min (s.r .SR_HEAD_HEAD r) (t + 64 * (s.chunkHdr (100 + r) t).len))

/-- Swap a job for another, or drop it. -/
def swapJob (a b : Job) (s : State) : State := { s with jobs := s.jobs.map (fun j => if j = a then b else j) }
def dropJob (a : Job) (s : State) : State := { s with jobs := s.jobs.filter (· != a) }

/-- A stage ends with its completion (R76). -/
def stageEnd (j : Job) (st written first : Nat) (s : State) : State :=
  complete 0x0502 j.desc st false written (if st = ST_OK then 0 else first) 0 (dropJob j s)

/-- Begin the next stages of a group that has none in hand (R78). -/
def beginStages (g : Nat) : Nat → State → State
  | 0, s => s
  | n + 1, s =>
    match s.jobs.find? (Job.isStage g) with
    | some (.stageNew d x pf) =>
      let j : Job := .stageNew d x pf
      (match s.stageStart d pf with
        | .fail st first => beginStages g n (stageEnd j st 0 first (if d.a1 = 2 && s.limit g != 0 then eatChunk d.a2 s else s))
        | .wait => swapJob j (.stageRing d g d.a2 s.now) s
        | .go k => swapJob j k s)
    | _ => s
def nextStages (g : Nat) (s : State) : State := beginStages g (s.jobs.length + 1) s

/-- The oldest stage that waits for a chunk of a ring takes it once it is there. -/
def ringStages (r : Nat) : Nat → State → State
  | 0, s => s
  | n + 1, s =>
    if s.chunkHere r && !s.jobs.any (fun j => match j with | .stage _ _ _ _ _ sp => sp == 100 + r | _ => false) then
      match s.jobs.find? (fun j => match j with | .stageRing _ _ x _ => x == r | _ => false) with
      | some j =>
        (match s.stageChunk j.desc (100 + r) (s.r .SR_TAIL_TAIL r) false with
          | .fail st first => ringStages r n (nextStages j.desc.a0 (stageEnd j st 0 first (eatChunk r s)))
          | .wait => s
          | .go k => swapJob j k s)
      | none => s
    else s

/-- PAT.STAGE (R76). ARG0 the group, ARG1 the source (0 CX0, 1 CX1, 2 a stage ring), ARG2 the byte address or the ring; `portFail` says
that the port fails while it reads the header or the tags of this stage. -/
def execPatStage (d : Desc) (portFail : Bool) (s : State) : Out := .next <| runCmd 0x0502 d
  [args d 3, unit 32 d.a0, choice 3 d.a1, bad (d.a1 == 2 && 48 ≤ d.a2), s.gOff d.a0, dis (d.a1 < 2 && !s.xEn d.a1)]
  (fun s => (nextStages d.a0 { s with jobs := s.jobs ++ [.stageNew d d.a0 portFail] }, .later)) s

/-- Copy the blocks of a chunk from the i-th on: vector data and timing set before the tag (R77). It ends with the status
and the number of blocks written (steps 8 to 10). -/
def copyBlocks (g base sp : Nat) (failAt : Option Nat) : List Nat → Nat → Nat → State → State × Nat × Nat
  | [], i, _, s => (s, ST_OK, i)
  | t :: r, i, a, s =>
    if failAt = some i || s.srcBad sp a (tagBytes t) then (s, s.srcSt sp a (tagBytes t), i)
    else
      let b := s.srcLoad sp a (encBytes t)
      if blockBad t b then (s, ST_RANGE, i)
      else
        let s := s.store 0 (s.vecByte g (base + i)) b
        let s := if bit t 2 then s.store 0 (s.tsByte g (base + i)) (s.srcLoad sp (a + encBytes t) 64) else s
        copyBlocks g base sp failAt r (i + 1) (a + tagBytes t) (s.store 0 (s.tagByte g (base + i)) [BitVec.ofNat 8 t])

/-- The copy of a stage ends (R76, R77, R78). `portFailAt` is the block at which the source's port fails. A copy into a throttled stack
does not end (R253). -/
def execPatStageDone (g : Fin 32) (portFailAt : Option Nat) (s : State) : Out := .next <|
  match s.jobs.find? (Job.isStage g.val) with
  | some (.stage d x base count a sp) =>
    if s.bulkStopped ((upTo count).map (fun i => s.vecByte g.val (base + i))) then s
    else
      let tags := s.chunkTags sp a count
      let (s, st, n) := copyBlocks g.val base sp portFailAt tags 0 (a + 64 + 64 * ceilDiv count 64) s
      let s := match s.pitchOf g.val with
        | some p => if s.idle p && 0 < n && s.inUsed p base n then clearPrep p s else s
        | none => s
      let s := if st = ST_RANGE then event EV_STAGE_REJECT [(2, 0), (6, g.val), (64, base + n)] s else s
      let s := if 100 ≤ sp then eatChunk (sp - 100) s else s
      let s := nextStages g.val (stageEnd (.stage d x base count a sp) st n (base + n) s)
      if 100 ≤ sp then ringStages (sp - 100) (s.jobs.length + 1) s else s
  | _ => s

/-- A ring's chunk is not wholly committed within 1 s (step 3). -/
def execStageChunkTimeout (g : Fin 32) (s : State) : Out := .next <|
  match s.jobs.find? (Job.isStage g.val) with
  | some (.stageRing d x r since) =>
    if since + 1000000000 ≤ s.now then nextStages g.val (stageEnd (.stageRing d x r since) ST_TIMEOUT 0 0 s) else s
  | _ => s

/-! ## Stream rows (R98 to R100) -/

/-- Byte g of a row's TAGS. -/
def rowTag (n g : Nat) : Nat := bits n (8 * g + 7) (8 * g)

/-- The bytes of a row by its header: the header and each member group's blocks (R98). -/
def State.rowLen (s : State) (p n : Nat) : Nat := 64 + ((s.members p).map (fun g => tagBytes (rowTag n g))).foldl (· + ·) 0

/-- Whether a row header fails: its number, a tag, a byte of a group outside the pitch, or its reserved bits (R99). -/
def State.rowHdrBad (s : State) (p row n : Nat) : Bool :=
  bits n 319 256 != row || bits n 511 320 != 0 ||
    (upTo 32).any (fun g => if (s.members p).contains g then tagBad (rowTag n g) else rowTag n g != 0)

/-- Whether a group's block in a row fails the checks of step 9; the list holds the member groups left. -/
def rowDataBad (n : Nat) : List Nat → List Byte → Bool
  | [], _ => false
  | g :: r, b => blockBad (rowTag n g) (b.take (encBytes (rowTag n g))) || rowDataBad n r (b.drop (tagBytes (rowTag n g)))

/-- A rejected row (R99). -/
def rejectRow (r : Nat) (s : State) : State :=
  event EV_STAGE_REJECT [(2, 1), (6, r), (64, (s.rg r).row)] (s.setF .SR_STATUS_REJECT r)

/-- SR_HEAD after a rejected row: the rejected row and all later bytes of the commit do not count as committed. HEAD only grows (R97), so a
partial row that an earlier commit left there stays counted (log entry 90). -/
def refuseRow (r old : Nat) (s : State) : State := (rejectRow r s).w .SR_HEAD_HEAD r (max old (s.rg r).accepted)

/-- Check the complete rows up to a byte count in order (R99); a trailing partial row waits, and a rejected row and everything after it is
not committed. -/
def acceptRows (r old : Nat) : Nat → State → State
  | 0, s => s
  | k + 1, s =>
    let x := s.rg r
    let p := s.r .SR_CFG_PITCH r
    let head := s.r .SR_HEAD_HEAD r
    if head < x.accepted + 64 then s
    else
      let n := ofBytes (s.ringLoad r x.accepted 64)
      let len := s.rowLen p n
      if head < x.accepted + len then s
      else if s.rowHdrBad p x.row n || rowDataBad n (s.members p) (s.ringLoad r (x.accepted + 64) (len - 64)) then refuseRow r old s
      else acceptRows r old k (s.onRg r (fun y => { y with accepted := y.accepted + len, row := (y.row + 1) % 2 ^ 64 }))

/-- A write of SR_COMMIT (R97, R99). -/
def srCommit (r v : Nat) (s : State) : State :=
  let h := s.r .SR_HEAD_HEAD r
  if v ≤ h || s.ringSize r < v - s.r .SR_TAIL_TAIL r || 2 ^ 64 ≤ v then s.setF .SR_STATUS_RING_OVF r
  else
    let s := s.w .SR_HEAD_HEAD r v
    if s.r .SR_CFG_USE r == 1 then acceptRows r h ((v - (s.rg r).accepted) / 64 + 1) s
    else ringStages r (s.jobs.length + 1) s
def execSrCommit (r : Fin 48) (v : Nat) (s : State) : Out := .next <| srCommit r.val v s

/-- A good row of a deep-store producer enters the ring (R98). -/
def fedRow (r : Nat) (z : RingSrc) (s : State) : State :=
  let h := s.r .SR_HEAD_HEAD r
  let len := s.rowLen (s.r .SR_CFG_PITCH r) (s.loadN (1 + z.port) z.addr 64)
  let s := (ringStore r h (s.load (1 + z.port) z.addr len) s).w .SR_HEAD_HEAD r (h + len)
  s.onRg r (fun y => { y with
    accepted := y.accepted + len, row := (y.row + 1) % 2 ^ 64
    src := some { z with addr := z.addr + len, rows := z.rows - 1 } })

/-- Rows of a deep-store producer arrive one after another under the same checks (R99); a rejected row stops it. -/
def feedRows (r : Nat) : Nat → State → State
  | 0, s => s
  | k + 1, s =>
    let x := s.rg r
    match x.src with
    | none => s
    | some z =>
      let p := s.r .SR_CFG_PITCH r
      let h := s.r .SR_HEAD_HEAD r
      let n := s.loadN (1 + z.port) z.addr 64
      let len := s.rowLen p n
      if z.rows = 0 || s.r .SR_CFG_USE r != 1 then s
      else if s.rowHdrBad p x.row n || rowDataBad n (s.members p) (s.load (1 + z.port) (z.addr + 64) (len - 64)) then
        (rejectRow r s).onRg r (fun y => { y with src := some { z with rows := 0 } })
      else if s.ringSize r < h + len - s.r .SR_TAIL_TAIL r then s
      else
        feedRows r k (fedRow r z s)
def execDeepStoreRowFeed (r : Fin 48) (rows : Nat) (s : State) : Out := .next <| feedRows r.val rows s

/-! ## Residency and PAT.PREPARE (R87 to R92) -/

/-- The vectors that play in a number of beats at the pitch's fastest rate (R88): 65,536 sub-beats a beat at 125 MHz. -/
def State.vecsIn (s : State) (p beats : Nat) : Nat :=
  match s.pMinLead p with
  | some n => ceilDiv (beats * 65536 * s.rhoMax p) (2 ^ 24 * max 1 n)
  | none => 0

/-- The landing and lead spans in beats: 4 µs and 3 µs. -/
abbrev LANDING_BEATS : Nat := 500
abbrev LEAD_BEATS : Nat := 375

/-- The frames of a loop's path with the inner loops played once: one pass meets every segment of an inner loop. -/
def innerOnce (l : List (Nat × Nat × Nat)) : List (Nat × Nat × Nat) :=
  (l.dropLast.map (fun f => (f.1, 1, f.2.2))) ++ (match l.getLast? with | some f => [f] | none => [])

/-- What can follow a pass within a loop: the predicted path, and the target of a CJUMP. -/
def State.loopNext (s : State) (p : Nat) (x : PathPos) : List PathPos :=
  let e := s.seg p x.seg
  ((match s.pathNext p { x with left := 0 } with | some y => [y] | none => []) ++
    (if x.waitIp.isNone && segAction e == ACJUMP then [s.pathEnter p (segTarget e) x.loops x.calls] else [])).map
      (fun y => { y with left := 0, loops := innerOnce y.loops })

/-- The places that a loop can play from a list of places until its outermost frame comes round or is gone (R88); at most n. -/
def State.loopReach (s : State) (p : Nat) : Nat → List PathPos → List PathPos → List PathPos
  | 0, _, seen => seen
  | _, [], seen => seen
  | n + 1, x :: r, seen =>
    if seen.contains x || s.r .SQ_TBL_LEN_COUNT p ≤ x.seg || !(x.loops.getLast?.any (fun f => decide (2 ≤ f.2.1))) then s.loopReach p n r seen
    else s.loopReach p n (s.loopNext p x ++ r) (x :: seen)

/-- The segments that the LOOP at an instruction address can repeat. -/
def State.loopSegs (s : State) (p a k : Nat) : List Nat :=
  let n := s.r .SQ_TBL_LEN_COUNT p
  ((s.loopReach p (16 * (n + s.progLen p + 1)) [{ s.pathEnter p k [(k, 2, a)] [] with left := 0 }] []).map (·.seg)).eraseDups

/-- The loop bodies of a pitch and its RESIDENT segments (R88): repeats, backward jumps, instruction-mode loops, and the segments that
WAIT plays, which the worked example of R125 counts among the loop bodies. -/
def State.bodies (s : State) (p : Nat) : List Nat :=
  let n := s.r .SQ_TBL_LEN_COUNT p
  let fromTable := (upTo n).filter (fun k => 2 ≤ segRepeat (s.seg p k) || segResident (s.seg p k) ||
    (upTo n).any (fun j =>
      let e := s.seg p j
      (segAction e == AJUMP || segAction e == ACJUMP) && segTarget e ≤ k && k ≤ j))
  let fromProg := (s.pt p).prog.zipIdx.flatMap (fun (i, a) =>
    if finOp i == 3 then [finSeg i]
    else if finOp i == 0 && !finEnd i then
      s.loopSegs p a (finSeg i)
    else [])
  (fromTable ++ fromProg).eraseDups.filter (· < n)

/-- The vectors of a path as pieces of passes (segment and vectors taken), until n vectors or the path's end; `k` bounds
the pieces. -/
def State.pathSpans (s : State) (p : Nat) : Nat → Nat → Option PathPos → List (Nat × Nat)
  | 0, _, _ => []
  | _, 0, _ => []
  | _, _, none => []
  | k + 1, n, some x =>
    let len := max 1 (segLen (s.seg p x.seg))
    let reps := min x.left (n / len)
    (x.seg, min n len) :: s.pathSpans p k (n - min n (len * (reps + 1))) (s.pathNext p { x with left := x.left - reps })

/-- The landings of a pitch: every CJUMP target, and every place that the flow program enters (R88). -/
def State.landings (s : State) (p : Nat) : List (Option PathPos) :=
  let n := s.r .SQ_TBL_LEN_COUNT p
  let targets := (((upTo n).filter (fun k => segAction (s.seg p k) == ACJUMP)).map (fun k => segTarget (s.seg p k))).eraseDups
  targets.map (fun t => some (s.pathEnter p t [] [])) ++
    ((s.pt p).prog.zipIdx.filter (fun (i, _) => finOp i < 4 && !(finOp i == 0 && finEnd i))).map
      (fun (_, a) => s.pathFlow p 8 a [] [])

/-- The block addresses of the first n vectors of a pass of a segment. -/
def State.blocksOf (s : State) (p k n : Nat) : List Nat :=
  let e := s.seg p k
  (upTo ((segVoff e + n - 1) / 64 + 1)).map (fun i => segBlock e + i)

/-- The resident items of a pitch as lists of segment pieces (R88). R89 counts pages by item and does not say whether a loop body of
several segments is one item: the model takes each segment as one (log entry 89). -/
def State.items (s : State) (p : Nat) : List (List (Nat × Nat)) :=
  let n := s.vecsIn p LANDING_BEATS
  (s.bodies p).map (fun k => [(k, segLen (s.seg p k))]) ++ (s.landings p).map (fun x => s.pathSpans p (n + 1) n x)

/-- The block addresses of an item, each once (R80). -/
def State.itemBlocks (s : State) (p : Nat) (l : List (Nat × Nat)) : List Nat := (l.flatMap (fun (k, n) => s.blocksOf p k n)).eraseDups

/-- The granules of a block, and the pages of an item of a group (R89). -/
def tagGran (t : Nat) : Nat := (if t % 4 = 0 then 16 else 1) + b2n (bit t 2)
def State.itemPages (s : State) (g : Nat) (l : List Nat) : Nat :=
  ceilDiv ((l.map (fun b => tagGran (s.tag g b))).foldl (· + ·) 0 + ceilDiv l.length 64 + 1) 64

/-- The pages of the lead reserve: 3 µs of PLAIN blocks with timing-set blocks, and 2 fill pages (R89). -/
def State.leadPages (s : State) (p : Nat) : Nat :=
  let n := ceilDiv (s.vecsIn p LEAD_BEATS) 64
  ceilDiv (17 * n + ceilDiv n 64 + 1) 64 + 2

/-- The first stream segment that breaks check 2 of R90, or the leader's want of a valid set (the pitch's number then). -/
def State.prepRange (s : State) (p : Nat) : Option Nat :=
  let held := (s.items p).flatten.map (·.1)
  match (upTo (s.r .SQ_TBL_LEN_COUNT p)).find? (fun k =>
      let e := s.seg p k
      segStream e && (segVoff e != 0 || segRepeat e != 1 || held.contains k)) with
  | some k => some k
  | none => if (s.pMinLead p).isNone then some p else none

/-- The first resident block of a member group that meets a condition, with its group. -/
def State.findBlock (s : State) (p : Nat) (f : Nat → Nat → Bool) : Option (Nat × Nat) :=
  (s.members p).findSome? (fun g => ((s.items p).flatMap (s.itemBlocks p)).findSome? (fun b => if f g b then some (b, g) else none))

/-- Whether stored resident data of a block meets an uncorrectable VCM error. -/
def State.blockUE (s : State) (g b : Nat) : Bool :=
  let t := s.tag g b
  s.anyBad 0 (s.tagByte g b) 1 || s.anyBad 0 (s.vecByte g b) (encBytes t) || (bit t 2 && s.anyBad 0 (s.tsByte g b) 64)

/-- The resident pages of a group of a pitch. -/
def State.residentPages (s : State) (p g : Nat) : Nat :=
  ((s.items p).map (fun l => s.itemPages g (s.itemBlocks p l))).foldl (· + ·) 0

/-- The status of PAT.PREPARE after line 1 with its two result words: the failing segment, block and group, or group
(R90). -/
def State.prepFault (s : State) (p : Nat) : Option (Nat × Nat × Nat) :=
  match s.prepRange p with
  | some k => some (ST_RANGE, k, 0)
  | none =>
    match s.findBlock p (fun g b => s.tag g b == EMPTY) with
    | some (b, g) => some (ST_RANGE, b, g)
    | none =>
      match (s.members p).find? (fun g => s.r .PG_QUOTA_PAT_PAGES g < s.residentPages p g + s.leadPages p) with
      | some g => some (ST_NOSPACE, g, 0)
      | none => none

/-- Line 1 of PAT.PREPARE, and the unbound member that it names. -/
def State.prepState (s : State) (p : Nat) : Bool :=
  !s.idle p || (s.members p).isEmpty || (s.members p).any (fun g => s.limit g == 0)
def State.prepUnbound (s : State) (p : Nat) : Nat :=
  if s.idle p then ((s.members p).find? (fun g => s.limit g == 0)).getD 0 else 0

/-- Unpin a pitch's pages and free its lead and its far prefetch (R88, R92). -/
def unpin (p : Nat) (s : State) : State :=
  forAll (s.members p) (fun g t =>
    ((((t.w .PG_PIN_RESIDENT g 0).w .PG_PIN_RESERVE g 0).w .PG_USE_HELD g 0).w .PG_USE_BORROWED g 0).onGp g (fun x =>
      { x with leadFull := false, pool := [] })) s

/-! ### Pattern data in the pool (R81, R85, R87, R88) -/

/-- A block of the path with the first and the last of its vectors that play, and whether the segment takes its own timing set for all
of them. -/
structure Span where
  block : Nat
  lo : Nat
  hi : Nat
  tso : Bool
deriving DecidableEq, Repr

/-- The blocks that n vectors of entry e from index j on take (R108). -/
def spansOf (e j n : Nat) : List Span :=
  let a := segVoff e + j
  let z := a + n - 1
  if n = 0 then []
  else (upTo (z / 64 - a / 64 + 1)).map (fun i => {
    block := segBlock e + a / 64 + i, lo := if i = 0 then a % 64 else 0
    hi := if a / 64 + i = z / 64 then z % 64 else 63, tso := segTso e })

/-- What the pool gives: no data with the stop cause that it leads to, or a value. -/
inductive Got where
  | absent (cause : Nat)
  | here (v : Nat)
deriving DecidableEq, Repr

/-- A granule that the pool holds for a group. -/
def State.gran (s : State) (g n : Nat) : Option Gran := tget none (s.gp g).pool n

/-- n bytes within a granule of a group's pattern data, by their VCM address: not there (UNDERRUN), uncorrectable (DATA_ERROR), or
their value. -/
def State.got (s : State) (g a n : Nat) : Got :=
  match s.gran g (a / 64) with
  | none => .absent 7
  | some x => if x.bad then .absent 5 else .here (bits x.data (8 * (a % 64) + 8 * n - 1) (8 * (a % 64)))

/-- The tag of a block as the pool holds it; at or beyond LIMIT it counts as EMPTY (R72, R111). -/
def State.tagGot (s : State) (g b : Nat) : Got := if s.limit g ≤ b then .here EMPTY else s.got g (s.tagByte g b) 1

/-- The granules of a block's vectors and timing sets by its tag: a PLAIN block has 16, of 4 vectors each. -/
def State.vecGrans (s : State) (g t : Nat) (x : Span) : List Nat :=
  let v := s.vecByte g x.block / 64
  (if t % 4 = 0 then (upTo (x.hi / 4 - x.lo / 4 + 1)).map (fun i => v + x.lo / 4 + i) else [v]) ++
    (if bit t 2 && !x.tso then [s.tsByte g x.block / 64] else [])

/-- The granules that a span takes, as far as the pool tells: its tag line, and what its tag calls for. -/
def State.needs (s : State) (g : Nat) (x : Span) : List Nat :=
  if s.limit g ≤ x.block then []
  else s.tagByte g x.block / 64 ::
    (match s.tagGot g x.block with | .here t => if t = EMPTY then [] else s.vecGrans g t x | .absent _ => [])

/-- Whether all data of a span is pinned. -/
def State.pinnedSpan (s : State) (g : Nat) (x : Span) : Bool :=
  (s.needs g x).all (fun n => match s.gran g n with | some y => y.res | none => false)

/-- A granule is put into a group's pool data. -/
def putGran (g n : Nat) (x : Gran) (s : State) : State := s.onGp g (fun y => { y with pool := tset none y.pool n (some x) })

/-- A granule read from VCM into the pool where it is not there yet; one that VCM holds uncorrectable stays so after its refetch and
sets DATA_ERROR (R104). -/
def poolFill (g : Nat) (res : Bool) (n : Nat) (s : State) : State :=
  match s.gran g n with
  | some x => if res && !x.res then putGran g n { x with res := true } s else s
  | none =>
    let bad := s.anyBad 0 (64 * n) 64
    putGran g n { data := s.loadN 0 (64 * n) 64, bad := bad, res := res } (if bad then s.setF .PG_STATUS_DATA_ERROR g else s)

/-- Spans filled in order; the engine stops at an EMPTY block and sets NOT_LOADED (R104). -/
def fillSpans (g : Nat) (res : Bool) : List Span → State → State
  | [], s => s
  | x :: r, s =>
    let s := if s.limit g ≤ x.block then s else poolFill g res (s.tagByte g x.block / 64) s
    if s.tagGot g x.block = .here EMPTY then (s.setF .PG_STATUS_NOT_LOADED g).onGp g (fun y => { y with met := true })
    else fillSpans g res r ((s.needs g x).foldl (fun t n => poolFill g res n t) s)

/-- The spans of a list that are not pinned, until they hold n vectors, and how many vectors are left then. -/
def State.takeSpans (s : State) (g : Nat) : Nat → List Span → List Span × Nat
  | n, [] => ([], n)
  | n, x :: r =>
    if n = 0 then ([], 0)
    else if s.pinnedSpan g x then s.takeSpans g n r
    else
      let y := { x with hi := min x.hi (x.lo + n - 1) }
      let (l, m) := s.takeSpans g (n - (y.hi + 1 - y.lo)) r
      (y :: l, m)

/-- The data that is not resident ahead on the predicted path of a group: the spans of its first n vectors (R87). The data of stream
segments lie in their ring. `k` bounds the passes looked at. -/
def State.ahead (s : State) (p g : Nat) : Nat → Nat → Option (PathPos × Nat) → List Span
  | 0, _, _ => []
  | _, 0, _ => []
  | _, _, none => []
  | k + 1, n, some (x, j) =>
    let e := s.seg p x.seg
    let (l, m) := if segStream e then ([], n) else s.takeSpans g n (spansOf e j (segLen e - j))
    l ++ s.ahead p g k m ((s.pathNext p { x with left := 0 }).map (fun y => (y, 0)))

/-- The passes that a walk along a path looks at. -/
abbrev PATH_MAX : Nat := 65536

/-- A group's lead reserve filled from a place of the path. -/
def fillLead (p : Nat) (pos : Option (PathPos × Nat)) (g : Nat) (s : State) : State :=
  fillSpans g false (s.ahead p g PATH_MAX (s.vecsIn p LEAD_BEATS) pos) s

/-- The pages that a number of granules takes. -/
abbrev pagesOf (n : Nat) : Nat := ceilDiv n 64

/-- The resident items of a group pinned: every granule of their blocks (R88). -/
def pinItems (p g : Nat) (s : State) : State :=
  fillSpans g true (((s.items p).flatMap (s.itemBlocks p)).eraseDups.map (fun b => { block := b, lo := 0, hi := 63, tso := false })) s

/-- The lowest and highest block address that a segment of the table names (R90). -/
def State.usedRange (s : State) (p : Nat) : Option (Nat × Nat) :=
  let l := ((upTo (s.r .SQ_TBL_LEN_COUNT p)).map (s.seg p)).filter (fun e => !segStream e)
  match l with
  | [] => none
  | e :: r => some (r.foldl (fun m x => min m (segBlock x)) (segBlock e), r.foldl (fun m x => max m (segLastBlock x)) (segLastBlock e))

/-- PAT.PREPARE (R90). ARG0 the pitch. -/
def execPatPrepare (d : Desc) (s : State) : Out := .next <| runCmd 0x0505 d [args d 1, unit 32 d.a0, s.pOff d.a0]
  (fun s =>
    let p := d.a0
    if s.prepState p then (clearPrep p s, .done ST_STATE (s.prepUnbound p))
    else
      let s := loadWindow p (clearPrep p (unpin p s))
      match s.prepFault p with
      | some (st, a, b) => (s, .done st a b)
      | none => ({ s with jobs := s.jobs ++ [.prepare d p] }, .later)) s

/-- The granules that a group holds beside its pinned ones. -/
def State.loose (s : State) (g : Nat) : List Nat :=
  (s.gp g).pool.filterMap (fun e => match e.2 with | some x => if x.res then none else some e.1 | none => none)

/-- A member of a prepared pitch: its resident data pinned, and its lead reserve filled from the start of the table (R90). -/
def prepareGroup (p g : Nat) (s : State) : State :=
  let n := s.residentPages p g
  let s := (s.w .PG_PIN_RESIDENT g n).w .PG_PIN_RESERVE g (s.leadPages p)
  let s := fillLead p (some (s.pathEnter p 0 [] [], 0)) g (pinItems p g (s.onGp g (fun x => { x with leadFull := true, met := false })))
  s.w .PG_USE_HELD g (n + pagesOf (s.loose g).length)

/-- A prepared pitch: pages pinned and leads filled in every member, the range in use, and PREPARED (R90, R91). -/
def prepared (p : Nat) (s : State) : State :=
  let s := forAll (s.members p) (prepareGroup p) s
  (s.onPt p (fun x => { x with used := s.usedRange p })).setF .PT_SUPPLY_PREPARED p

/-- The fills of PAT.PREPARE end (R90): uncorrectable data fails it; otherwise the pages are pinned, the lead is full and
PREPARED is set. What changed since is checked again. -/
def execPatPrepareDone (p : Fin 32) (s : State) : Out := .next <|
  let p := p.val
  match s.jobs.find? (Job.isPrepare p) with
  | none => s
  | some j =>
    let s := dropJob j s
    let fin := fun (st a b : Nat) (s : State) => complete 0x0505 j.desc st false a b 0 s
    if s.prepState p then fin ST_STATE (s.prepUnbound p) 0 s
    else
      match s.prepFault p with
      | some (st, a, b) => fin st a b s
      | none =>
        match s.findBlock p s.blockUE with
        | some (b, g) => fin ST_FAULT b g s
        | none =>
          fin ST_OK 0 0 (prepared p s)

/-- PAT.RELEASE (R92). ARG0 the pitch. -/
def execPatRelease (d : Desc) (s : State) : Out := .next <| runCmd 0x0506 d [args d 1, unit 32 d.a0, s.pOff d.a0]
  (fun s => checked [(!s.idle d.a0, ST_STATE)] (clearPrep d.a0 (unpin d.a0 s), .done ST_OK) s) s

end Sys2Proof.Machine
end

