-- ==== Sys2Proof/Machine/Sequencing.lean ====
section
/-! DEFINITION. Sequencer and capture commands that leave every pitch state as it is: tables, flow programs, flags,
counters, markers, capture units, triggers and acquisitions (R107 to R113, R121, R123, R127, R132, R158, R159, R171 to
R184). -/

namespace Sys2Proof.Machine

/-! ## SEQ.LOAD (R112, R113) -/

/-- The entries of a table in its source, as 256-bit numbers. -/
def State.srcEntries (s : State) (sp a n : Nat) : List Nat := (upTo n).map (fun i => s.loadN sp (a + 32 * i) 32)

/-- Whether an entry of a table of n entries breaks line 3 of Table SEQ-2. -/
def entryBad (n e : Nat) : Bool :=
  let act := segAction e
  segRsv e || segLen e == 0 || !cselOk (segCsrc e) (segCsel e) || (act == ACJUMP && segCsrc e == 0) ||
    ((act == AJUMP || act == ACJUMP) && n ≤ segTarget e) || (segFlow e && act != ANEXT) ||
    (segMmode e == 3 && segLen e ≤ segMat e) || (!segStream e && 2 ^ 39 ≤ segLastBlock e)

/-- The index of the 17th entry of the first run of more than 16 entries with REPEAT = 0 (line 5). -/
def zeroRunAt : List Nat → Nat → Nat → Option Nat
  | [], _, _ => none
  | e :: r, i, run =>
    if segRepeat e = 0 then (if run = 16 then some i else zeroRunAt r (i + 1) (run + 1)) else zeroRunAt r (i + 1) 0

/-- Lines 3 to 7 of Table SEQ-2: the status and the first failing entry. -/
def tableFault (tbl prog : List Nat) (bad : Bool) : Option (Nat × Nat) :=
  let n := tbl.length
  match tbl.zipIdx.find? (fun (e, _) => entryBad n e) with
  | some (_, i) => some (ST_RANGE, i)
  | none =>
    let z := tbl.getLastD 0
    if segRepeat z = 0 || ((segAction z == ANEXT || segAction z == ACJUMP) && !segFlow z) then some (ST_RANGE, n - 1)
    else
      match zeroRunAt tbl 0 0 with
      | some i => some (ST_RANGE, i)
      | none =>
        if 3072 < (pinned tbl prog).length then some (ST_NOSPACE, 0)
        else if bad then some (ST_FAULT, 0)
        else none

/-- Whether an extent of VCM overlaps a bound array or the table of another pitch (line 2). -/
def State.tblClash (s : State) (p a n : Nat) : Bool :=
  s.inBound a n || (upTo 32).any (fun q => q != p && clash (s.tableAt q) (a, n))

/-- SEQ.LOAD (R112). ARG0 the pitch, ARG1 the source (0 VCM, 1 CX0, 2 CX1), ARG2 its byte address, ARG3 the entry count,
ARG4 TBL_BASE. -/
def execSeqLoad (d : Desc) (s : State) : Out := .next <| runCmd 0x0603 d
  [args d 5, unit 32 d.a0, choice 3 d.a1, s.pOff d.a0, dis (d.a1 != 0 && !s.xEn (d.a1 - 1))]
  (fun s =>
    let p := d.a0
    let n := d.a3
    checked [(!s.idle p, ST_STATE),
      (n == 0 || 1048576 < n || spaceSize d.a1 < d.a2 + 32 * n || d.a4 % 4096 != 0 || spaceSize 0 < d.a4 + 32 * n ||
        s.tblClash p d.a4 (32 * n), ST_RANGE)]
      ({ touchPitch p s with jobs := s.jobs ++ [.load d p d.a1 d.a2 n d.a4] }, .later) s) s

/-- A table of n entries is in its place: the pitch plays it, and it streams when a segment of it does (R112). -/
def loadedTable (p sp a n base : Nat) (s : State) : State :=
  loadWindow p ((((touchPitch p (s.store 0 base (s.load sp a (32 * n)))).w .SQ_TBL_BASE_BASE p (base / 64)).w .SQ_TBL_LEN_COUNT p n).w
    .PT_SUPPLY_STREAM p (b2n ((s.srcEntries sp a n).any segStream)))

/-- A table with a fault leaves its pitch without a table (R112). -/
def loadedBad (p sp a n base : Nat) (s : State) : State :=
  loadWindow p ((((touchPitch p (s.store 0 base (s.load sp a (32 * n)))).w .SQ_TBL_LEN_COUNT p 0).w .SQ_TBL_BASE_BASE p 0).w
    .PT_SUPPLY_STREAM p 0)

/-- The copy and the checks end (R112): the new table replaces the old, or the pitch holds none. -/
def execSeqLoadDone (p : Fin 32) (portFail : Bool) (s : State) : Out := .next <|
  let p := p.val
  match s.jobs.find? (Job.isLoad p) with
  | some (.load d x sp a n base) =>
    let s := dropJob (.load d x sp a n base) s
    match tableFault (s.srcEntries sp a n) (s.pt p).prog (portFail || s.vcmDown || s.anyBad sp a (32 * n)) with
    | some (st, i) => complete 0x0603 d st false i 0 0 (loadedBad p sp a n base s)
    | none => complete 0x0603 d ST_OK false 0 0 0 (loadedTable p sp a n base s)
  | _ => s

/-- SEQ.PROG (R123). ARG0 the pitch, ARG1 the address, ARG2 the instruction count. -/
def execSeqProg (d : Desc) (s : State) : Out := .next <| runCmd 0x0604 d
  [args d 3, unit 32 d.a0, reachD d d.a1 (8 * d.a2), s.pOff d.a0]
  (fun s =>
    let p := d.a0
    let prog := (upTo (min d.a2 1024)).map (fun i => s.winN d.path (d.a1 + 8 * i) 8)
    let tbl := (upTo (s.r .SQ_TBL_LEN_COUNT p)).map (s.segVcm p)
    checked [(!s.idle p, ST_STATE), (d.a2 == 0 || 1024 < d.a2, ST_RANGE), s.rfault d d.a1 (8 * d.a2), (prog.any (fun i => !finOk i), ST_RANGE),
      (3072 < (pinned tbl prog).length, ST_NOSPACE)]
      (loadWindow p (touchPitch p (s.onPt p (fun x => { x with prog := prog }))), .done ST_OK) s) s

/-! ## Flags, counters, halt, markers (R121, R127, R132) -/

/-- SEQ.FLAG (R121). ARG0 the pitch, ARG1 the set mask, ARG2 the clear mask. -/
def execSeqFlag (d : Desc) (s : State) : Out := .next <| runCmd 0x0608 d
  [args d 3, unit 32 d.a0, mask 16 d.a1, mask 16 d.a2, s.pOff d.a0]
  (fun s => (setFlags d.a0 d.a1 d.a2 s, .done ST_OK)) s

/-- SEQ.COUNTER (R121). ARG0 the pitch, ARG1 the counter, ARG2 its value. -/
def execSeqCounter (d : Desc) (s : State) : Out := .next <| runCmd 0x0609 d
  [args d 3, unit 32 d.a0, unit 4 d.a1, field 32 d.a2, s.pOff d.a0]
  (fun s => (loadCounter d.a0 d.a1 d.a2 s, .done ST_OK)) s

/-- SEQ.HALT (R132). ARG0 the pitch. -/
def execSeqHalt (d : Desc) (s : State) : Out := .next <| runCmd 0x0607 d [args d 1, unit 32 d.a0, s.pOff d.a0]
  (fun s => checked [(s.pstate d.a0 != RUNNING, ST_STATE)]
    (planStop d.a0 { cause := 0xF, when' := .boundary (s.now + 24) } s, .done ST_OK) s) s

/-- SEQ.MARK (R127). ARG0 the output, ARG1 the image of MK_ROUTE, ARG2 that of MK_OFF. -/
def seqMarkForm (d : Desc) (s : State) : List (Bool × Nat) :=
  [args d 3, unit 8 d.a0, field 32 d.a1, field 32 d.a2, s.pOff (bits d.a1 28 24)]
def seqMarkAct (d : Desc) (s : State) : Act :=
  { checks := [(!s.idle (s.r .MK_ROUTE_PITCH 0 d.a0) || !s.idle (bits d.a1 28 24), ST_STATE),
      (bits d.a1 21 14 < 2 || regRsv .MK_ROUTE d.a1 || regRsv .MK_OFF d.a2, ST_RANGE)]
    after := (s.wImg .MK_ROUTE 0 d.a1 d.a0).wImg .MK_OFF 0 d.a2 d.a0 }
def execSeqMark (d : Desc) (s : State) : Out := .next <| runAct 0x060A d (seqMarkForm d s) (seqMarkAct d) s

/-! ## Capture configuration (R171 to R174) -/

/-- The window area of a unit in VCM. -/
def State.areaAt (s : State) (g : Nat) : Nat × Nat := (64 * s.r .CU_AREA_BASE_BASE g, 64 * s.r .CU_AREA_SIZE_SIZE g)

/-- The acquisition of a pitch runs: it is neither OFF nor DONE. -/
def State.acqBusy (s : State) (p : Nat) : Bool := s.astate p != AOFF && s.astate p != ADONE

/-- CAP.CONFIG (R173). ARG0 the group, ARG1 the address of ten words: CU_CFG, CU_RAWMASK, CU_REDMASK, CU_REDINT,
CU_AREA_BASE, CU_AREA_SIZE, CU_DEST, CU_DRING_BASE low and high, CU_DRING_SIZE. -/
def capConfigForm (d : Desc) (s : State) : List (Bool × Nat) := [args d 2, unit 32 d.a0, reachD d d.a1 40, s.gOff d.a0]
/-- The state check of CAP.CONFIG, and the range of its ten words. -/
def State.capBusy (s : State) (g : Nat) : Bool := match s.pitchOf g with | some p => !s.idle p || s.acqBusy p | none => false
def State.capBad (s : State) (g : Nat) (w : Nat → Nat) : Bool :=
  let kind := bits (w 6) 31 30
  let port := bits (w 6) 29 26
  let ring := w 7 + 2 ^ 32 * w 8
  let area := (64 * w 4, 64 * w 5)
  regRsv .CU_CFG (w 0) || regRsv .CU_DEST (w 6) || (bit (w 0) 30 && w 1 == 0) ||
    (bit (w 0) 29 && (w 2 == 0 || w 3 == 0)) || w 5 % 64 != 0 || spaceSize 0 < area.1 + area.2 || s.inBound area.1 area.2 ||
    (upTo 32).any (fun p => clash (s.tableAt p) area) || (upTo 32).any (fun h => h != g && clash (s.areaAt h) area) ||
    kind == 3 || (kind == 1 && 12 ≤ port) || (kind == 2 && (2 ≤ port || ring % 4096 != 0 || spaceSize 1 < ring + 4096 * w 9))
def capConfigAct (d : Desc) (s : State) : Act :=
  let g := d.a0
  let v := s.words d d.a1 10
  let w := fun i => v.getD i 0
  let ring := w 7 + 2 ^ 32 * w 8
  { checks := [(s.capBusy g, ST_STATE), s.rfault d d.a1 40, (s.capBad g w, ST_RANGE)]
    after :=
      let s := ((((((s.wImg .CU_CFG g (w 0)).wImg .CU_RAWMASK g (w 1)).wImg .CU_REDMASK g (w 2)).wImg .CU_REDINT g (w 3)).wImg
        .CU_AREA_BASE g (w 4)).wImg .CU_AREA_SIZE g (w 5)).wImg .CU_DEST g (w 6)
      let s := (s.wImg .CU_DRING_BASE g ring).wImg .CU_DRING_SIZE g (w 9)
      ((s.w .CU_SHEAD_HEAD g 0).w .CU_STAIL_TAIL g 0).onCu g (fun u => { u with sent := 0 }) }
def execCapConfig (d : Desc) (s : State) : Out := .next <| runAct 0x0701 d (capConfigForm d s) (capConfigAct d) s

/-- CAP.TRIGSET (R171). ARG0 the pitch, ARG1 the address of words: for each member group TR_CARE0-3 and TR_VAL0-3, then
TR_CTL, TR_STG0-3 and TR_TMO0-3. -/
def capTrigsetForm (d : Desc) (s : State) : List (Bool × Nat) := [args d 2, unit 32 d.a0, s.pOff d.a0]
/-- The range of TR_CTL and the four TR_STG words. -/
def State.trigBad (s : State) (ctl : Nat) (stg : List Nat) : Bool :=
  regRsv .TR_CTL ctl || stg.any (fun x =>
    regRsv .TR_STG x || bits x 15 0 == 0 || (bits x 31 30 != 0 && !s.rb .TB_SRC_EN 0 (bits x 29 25)))
def capTrigsetAct (d : Desc) (s : State) : Act :=
  let p := d.a0
  let gs := s.members p
  let n := 8 * gs.length + 9
  let v := s.words d d.a1 n
  let w := fun i => v.getD i 0
  let b := 8 * gs.length
  { checks := [reachD d d.a1 (4 * n), (!s.idle p, ST_STATE), s.rfault d d.a1 (4 * n),
      (s.trigBad (w b) ((upTo 4).map (fun i => w (b + 1 + i))), ST_RANGE)]
    after :=
      let s := gs.zipIdx.foldl (fun t (g, j) => (upTo 4).foldl (fun t i =>
        (t.wImg .TR_CARE g (w (8 * j + i)) i).wImg .TR_VAL g (w (8 * j + 4 + i)) i) t) s
      let s := s.wImg .TR_CTL p (w b)
      (upTo 4).foldl (fun t i => (t.wImg .TR_STG p (w (b + 1 + i)) i).wImg .TR_TMO p (w (b + 5 + i)) i) s }
def execCapTrigset (d : Desc) (s : State) : Out := .next <| runAct 0x0702 d (capTrigsetForm d s) (capTrigsetAct d) s

/-- CAP.BUS (R172). ARG0 the line, ARG1 the image of TB_SRC. -/
def capBusForm (d : Desc) (s : State) : List (Bool × Nat) := [args d 2, unit 32 d.a0, field 32 d.a1, s.pOff (bits d.a1 30 26)]
def capBusAct (d : Desc) (s : State) : Act :=
  { checks := [(!s.idle (s.r .TB_SRC_PITCH 0 d.a0) || !s.idle (bits d.a1 30 26), ST_STATE),
      (bits d.a1 23 16 == 0 || regRsv .TB_SRC d.a1, ST_RANGE)]
    after := s.wImg .TB_SRC 0 d.a1 d.a0 }
def execCapBus (d : Desc) (s : State) : Out := .next <| runAct 0x0703 d (capBusForm d s) (capBusAct d) s

/-! ## Acquisition commands (R165, R175, R178, R184) -/

/-- The raw channels of a unit (R165). -/
def State.rawChans (s : State) (g : Nat) : Nat := if s.rb .CU_CFG_RAW g then popCount 32 (s.r .CU_RAWMASK_MASK g) else 0

/-- The raw channels of armed acquisitions other than a pitch's. -/
def State.rawArmed (s : State) (p : Nat) : Nat :=
  (((upTo 32).filter (fun q => q != p && s.acqBusy q)).flatMap (fun q => (s.members q).map s.rawChans)).foldl (· + ·) 0

/-- The values of CAP.ARM. -/
structure ArmArgs where
  mode : Nat
  tsrc : Nat
  tidx : Nat
  pre : Nat
  post : Nat
  windows : Nat
  spill : Nat
  armq : Nat
  hkind : Nat
  hval : Nat
deriving DecidableEq, Repr

/-- Line 2 of Table CAP-6. -/
def armRange (s : State) (p : Nat) (a : ArmArgs) : Bool :=
  let top := match a.tsrc with | 2 => 4 | 3 => 8 | 4 => 32 | _ => 1
  7 ≤ a.tsrc || top ≤ a.tidx || 2 ≤ a.spill || 3 ≤ a.hkind || (4 ≤ a.armq && a.armq != ALL1) || 2 ^ 40 ≤ a.pre || 2 ^ 40 ≤ a.post ||
    65536 ≤ a.windows || (a.mode == 0 && (a.post == 0 || a.windows == 0 || a.tsrc == 0)) ||
    (a.mode == 1 && (a.pre != 0 || a.post != 0 || a.windows != 0 || a.spill != 0)) ||
    ((a.mode == 1 || a.spill == 1) && (s.members p).any (fun g => s.r .CU_DEST_KIND g == 0)) ||
    (a.hkind == 0 && a.hval != 0) || (a.hkind == 1 && (a.hval == 0 || 2 ^ 48 ≤ a.hval)) ||
    (a.hkind == 2 && (a.hval == 0 || 2 ^ 32 ≤ a.hval))

/-- The checks of Table CAP-6. -/
def armChecks (s : State) (p : Nat) (a : ArmArgs) : List (Bool × Nat) :=
  let gs := s.members p
  [(armRange s p a, ST_RANGE),
    (256 < s.rawArmed p + (gs.map s.rawChans).foldl (· + ·) 0 || gs.any (fun g => s.r .PG_QUOTA_CAP_PAGES g < 16), ST_NOSPACE),
    (a.mode == 0 && gs.any (fun g =>
      let c := s.capacity g a.windows
      c < a.pre || (a.spill == 0 && c < a.pre + a.post)), ST_RANGE)]

/-- The acquisition enters WAIT with its open point (R175, R177). -/
def armAcq (p : Nat) (a : ArmArgs) (s : State) : State :=
  let start := s.pstate p == IDLE || s.pstate p == ARMED
  let s := (((s.setA p AWAIT).w .PC_STATE_MODE p a.mode).w .PC_STATE_TSRC p a.tsrc).w .PC_STATE_WINDONE p 0
  let s := forAll (s.members p) (fun g t => t.onCu g (fun u => { u with lostVec := 0, lostRec := 0 })) s
  s.onAcq p (fun old => {
    id := old.id + 1, pre := a.pre, post := a.post, windows := a.windows, tidx := a.tidx, spill := a.spill == 1
    armq := if a.armq = ALL1 then none else some a.armq, hkind := a.hkind, hval := a.hval
    atStart := start, openFrom := s.now + 32, xtFrom := s.now, busPrev := s.lineOn a.tidx })

/-- CAP.ARM (R175). ARG0 the pitch, ARG1 MODE (0 WINDOWED, 1 STREAMING), ARG2 TSRC, ARG3 TIDX, ARG4 PRE, ARG5 POST, ARG6
the address of a list of WINDOWS, SPILL, ARMQ (all ones none), the hold-off kind (0 NONE, 1 TIME, 2 EVENTS) and its
value. -/
def armArgsOf (d : Desc) (s : State) : ArmArgs :=
  let l := s.listAt d d.a6 5
  { mode := d.a1, tsrc := d.a2, tidx := d.a3, pre := d.a4, post := d.a5, windows := l.getD 0 0
    spill := l.getD 1 0, armq := l.getD 2 0, hkind := l.getD 3 0, hval := l.getD 4 0 }
def execCapArm (d : Desc) (s : State) : Out := .next <| runCmd 0x0704 d [unit 32 d.a0, choice 2 d.a1, reachD d d.a6 48, s.pOff d.a0]
  (fun s => checked ([(s.pstate d.a0 == STOPPING || s.r .PT_MEMBERS_MASK d.a0 == 0 || s.acqBusy d.a0, ST_STATE), s.rfault d d.a6 48,
        (s.listLen d d.a6 != 5, ST_RANGE)] ++ armChecks s d.a0 (armArgsOf d s))
      (armAcq d.a0 (armArgsOf d s) s, .done ST_OK) s) s

/-- CAP.TRIG (R178). ARG0 the pitch. -/
def execCapTrig (d : Desc) (s : State) : Out := .next <| runCmd 0x0705 d [args d 1, unit 32 d.a0, s.pOff d.a0]
  (fun s => checked [(!s.acqBusy d.a0, ST_STATE)]
    (s.onAcq d.a0 (fun a => { a with softAt := a.softAt ++ [s.now + 32] }), .done ST_OK) s) s

/-- CAP.DISARM (R184). ARG0 the pitch. -/
def execCapDisarm (d : Desc) (s : State) : Out := .next <| runCmd 0x0706 d [args d 1, unit 32 d.a0, s.pOff d.a0]
  (fun s =>
    (if s.acqBusy d.a0 then s.onAcq d.a0 (fun a => { a with disarmAt := some (min (s.now + 32) (a.disarmAt.getD (s.now + 32))) })
      else s, .done ST_OK)) s

/-- Clear the fail counter, FC_SAT and the first-fail record of a channel; the FAILs of the present core cycle count on the cleared
value, whichever came first in the queue (R158). -/
def clearFails (c : Nat) (s : State) : State :=
  let f := tget {} s.cyc.fails c
  let s := onCyc (fun y => { y with fail0 := note0 y.fail0 c (s.ch c).failCnt }) s
  (s.w .CH_FAILCNT_HI_FC_SAT c 0).onCh c (fun x => { x with failCnt := f.n, firstFail := f.rec', firstPhase := f.phase, firstCycle := f.cycle })

/-- CAP.CLEAR (R158). ARG0 the address of the channel mask. -/
def execCapClear (d : Desc) (s : State) : Out := .next <| runCmd 0x0707 d [args d 1, reachD d d.a0 128]
  (fun s =>
    let l := chansIn (s.chanMask d d.a0)
    checked [s.rfault d d.a0 128, dis (l.any (fun c => !s.gEn (groupOf c)))] (forAll l clearFails s, .done ST_OK) s) s

/-- CAP.FIRSTFAIL (R159). ARG0 the address of the channel mask, ARG1 the destination. -/
def execCapFirstfail (d : Desc) (s : State) : Out := .next <| runCmd 0x0708 d [args d 2, reachD d d.a0 128]
  (fun s =>
    let l := chansIn (s.chanMask d d.a0)
    checked [s.rfault d d.a0 128, reachD d d.a1 (32 * l.length), dis (l.any (fun c => !s.gEn (groupOf c))),
        s.wdown d.a1 (32 * l.length)]
      (s.winStore d.path d.a1 (l.flatMap (fun c => bytesOf 32 (s.ch c).firstFail)), .done ST_OK) s) s

end Sys2Proof.Machine
end

