-- ==== Sys2Proof/Machine/Lead.lean ====
section
/-! DEFINITION. The data of vectors, the lead and the under-run (R50, R69 to R73, R86, R87, R98 to R105, R111). -/

namespace Sys2Proof.Machine

/-! ## The data of a vector -/

/-- The data of one vector of one group: absent with the stop cause it leads to, or its vector row and timing set. -/
inductive VData where
  | absent (cause : Nat)
  | here (row ts : Nat)
deriving DecidableEq, Repr

/-- Where in a stored vector block the row or the index of vector i lies, and its bytes (Table VSP-1). -/
def rowAt (tag i : Nat) : Nat × Nat := match tag % 4 with | 0 => (16 * i, 16) | 1 => (0, 16) | _ => (i, 1)

/-- The row that the stored bytes spell; a DICT index names a row of the dictionary (R69, R70). -/
def State.rowSpelt (s : State) (g tag n : Nat) : Nat := if tag % 4 = 2 then tget 0 (s.gp g).dict n else n

/-- Vector j of a pass of entry e in group g, from the group's pool data (R71 to R73, R108, R110, R111). -/
def State.blockData (s : State) (g e j : Nat) : VData :=
  let b := segBlock e + (segVoff e + j) / 64
  let i := (segVoff e + j) % 64
  match s.tagGot g b with
  | .absent c => .absent c
  | .here t =>
    if t = EMPTY then .absent 6
    else
      let (o, n) := rowAt t i
      match s.got g (s.vecByte g b + o) n with
      | .absent c => .absent c
      | .here row =>
        if bit t 2 && !segTso e then
          match s.got g (s.tsByte g b + i) 1 with
          | .absent c => .absent c
          | .here ts => .here (s.rowSpelt g t row) ts
        else .here (s.rowSpelt g t row) (segTs e)

/-- The byte within a row at which a group's blocks begin (R98). -/
def State.rowOff (s : State) (p g hdr : Nat) : Nat :=
  64 + (((s.members p).filter (· < g)).map (fun h => tagBytes (rowTag hdr h))).foldl (· + ·) 0

/-- The header of the stream row at a count of ring bytes. -/
def State.rowHdr (s : State) (p pos : Nat) : Nat := ofBytes (s.ringLoad (s.r .PT_SUPPLY_RING p) pos 64)

/-- Whether a committed row begins at a count of ring bytes. -/
def State.rowHere (s : State) (p pos : Nat) : Bool :=
  s.r .SR_CFG_USE (s.r .PT_SUPPLY_RING p) == 1 && pos < (s.rg (s.r .PT_SUPPLY_RING p)).accepted

/-- Vector j of a pass of a stream entry, from the row at a count of ring bytes (R98, R100). -/
def State.rowData (s : State) (p g e j pos : Nat) : VData :=
  let r := s.r .PT_SUPPLY_RING p
  if !s.rowHere p pos then .absent 7
  else
    let h := s.rowHdr p pos
    let t := rowTag h g
    let a := pos + s.rowOff p g h
    let (o, n) := rowAt t (j % 64)
    let ownTs := bit t 2 && !segTso e
    let tsAt := a + encBytes t + j % 64
    if s.ringBad r pos 64 || s.ringBad r (a + o) n || (ownTs && s.ringBad r tsAt 1) then .absent 5
    else .here (s.rowSpelt g t (ofBytes (s.ringLoad r (a + o) n))) (if ownTs then ofBytes (s.ringLoad r tsAt 1) else segTs e)

def State.vdata (s : State) (p g e j pos : Nat) : VData := if segStream e then s.rowData p g e j pos else s.blockData g e j

/-- The count of ring bytes at which the row of the vector after vector j begins (R100). -/
def State.rowNext (s : State) (p e j pos : Nat) : Nat :=
  if segStream e && (j % 64 == 63 || j + 1 == segLen e) && s.rowHere p pos then pos + s.rowLen p (s.rowHdr p pos) else pos

/-- The tail of a pitch's stream ring. -/
def State.tail (s : State) (p : Nat) : Nat := s.r .SR_TAIL_TAIL (s.r .PT_SUPPLY_RING p)

/-- A timing set of a group, if it is valid (R50, R52). -/
def State.validSet (s : State) (g ts : Nat) : Option TSet :=
  let t := tget {} (s.gp g).tsets ts
  if t.valid then some t else none

/-! ## The path ahead (R482) -/

/-- The pass in play as a place on the path. -/
def State.here (s : State) (p : Nat) : PathPos :=
  let x := s.pt p
  let loops := x.loops.map (fun f => (f.seg, if f.free then 1 else f.count, 0))
  match x.waiting with
  | some w => { seg := w.seg, left := 0, loops := loops, calls := x.calls, waitIp := some w.ip }
  | none => { seg := s.curSeg p, left := segRepeat (s.cur p) - s.curPass p, loops := loops, calls := x.calls }

/-- Whether an event already latched, or a pending jump, may make the next boundary leave the predicted path. -/
def State.latched (s : State) (p : Nat) : Bool :=
  let x := s.pt p
  x.latch.isSome || x.defer.isSome || (match x.waiting with | some w => w.latch.isSome | none => false)

/-- The place of the next vector on the predicted path and its index in the pass (R482). -/
def State.front (s : State) (p : Nat) : Option (PathPos × Nat) :=
  let x := s.pt p
  if x.needFlow then (s.pathFlow p (8 - x.chain) (s.r .PT_POS_IP p) (s.here p).loops x.calls).map (fun y => (y, 0))
  else if x.atEnd then (s.pathNext p (s.here p)).map (fun y => (y, 0))
  else some (s.here p, x.j)

/-! ## The lead (R86, R101, R105) -/

/-- The path ahead as pieces: segment, first index, distinct vectors, vectors played; until n vectors or the path's
end. `k` bounds the pieces. -/
def State.walk (s : State) (p : Nat) : Nat → Nat → Option (PathPos × Nat) → List (Nat × Nat × Nat × Nat)
  | 0, _, _ => []
  | _, 0, _ => []
  | _, _, none => []
  | k + 1, n, some (x, j) =>
    let full := max 1 (segLen (s.seg p x.seg))
    let reps := if j = 0 then min x.left (n / full) else 0
    let one := min n (full - j)
    let all := if j = 0 then min n (full * (reps + 1)) else one
    (x.seg, j, one, all) ::
      s.walk p k (n - all) ((s.pathNext p { x with left := x.left - reps }).map (fun y => (y, 0)))

/-- The rows that vectors from index j on take. -/
def rowsIn (j n : Nat) : Nat := (j + n - 1) / 64 - j / 64 + 1

/-- The first absent vector of a piece, counted from its first, and the cause; `rows` is the number of committed rows. -/
def State.pieceGap (s : State) (p g k j n rows : Nat) : Option (Nat × Nat) :=
  let e := s.seg p k
  if segStream e then (if rows < rowsIn j n then some (64 * (j / 64 + rows) - j, 7) else none)
  else (upTo n).findSome? (fun d => match s.blockData g e (j + d) with | .absent c => some (d, c) | .here .. => none)

/-- The vectors present ahead, and the cause of the first absence. -/
def State.present (s : State) (p g : Nat) : List (Nat × Nat × Nat × Nat) → Nat → Nat × Option Nat
  | [], _ => (0, none)
  | (k, j, one, all) :: r, rows =>
    match s.pieceGap p g k j one rows with
    | some (n, c) => (n, some c)
    | none =>
      let (n, c) := s.present p g r (if segStream (s.seg p k) then rows - rowsIn j one else rows)
      (all + n, c)

/-- The committed rows from a ring's tail on. -/
def State.rowsAhead (s : State) (p : Nat) : Nat :=
  if s.rowHere p (s.tail p) then
    ((s.rg (s.r .PT_SUPPLY_RING p)).row + 2 ^ 64 - bits (s.rowHdr p (s.tail p)) 319 256) % 2 ^ 64
  else 0

/-- The playing time of n vectors at the leader's present period, in ns (R86). -/
def State.playNs (s : State) (p n : Nat) : Nat := n * (s.pt p).plen * s.period p / (65536 * ETU)

/-- The lead of a group, up to the 65,535 ns that its field shows, and the cause of the absence that ends it; none where the path
itself ends, or the field does (R86). -/
def State.leadOf (s : State) (p g : Nat) : Nat × Option Nat :=
  let n := 65536 * 65536 * ETU / max 1 ((s.pt p).plen * s.period p) + 1
  let (k, c) := s.present p g (s.walk p PATH_MAX n (s.front p)) (s.rowsAhead p)
  (min 65535 (s.playNs p k), c)

/-- A fall of a group's lead below 2 µs (R101): the flag, the count, the first event of the run, and the pitch's policy. -/
def leadFall (p g ns : Nat) (s : State) : State :=
  let s := (s.setF .PG_STATUS_LEAD_LOW g).inc .PG_STATUS_LEAD_LOW_CNT g
  let s := if (s.pt p).leadLow then s
    else event EV_LEAD_LOW [(5, p), (5, g), (16, ns)] (s.onPt p (fun x => { x with leadLow := true }))
  if s.rb .PT_SUPPLY_LEAD_POLICY p then planStop p { cause := 0xC, when' := .boundary (s.now + 24) } s else s

/-- The lead of a group is known anew (R86, R101). A lead that is short only because the predicted path ends is no fall: R95 keeps
every lead at 2 µs though every path to a STOP ends (log entry 21). While the lead stays low, the flag reads 1 again after a clear
(R365). -/
def leadUpdate (p g : Nat) (s : State) : State :=
  let (ns, gap) := s.leadOf p g
  let was := (s.gp g).low
  let low := gap.isSome && decide (ns < 2000)
  let s := (s.w .PG_LEAD_LEAD_NS g ns).w .PG_LEAD_LEAD_MIN g (min ns (s.r .PG_LEAD_LEAD_MIN g))
  let s := s.onGp g (fun x => { x with low := low })
  if low then (if was then s.w .PG_STATUS_LEAD_LOW g 1 else leadFall p g ns s) else s

/-! ## Refill (R81 to R87, R93, R104) -/

/-- The spans of the predicted path that the engine fetches for n vectors: up to the first EMPTY block it knows of (R104). -/
def State.fetchSpans (s : State) (p g n : Nat) : List Span :=
  (s.ahead p g PATH_MAX n (s.front p)).takeWhile (fun x => s.tagGot g x.block != .here EMPTY)
def State.fetchGrans (s : State) (p g n : Nat) : List Nat := ((s.fetchSpans p g n).flatMap (s.needs g)).eraseDups

/-- Whether the engine stands at an EMPTY block within n vectors. -/
def State.emptyAhead (s : State) (p g n : Nat) : Bool :=
  (s.ahead p g PATH_MAX n (s.front p)).any (fun x => s.tagGot g x.block == .here EMPTY)

/-- How many vectors beyond the lead reserve far prefetch may look: more than the pool can hold at 64 vectors a granule (R81). -/
abbrev FAR_VECS : Nat := 2 ^ 28

/-- The granules of a group's lead reserve, and those of its far prefetch in the order of its path (R81, R83, R87). -/
def State.reserveGrans (s : State) (p g : Nat) : List Nat := s.fetchGrans p g (s.vecsIn p LEAD_BEATS)
def State.farPath (s : State) (p g : Nat) : List Nat :=
  let w := s.reserveGrans p g
  (s.fetchGrans p g (s.vecsIn p LEAD_BEATS + FAR_VECS)).filter (fun n => !w.contains n)

/-- The far prefetch that a group holds: its granules, in path order, in borrowed pages. -/
def State.farHeld (s : State) (p g : Nat) : List Nat := (s.farPath p g).filter (fun n => (s.gran g n).isSome)

/-- The refill engine of a group, as its pitch stands now. Data of a borrowed page that falls within the lead reserve is in the quota
without a copy (R83); what lies on no part of the predicted path is freed, and so is far prefetch while background work is shed (R84,
R87); the granules that the reserve lacks are asked of VCM as real-time reads, once each (R87, R93). -/
def refill (p g : Nat) (s : State) : State :=
  let w := s.reserveGrans p g
  let far := if s.shedding then [] else s.farHeld p g
  let met := s.emptyAhead p g (s.vecsIn p LEAD_BEATS)
  let s := if met && !(s.gp g).met then s.setF .PG_STATUS_NOT_LOADED g else s
  let s := s.onGp g (fun x => { x with
    met := met
    pool := x.pool.filter (fun e => w.contains e.1 || far.contains e.1 || (match e.2 with | some y => y.res | none => false)) })
  let asked := s.vcm.reads.filter (fun r => r.grp != g || w.contains r.gran)
  let new := w.filter (fun n => (s.gran g n).isNone && !asked.any (fun r => r.grp == g && r.gran == n))
  let s := { s with vcm := { s.vcm with reads := asked ++ new.map (fun n => ({ grp := g, gran := n, at' := s.now } : VRead)) } }
  (s.w .PG_USE_HELD g (s.r .PG_PIN_RESIDENT g + pagesOf (w.filter (fun n => (s.gran g n).isSome)).length)).w .PG_USE_BORROWED g
    (pagesOf far.length)

/-- Supply as a core cycle or an issued vector leaves it: refill and lead of every member group. -/
def supply (p : Nat) (s : State) : State := forAll (s.members p) (fun g t => leadUpdate p g (refill p g t)) s

/-- The supply of every running pitch; the reads of a pitch that runs no more are dropped. -/
def supplyAll (s : State) : State :=
  let run := (upTo 32).filter (fun p => s.pstate p == RUNNING)
  let gs := run.flatMap s.members
  forAll run supply { s with vcm := { s.vcm with reads := s.vcm.reads.filter (fun r => gs.contains r.grp) } }

/-- The pitch whose far prefetch a group holds. -/
def State.farOf (s : State) (g : Nat) : List Nat := match s.pitchOf g with | some p => s.farHeld p g | none => []

/-- The group that holds the most borrowed pages; of equal ones the lowest (log entry 41). -/
def State.topBorrower (s : State) : Option Nat :=
  (upTo 32).find? (fun g => s.r .PG_USE_BORROWED g != 0 && (upTo 32).all (fun h => s.r .PG_USE_BORROWED h ≤ s.r .PG_USE_BORROWED g))

/-- A borrowed page of a group is taken: the one whose data lies furthest along its path (R82). -/
def takePage (g : Nat) (s : State) : State :=
  let n := s.r .PG_USE_BORROWED g - 1
  let gone := (s.farOf g).drop (64 * n)
  let s := s.onGp g (fun x => { x with pool := x.pool.filter (fun e => !gone.contains e.1) })
  (s.w .PG_USE_BORROWED g n).inc .PG_STATUS_RECLAIM_CNT g

/-- Reclaim n borrowed pages, each from the group that holds the most (R82). -/
def reclaimN : Nat → State → State
  | 0, s => s
  | n + 1, s =>
    match s.topBorrower with
    | some g => reclaimN n (takePage g s)
    | none => s

/-- Owners have taken the pages that they need within their guaranteed shares: what is not free is reclaimed. A core cycle's reclaims
follow its moves, so that a page which moves into the quota is not taken (R82, R83). -/
def reclaim (s : State) : State := if s.poolHeld ≤ 47104 then s else reclaimN (s.poolHeld - 47104) s

/-- Release every borrowed page (R84). -/
def releaseBorrowed (s : State) : State :=
  forAll (upTo 32) (fun g t =>
    let gone := t.farOf g
    (t.onGp g (fun x => { x with pool := x.pool.filter (fun e => !gone.contains e.1) })).w .PG_USE_BORROWED g 0) s

/-! ## Under-run (R102, R104, R111) -/

/-- An absent vector: its number, the stop cause, its segment and its block address. -/
structure Absent where
  vec : Nat
  cause : Nat
  seg : Nat
  block : Nat
  page : Option Nat := none
deriving DecidableEq, Repr

/-- The pool page of an uncorrectable granule of a stream row (R85). -/
def State.rowFault (s : State) (p pos : Nat) : Option Nat :=
  let st := s.srcSt (100 + s.r .PT_SUPPLY_RING p) pos (s.rowLen p (s.rowHdr p pos))
  if 256 ≤ st then some (st / 256 - 1) else none

/-- The first vector of a group, from a place on, whose data is absent and which starts within 32 core cycles; `k` bounds the
vectors looked at. -/
def State.absentFrom (s : State) (p g : Nat) : Nat → Option (PathPos × Nat) → Nat → Nat → Nat → Option Absent
  | 0, _, _, _, _ => none
  | _, none, _, _, _ => none
  | k + 1, some (x, j), v, phi, pos =>
    match s.cycleOf p phi with
    | none => none
    | some c =>
      if s.now + 32 < c then none
      else
        let e := s.seg p x.seg
        match s.vdata p g e j pos with
        | .absent cause => some { vec := v, cause := cause, seg := x.seg, block := segBlock e + (segVoff e + j) / 64
                                  page := if segStream e && cause == 5 then s.rowFault p pos else none }
        | .here _ _ =>
          match s.vdata p p e j pos with
          | .absent _ => none
          | .here _ ts =>
            match s.validSet p ts with
            | none => none
            | some z =>
              let next := if j + 1 < segLen e then some (x, j + 1)
                else if v < (s.pt p).vec + (segLen (s.cur p) - (s.pt p).j) && s.latched p then none
                else (s.pathNext p x).map (fun y => (y, 0))
              s.absentFrom p g k next (v + 1) (phAdd phi z.len) (s.rowNext p e j pos)

/-- The flags of a group that lacks a vector's data. R104 and R111 treat the vector as absent under R102 with another stop cause, so that
UNDERRUN is set in every case (log entry 23). -/
def absentFlags (g : Nat) (a : Absent) (s : State) : State :=
  let s := match a.page with | some n => poolFault n s | none => s
  let s := s.setF .PG_STATUS_UNDERRUN g
  match a.cause with
  | 6 => s.setF .PG_STATUS_NOT_LOADED g
  | 5 => s.setF .PG_STATUS_DATA_ERROR g
  | _ => s

/-- The stop cause where several groups lack one vector: the highest in Table SEQ-10. -/
def absentCause (l : List (Nat × Absent)) : Nat := listMin 7 (l.map (fun x => x.2.cause))

/-- An under-run is declared for the groups that lack a vector (R102): the flags of each, and EV_UNDERRUN for the first; with it
EV_NOT_LOADED for a block that is not loaded (R111). -/
def declareAbsent (p : Nat) (l : List (Nat × Absent)) (s : State) : State :=
  let s := l.foldl (fun t x => absentFlags x.1 x.2 t) s
  let s := match l with
    | (g, a) :: _ => event EV_UNDERRUN [(5, p), (5, g), (20, a.seg), (64, a.vec)] s
    | [] => s
  match l.find? (fun x => x.2.cause == 6) with
  | some (g, a) => event EV_NOT_LOADED [(5, p), (5, g), (20, a.seg), (40, a.block)] s
  | none => s

/-- Whether a planned stop ends its pitch before a vector. -/
def StopPlan.before (q : StopPlan) (v : Nat) : Bool := match q.when' with | .number n => n ≤ v | _ => false

/-- The first vector to come that the data of a group will be missing for. Where an event already latched, or a pending jump, may make
the next boundary leave the predicted path, what follows it is open. -/
def State.willMiss (s : State) (p g : Nat) : Option Absent :=
  if (s.pt p).atEnd && !(s.pt p).needFlow && s.latched p then none
  else s.absentFrom p g 320 (s.front p) (s.pt p).vec (s.pt p).next (s.tail p)

/-- The groups that lack the lowest vector that any lacks (R102), the named group first. -/
def State.lacking (s : State) (p g : Nat) : List (Nat × Absent) :=
  let l := (g :: (s.members p).filter (· != g)).filterMap (fun h => (s.willMiss p h).map (fun a => (h, a)))
  let v := listMin 0 (l.map (fun x => x.2.vec))
  l.filter (fun x => x.2.vec == v)

/-- The data of a vector is absent 32 core cycles before it starts (R102): the pitch stops where it would have started. -/
def execUnderrun (p : Fin 32) (g : Fin 32) (s : State) : Out := .next <|
  let p := p.val
  if s.pstate p != RUNNING || !(s.members p).contains g.val then s
  else
    match s.lacking p g.val with
    | [] => s
    | (h, a) :: r =>
      if (s.pt p).stops.any (fun q => q.before a.vec) then s
      else planStop p { cause := absentCause ((h, a) :: r), when' := .number a.vec } (declareAbsent p ((h, a) :: r) s)

end Sys2Proof.Machine
end

