-- ==== Sys2Proof/Machine/Time.lean ====
section
/-! DEFINITION. Guyline alignment, the local clock and its servo, and PTP (R298 to R323). -/

namespace Sys2Proof.Machine

/-! ## Pegs (R298 to R309) -/

/-- The beats of a peg period (R299). -/
def State.pegBeats (s : State) : Nat := 2 ^ (10 + s.r .GY_CFG_PEG_LOG)

/-- The edge-clock time of the edge of a beat, by its number relative to the present one (R298). -/
def State.beatEdge (s : State) (n : Nat) : Int :=
  (((s.now : Int) - s.guy.sub + 8 * ((n : Int) - s.guy.beat)) * (ETU : Int)) + s.r .GY_BOFF_BEAT_OFF

/-- Whether a pitch that follows GREF is not idle (R298, Table GUY-6). -/
def State.grefBusy (s : State) : Bool := (upTo 32).any (fun p => s.isGref p && !s.idle p)

def State.hubTurn (s : State) : Int := sint 32 (s.r .GY_HUB_HUB_TURN)
def State.guyAsym (s : State) : Int := sint 24 (s.r .GY_ASYM_ASYM)
/-- Whether a value in edge-time units exceeds k times THRESH, which is in ps (R306). -/
def State.overThr (s : State) (k : Nat) (x : Int) : Bool := decide (k * s.r .GY_CFG_THRESH * 65536 < x.natAbs * 125)

/-- EV_PEG_SHIFT, once for each setting of SHIFT_HOLD (R306): 1 RESIDUAL, 2 SLIP, 3 MISSING. A slip or a miss while the hold stands
becomes its cause, which only TIME.ALIGN clears (R309, log entry 39). The shift wins over a start of its core cycle (R308). -/
def pegShift (cause : Nat) (s : State) : State :=
  if s.rb .GY_STATUS_SHIFT_HOLD then (if 2 ≤ cause then s.w .GY_STATUS_SCAUSE 0 cause else s)
  else refuseStarts (·.guyline) <| event EV_PEG_SHIFT [(2, cause), (32, unsint 32 s.guy.resid)]
    (((s.setF .GY_STATUS_SHIFT_HOLD).setF .GY_STATUS_SHIFT_SEEN).w .GY_STATUS_SCAUSE 0 cause)

/-- The class of an accepted peg in the means, lines 4 to 6 of Table GUY-2, with the drift step of R307. -/
def classify (s : State) : State :=
  if !s.rb .GY_STATUS_ALIGNED then s
  else
    let r := s.guy.resid
    if s.overThr 1 r then pegShift 1 s
    else if s.overThr 2 (s.guy.rtMean - s.guy.rtBase) then
      event EV_PEG_PATH [(32, unsint 32 s.guy.rtMean)] (onGuy (fun (g : Guy) => { g with rtBase := g.rtMean }) (s.setF .GY_STATUS_PATH_SEEN))
    else if s.grefBusy || s.rb .GY_STATUS_SHIFT_HOLD then s
    else
      let x := max (-64) (min 64 r)
      onGuy (fun (g : Guy) => { g with drift := some (s.now, x) }) (moveBoff x s)

/-- The last n of a list. -/
def lastN {α : Type} (n : Nat) (l : List α) : List α := l.drop (l.length - n)

/-- The peg that waits for its reflection enters the means with a round trip (R302, R303), unless the calibration of TDCX00 is still
pending (R234). -/
def formPeg (rt : Int) (reflected : Bool) (s : State) : State :=
  match s.guy.waitA with
  | none => s
  | some a =>
    if s.rb .GY_STATUS_CALPEND then onGuy (fun (g : Guy) => { g with waitA := none }) s else
    let d := a - rt / 2 - s.guyAsym
    let s := onGuy (fun (g : Guy) => { g with
      waitA := none, pegs := lastN 16 (g.pegs ++ [({ a := a, d := d, rt := rt } : Peg)])
      align := g.align.map (fun z =>
        let n := if reflected then z.pegs + 1 else 0
        { z with pegs := n }) }) s
    let s := onGuy (fun (g : Guy) => { g with
      align := g.align.map (fun z => if z.pegs = 16 && z.fixed.isNone then { z with fixed := some (g.dMean, g.rtMean) } else z) }) s
    classify (showResid s)

/-- A peg without its reflection: the last good round trip, and the counts (R302). -/
def missRefl (s : State) : State :=
  if s.guy.waitA.isNone then s
  else
    let s := onGuy (fun (g : Guy) => { g with reflRun := g.reflRun + 1, echoE := none }) (s.inc .GY_CNT_REFL_MISS)
    formPeg s.guy.lastRt false (if 16 ≤ s.guy.reflRun then s.setF .GY_STATUS_NO_REFL else s)

/-- TIME.ALIGN at the next mark peg (R304): D is added to BEAT_OFF and the peg's beat n becomes beat 0. -/
def applyAlign (n : Nat) (s : State) : State :=
  match s.guy.align with
  | some z =>
    (match z.fixed with
      | some (dd, rt) =>
        let s := onGuy (fun (g : Guy) => { g with
          beat := (g.beat + 2 ^ 48 - n % 2 ^ 48) % 2 ^ 48, pegBeat := 0, base := 0, rtBase := rt, missRun := 0, align := none }) (moveBoff dd s)
        let s := ((s.setF .GY_STATUS_ALIGNED).w .GY_STATUS_SHIFT_HOLD 0 0).w .GY_STATUS_ALIGN_ARMED 0 0
        complete 0x0C02 z.d ST_OK false 0 0 0 (showResid s)
      | none => s)
  | none => s

/-- The echo of the peg of beat n is due at the edge of beat n + 64, while ECHO is set (R300). -/
def armEcho (n : Nat) (s : State) : State :=
  if s.rb .GY_CFG_ECHO then onGuy (fun (g : Guy) => { g with echoAt := some (s.beatEdge (n + 64) / (ETU : Int)).toNat }) s else s

/-- A peg or mark peg with its stamp (R300, R302, R305, R306). A slip is no peg of the means, but of a TIME.ALIGN in progress it is one of
the 16, in the beat in which it falls (log entry 39). -/
def pegPulse (stamp : Nat) (mark : Bool) (s : State) : State :=
  let s := missRefl s
  let aligned := s.rb .GY_STATUS_ALIGNED
  let lead := s.guy.dMean + s.guy.rtMean / 2 + s.guyAsym
  let per := s.pegBeats
  let here := (s.guy.beat : Int) + ((stamp : Int) - s.beatEdge s.guy.beat) / (BEAT_ETU : Int)
  let near := ((stamp : Int) - lead - s.beatEdge 0 + (per * BEAT_ETU / 2 : Nat)) / ((per * BEAT_ETU : Nat) : Int) * (per : Nat)
  let n := (if aligned then near else here).toNat
  let a := (stamp : Int) - s.beatEdge n
  let slip := aligned && decide ((BEAT_ETU : Int) / 2 < (a - lead).natAbs)
  let s := if slip then pegShift 2 (s.inc .GY_CNT_SLIP_CNT) else s
  if slip && s.guy.align.isNone then armEcho n s
  else
    let n := if slip then here.toNat else n
    let a := (stamp : Int) - s.beatEdge n
    let s := onGuy (fun (g : Guy) => { g with pegBeat := n, missRun := 0, waitA := some a }) s
    let s := if mark then applyAlign n s else s
    let e := s.beatEdge (s.guy.pegBeat + 64)
    let s := onGuy (fun (g : Guy) => { g with echoE := some e.toNat }) (armEcho s.guy.pegBeat s)
    if s.rb .GY_CFG_REFL then s else formPeg s.guy.lastRt false s

/-- A reflection (R302); one later than half a peg period after the echo is none. -/
def reflection (stamp : Nat) (s : State) : State :=
  match s.guy.waitA, s.guy.echoE with
  | some _, some e =>
    let rt := (stamp : Int) - (e : Nat) - s.hubTurn
    if e + s.pegBeats / 2 * BEAT_ETU < stamp then missRefl s else
    formPeg rt true (onGuy (fun (g : Guy) => { g with lastRt := rt, reflRun := 0, echoE := none }) (s.w .GY_STATUS_NO_REFL 0 0))
  | _, _ => s

/-- A GPEG pulse: the stamp of its rising edge by TDCX00, at the time that its bins and offset give, less the path delay (R191, R300), and its high width in
1/64 beat (R299, Table GUY-1). -/
def execGpegPulse (coarse : Nat) (fine : Fin 1024) (width64 : Nat) (s : State) : Out := .next <|
  let stamp := s.stampTime 1024 coarse fine.val - s.guy.pathIn
  let (ok, s) := tdcEdge 1024 stamp coarse s
  if !ok then s
  else if width64 < 32 then s.inc .GY_CNT_BADW
  else if width64 < 96 then reflection stamp s
  else if width64 < 192 then pegPulse stamp false s
  else if 256 ≤ width64 && width64 < 544 then pegPulse stamp true s
  else s.inc .GY_CNT_BADW

/-- The echo: GPEG_RET is high for 2 beats from the edge 64 beats after the peg's beat (R300). -/
def execEchoDrive (s : State) : Out := .next <|
  match s.guy.echoAt with
  | some c => if s.now < c then s else onGuy (fun (g : Guy) => { g with echoAt := none, echoLowAt := s.now + 16 }) s
  | none => s

/-- GPEG_RET at its contact. -/
def State.gpegRet (s : State) : Bool := s.now < s.guy.echoLowAt

/-- No reflection within half a peg period after the echo (R302). -/
def execReflectionTimeout (s : State) : Out := .next <|
  match s.guy.echoE with
  | some e => if s.guy.waitA.isSome && e + s.pegBeats / 2 * BEAT_ETU ≤ s.now * ETU then missRefl s else s
  | none => s

/-- A window without its peg: the count of misses, and the 16th in a row is a shift (Table GUY-9). -/
def missPeg (n : Nat) (s : State) : State :=
  let s := onGuy (fun (g : Guy) => { g with pegBeat := n, missRun := g.missRun + 1 }) (s.inc .GY_STATUS_MISS_CNT)
  if s.guy.missRun = 16 then pegShift 3 s else s

/-- The window of the next peg passes without one (R305); 16 in a row are a shift of cause MISSING (R306). -/
def execPegWindowMiss (s : State) : Out := .next <|
  let n := s.guy.pegBeat + s.pegBeats
  let lead := s.guy.dMean + s.guy.rtMean / 2 + s.guyAsym
  if s.rb .GY_STATUS_ALIGNED && decide (s.beatEdge n + lead + (BEAT_ETU : Int) / 2 ≤ (s.now * ETU : Nat)) then
    missPeg n s
  else s

/-! ## TIME commands (R322) -/

/-- TIME.GUYCFG. ARG0 the address of the images of GY_CFG, GY_HUB and GY_ASYM. -/
def timeGuycfgForm (d : Desc) (_ : State) : List (Bool × Nat) := [args d 1, reachD d d.a0 12]
def guyBad (v : List Nat) : Bool :=
  let cfg := v.getD 0 0
  10 < bits cfg 31 28 || bits cfg 25 18 < 5 || 200 < bits cfg 25 18 || regRsv .GY_CFG cfg || regRsv .GY_ASYM (v.getD 2 0)
def timeGuycfgAct (d : Desc) (s : State) : Act :=
  let v := s.words d d.a0 3
  let cfg := v.getD 0 0
  { checks := [(s.grefBusy, ST_STATE), s.rfault d d.a0 12, (guyBad v, ST_RANGE)]
    after := ((s.wImg .GY_CFG 0 cfg).wImg .GY_HUB 0 (v.getD 1 0)).wImg .GY_ASYM 0 (v.getD 2 0) }
def execTimeGuycfg (d : Desc) (s : State) : Out := .next <| runAct 0x0C01 d (timeGuycfgForm d s) (timeGuycfgAct d) s

/-- The checks of TIME.ALIGN. -/
def alignChecks (d : Desc) (s : State) : List (Bool × Nat) := [
  (!s.guy.gref || !s.rb .GY_CFG_REFL || s.rb .GY_STATUS_CALPEND || s.grefBusy || s.guy.align.isSome, ST_STATE),
  (d.a0 == 0 || 10000 < d.a0, ST_RANGE)]

/-- TIME.ALIGN. ARG0 the timeout in ms. -/
def execTimeAlign (d : Desc) (s : State) : Out := .next <| runCmd 0x0C02 d [args d 1]
  (fun s => checked (alignChecks d s)
    (onGuy (fun (g : Guy) => { g with align := some { d := d, deadline := s.now + 1000000 * d.a0 } }) (s.setF .GY_STATUS_ALIGN_ARMED), .later) s) s

/-- The timeout of TIME.ALIGN (R304). -/
def execTimeAlignTimeout (s : State) : Out := .next <|
  match s.guy.align with
  | some z =>
    if z.deadline ≤ s.now then
      complete 0x0C02 z.d ST_TIMEOUT false 0 0 0 (onGuy (fun (g : Guy) => { g with align := none }) (s.w .GY_STATUS_ALIGN_ARMED 0 0))
    else s
  | none => s

/-- The checks of TIME.ACCEPT, and a held shift taken as a new path delay (0) or as a shift of the beats (1). -/
def acceptChecks (d : Desc) (s : State) : List (Bool × Nat) :=
  [(!s.rb .GY_STATUS_SHIFT_HOLD, ST_STATE), (d.a0 == 1 && s.grefBusy, ST_STATE), (2 ≤ s.r .GY_STATUS_SCAUSE, ST_RANGE)]
def acceptShift (choice : Nat) (s : State) : State :=
  let s := if choice = 0 then onGuy (fun (g : Guy) => { g with base := g.dMean }) s
    else onGuy (fun (g : Guy) => { g with base := 0 }) (moveBoff s.guy.resid s)
  showResid (s.w .GY_STATUS_SHIFT_HOLD 0 0)

/-- TIME.ACCEPT (R309). ARG0 0 KEEP, 1 ADOPT. -/
def execTimeAccept (d : Desc) (s : State) : Out := .next <| runCmd 0x0C03 d [args d 1, choice 2 d.a0]
  (fun s => checked (acceptChecks d s) (acceptShift d.a0 s, .done ST_OK) s) s

/-- TIME.PTPCFG. ARG0 the address of the image of TM_CFG, then PP_CFG and PP_ASYM of each port. -/
def timePtpcfgForm (d : Desc) (_ : State) : List (Bool × Nat) := [args d 1, reachD d d.a0 100]
def State.ptpBad (s : State) (n x : Nat) : Bool :=
  (bit x 31 && (s.rb .LK_STATE_COMPAT n || s.r .LK_CFG_MODE n == 1 || s.r .LK_CFG_ROLE n == 2 || s.r .LK_CFG_ROLE n == 3)) ||
    9 < bits x 23 20 || bits x 19 16 < 2 || 10 < bits x 19 16 || bits x 15 0 == 0 || 10000 < bits x 15 0
def timePtpcfgAct (d : Desc) (s : State) : Act :=
  let v := s.words d d.a0 25
  let cfg := fun n => v.getD (1 + 2 * n) 0
  { checks := [s.rfault d d.a0 100, (regRsv .TM_CFG (v.getD 0 0) || (upTo 12).any (fun n => s.ptpBad n (cfg n)), ST_RANGE)]
    after := (upTo 12).foldl (fun t n =>
      (((t.wImg .PP_CFG n (cfg n)).wImg .PP_ASYM n (v.getD (2 + 2 * n) 0)).w .PP_STAT_PSTATE n 1).onPp n (fun x => { seq := x.seq, annAt := s.now }))
      (((s.wImg .TM_CFG 0 (v.getD 0 0)).w .TM_STATUS_SLAVE_PORT 0 0x1F)) }
def execTimePtpcfg (d : Desc) (s : State) : Out := .next <| runAct 0x0C04 d (timePtpcfgForm d s) (timePtpcfgAct d) s

/-! ## The local clock (R316 to R319) -/

/-- The clock stands at the master's time in the next epoch (R317). -/
def newEpoch (ns : Nat) (s : State) : State :=
  event EV_TIME_EPOCH [(16, s.clk.epoch + 1)]
    ({ s with clk := { s.clk with epoch := s.clk.epoch + 1, ns := ns, frac := 0, slewTerm := 0, slewLeft := 0 } }.setF
      .TM_STATUS_EPOCH_SEEN |> lifeAdd 0x17 0 16 4 1)

/-- Start to slew the clock by x ns at 1,000 ppm (R317). -/
def slew (x : Int) (s : State) : State :=
  { s with clk := { s.clk with slewLeft := x * 2 ^ 32, slewTerm := if x < 0 then -4294967 else if x = 0 then 0 else 4294967 } }.w
    .TM_STATUS_SLEWING 0 (b2n (x != 0))

/-- A time to set: forward at once, backward as a new epoch, and as a slew once the epochs are used up. -/
def setTime (t : Nat) (s : State) : State :=
  if s.clk.ns ≤ t then { s with clk := { s.clk with ns := t, frac := 0 } }
  else if s.clk.epoch < 0xFFFF then newEpoch t s
  else slew ((t : Int) - s.clk.ns) s

/-- TIME.SET. ARG0 the time in ns. -/
def execTimeSet (d : Desc) (s : State) : Out := .next <| runCmd 0x0C05 d [args d 1]
  (fun s => checked [((upTo 12).any (fun n => s.rb .PP_CFG_EN n), ST_STATE)]
    (setTime d.a0 s, .done ST_OK) s) s

/-- TIME.READ. ARG0 the destination: TM_NS, TM_FRAC, TM_EPOCH, the beat counter, TM_STATUS and GY_STATUS. -/
def execTimeRead (d : Desc) (s : State) : Out := .next <| runCmd 0x0C06 d [args d 1, reachD d d.a0 32, s.wdown d.a0 32]
  (fun s => (s.winStore d.path d.a0 (bytesOf 32 (pack [(64, s.clk.ns), (32, s.clk.frac), (32, s.clk.epoch), (64, s.guy.beat),
    (32, s.img .TM_STATUS 0), (32, s.img .GY_STATUS 0)])), .done ST_OK)) s

/-- TIME.FWD. ARG0 the port mask. -/
def timeFwdForm (d : Desc) (s : State) : List (Bool × Nat) :=
  [args d 1, mask 12 d.a0, dis ((maskBits 12 d.a0).any (fun n => !s.pEn n))]
def timeFwdAct (d : Desc) (s : State) : Act := { checks := [], after := s.w .TM_FWD_FWD 0 d.a0 }
def execTimeFwd (d : Desc) (s : State) : Out := .next <| runAct 0x0C07 d (timeFwdForm d s) (timeFwdAct d) s

/-- One core cycle of the local clock (R316): the nominal increment with the frequency and slew terms. -/
def clockTick (s : State) : State :=
  let c := s.clk
  let st := if c.slewTerm = 0 then 0 else if c.slewTerm.natAbs ≤ c.slewLeft.natAbs then c.slewTerm else c.slewLeft
  let f := if s.guy.gref then 0 else c.freqTerm
  let v := (c.frac : Int) + 2 ^ 32 + f + st
  let left := c.slewLeft - st
  let s := { s with clk := { c with ns := (c.ns + (v / 2 ^ 32).toNat) % 2 ^ 64, frac := (v % 2 ^ 32).toNat, slewLeft := left,
                                    slewTerm := if left = 0 then 0 else c.slewTerm } }
  if left = 0 && c.slewTerm != 0 then s.w .TM_STATUS_SLEWING 0 0 else s

/-- The servo takes an offset from master in ns (R317, R319); the frequency that it forms while GREF is absent is a free
value within ±100 ppm. -/
def servo (x : Int) (s : State) : State :=
  let offs := lastN 4 (s.clk.offs ++ [x])
  let good := if x.natAbs < 100 then s.clk.good + 1 else 0
  let s := { s with clk := { s.clk with offs := offs, good := good } }
  let s := if good = 16 then (s.setF .TM_STATUS_LOCKED).w .TM_STATUS_HOLDOVER 0 0 else s
  let agree := offs.length = 4 && offs.all (fun a => offs.all (fun b => (a - b).natAbs ≤ 1000))
  if !agree then s
  else
    let s := if s.guy.gref then s
      else
        let (v, s) := s.fresh
        { s with clk := { s.clk with freqTerm := ((v % 858993 : Nat) : Int) - 429496 } }
    if x.natAbs ≤ 1000000 then slew (-x) s
    else if x < 0 then
      event EV_TIME_STEP [(64, x.natAbs)]
        ({ s with clk := { s.clk with ns := s.clk.ns + x.natAbs, offs := [] } }.setF .TM_STATUS_STEP_SEEN |> lifeAdd 0x17 0 20 4 1)
    else if s.clk.epoch < 0xFFFF then newEpoch (s.clk.ns - x.natAbs) { s with clk := { s.clk with offs := [] } }
    else slew (-x) s

/-! ## PTP (R294, R315, R319 to R321) -/

/-- PTP runs on a port that is enabled for it, UP and native (Table GUY-5). -/
def State.ptpOn (s : State) (n : Nat) : Bool :=
  s.rb .PP_CFG_EN n && s.r .LK_STATE_STATE n == PUP && !s.rb .LK_STATE_COMPAT n

/-- A mean path delay sample in ps (R320). -/
def delaySample (n x : Nat) (s : State) : State :=
  let thr := 1000 * s.r .PP_CFG_PATH_THR n
  let off := fun a b => if a ≤ b then b - a else a - b
  let far := thr < off x (s.r .PP_DELAY_DELAY n)
  if !far && !s.rb .PP_STAT_IGNORING n then s
  else
    let s := if s.rb .PP_STAT_IGNORING n then s
      else event EV_PTP_PATH_CHANGE [(4, n), (32, x)]
        (lifeAdd 0x17 0 24 4 1 ((s.setF .PP_STAT_PATH_CHANGE n).setF .PP_STAT_IGNORING n))
    let l := match (s.pp n).delays with
      | [] => [x]
      | a :: r => if thr < 2 * off x a then [x] else a :: (r ++ [x])
    if l.length = 16 then
      (((s.w .PP_DELAY_DELAY n (roundDiv (l.foldl (· + ·) 0 : Nat) 16).toNat).w .PP_STAT_IGNORING n 0).w .PP_STAT_RUN n 16).onPp n
        (fun y => { y with delays := [] })
    else (s.w .PP_STAT_RUN n l.length).onPp n (fun y => { y with delays := l })

/-- Whether a port may be a master: not when SLAVE_ONLY, and beside a slave port only as a boundary clock (R315, log entry 40). -/
def State.canMaster (s : State) (n : Nat) : Bool :=
  !s.rb .TM_CFG_SLAVE_ONLY && s.r .TM_STATUS_SLAVE_PORT != n && (s.rb .TM_CFG_BC || s.r .TM_STATUS_SLAVE_PORT == 0x1F)

/-- The portState values of the standard that the model gives a port: 4 LISTENING, 6 MASTER, 7 PASSIVE, 9 SLAVE (log entry 40). -/
def showPorts (s : State) : State :=
  forAll ((upTo 12).filter s.ptpOn) (fun n t => t.w .PP_STAT_PSTATE n
    (if s.r .TM_STATUS_SLAVE_PORT = n then 9 else if s.canMaster n then 6 else if s.r .TM_STATUS_SLAVE_PORT = 0x1F then 4 else 7)) s

/-- TSQ_DEPTH follows the queue. -/
def showTsq (n : Nat) (s : State) : State := s.w .PP_STAT_TSQ_DEPTH n (s.pp n).tsq.length

/-- The local clock in 2^-16 ns. -/
def State.clockNow (s : State) : Int := (s.clk.ns * 65536 + s.clk.frac / 65536 : Nat)

/-- The identity of a port of this device. -/
def State.portId (s : State) (n : Nat) : Nat := s.devId * 65536 + n + 1

/-- The data set that an Announce compares by, and that of this device (R315; the order is the standard's, log entry 40). -/
def announceKey (m : PtpMsg) : List Nat := [m.prio1, m.cls, m.acc, m.var, m.prio2, m.gm, m.steps, m.src]
def State.ownKey (s : State) : List Nat := [s.r .TM_CFG_PRIO1, 248, 0xFE, 0xFFFF, s.r .TM_CFG_PRIO2, s.devId]

/-- Whether one data set comes before another. -/
def before : List Nat → List Nat → Bool
  | a :: l, b :: m => a < b || (a == b && before l m)
  | _, _ => false

/-- The announceReceiptTimeout of a port in nanoseconds: ANN_TMO announce intervals; 2^n seconds over 2^k are `logSec n k`. -/
def logSec (n k : Nat) : Nat := 1000000000 * 2 ^ n / 2 ^ k
def State.annLimit (s : State) (n : Nat) : Nat := s.r .PP_CFG_ANN_TMO n * logSec (s.r .PP_CFG_LOG_ANN n) 3

/-- The qualified masters of a port: two Announce messages have come, and the last one within the timeout. -/
def State.masters (s : State) (n : Nat) : List PtpMsg :=
  ((s.pp n).foreign.filter (fun f => 2 ≤ f.2.2 && s.now < f.2.1 + s.annLimit n)).map (·.1)

/-- The best qualified master with its port. -/
def State.bestMaster (s : State) : Option (Nat × PtpMsg) :=
  (((upTo 12).filter s.ptpOn).flatMap (fun n => (s.masters n).map (fun m => (n, m)))).foldl (fun b x =>
    match b with | some y => if before (announceKey x.2) (announceKey y.2) then some x else b | none => some x) none

/-- The best master makes its port the slave, unless this device is better and may be a master; the offsets of another master start
anew (R315, R319). -/
def elect (s : State) : State :=
  match s.bestMaster with
  | none => s
  | some (n, m) =>
    if s.rb .TM_CFG_SLAVE_ONLY || before (announceKey m) s.ownKey then
      let c := if s.clk.parent = m.src then s.clk else { s.clk with parent := m.src, offs := [] }
      showPorts (({ s with clk := { c with master := m.gm } } : State).w .TM_STATUS_SLAVE_PORT 0 n)
    else showPorts (s.w .TM_STATUS_SLAVE_PORT 0 0x1F)

/-- An Announce of the domain: its sender counts as a master of the port, and the best one is chosen. -/
def announceIn (n : Nat) (m : PtpMsg) (s : State) : State :=
  let k := match (s.pp n).foreign.find? (fun f => f.1.src == m.src) with
    | some f => if s.now < f.2.1 + 4 * logSec (s.r .PP_CFG_LOG_ANN n) 3 then f.2.2 + 1 else 1
    | none => 1
  elect (s.onPp n (fun x => { x with annAt := s.now, foreign := lastN 5 (x.foreign.filter (fun f => f.1.src != m.src) ++ [(m, s.now, k)]) }))

/-- An offset from the master in 2^-16 ns: the servo takes it, corrected by PP_ASYM, unless the port ignores its offsets (R317, R320). -/
def offsetIn (n : Nat) (x : Int) (s : State) : State :=
  if s.r .TM_STATUS_SLAVE_PORT == n && !s.rb .PP_STAT_IGNORING n then
    servo (roundDiv (1000 * x - 65536 * (sint 32 (s.r .PP_ASYM_ASYM n) + s.r .PP_DELAY_DELAY n)) 65536000) s
  else s

/-- A mean path delay in 2^-16 ns, of which twice the value is given; one below 0 counts as 0. -/
def delayIn (n : Nat) (x : Int) (s : State) : State := delaySample n (roundDiv (1000 * x) 131072).toNat s

/-- The time of a Sync has come: from the master's time t1 to its arrival t2, with the corrections of both messages. -/
def syncTime (n : Nat) (t1 t2 corr : Int) (s : State) : State :=
  let x := t2 - t1 - corr
  offsetIn n x (s.onPp n (fun y => { y with ms := some x, sync := none }))

/-- Take the queue entry of an event message of a sequence. -/
def takeTx (n : Nat) (k : PtpKind) (seq : Nat) (s : State) : Option TxStamp × State :=
  match (s.pp n).tsq.find? (fun q => q.kind == k && q.seq == seq) with
  | some q => (some q, showTsq n (s.onPp n (fun x => { x with tsq := x.tsq.erase q })))
  | none => (none, s)

/-- Sync and Follow_Up of the parent (R315): a one-step Sync carries its time, a two-step one waits for its Follow_Up. -/
def syncIn (n : Nat) (m : PtpMsg) (s : State) : State :=
  if m.src != s.clk.parent || s.r .TM_STATUS_SLAVE_PORT != n then s
  else if m.kind == .sync then
    (if m.twoStep then s.onPp n (fun x => { x with sync := some { m := m, rx := s.clockNow } })
     else syncTime n (65536 * m.time) s.clockNow m.corr s)
  else
    match (s.pp n).sync with
    | some w => if w.m.seq = m.seq then syncTime n (65536 * m.time) w.rx (w.m.corr + m.corr) s else s
    | none => s

/-- A Delay_Resp to a Delay_Req of this port: it takes the request's queue entry, and with the last Sync gives the mean path delay of an
end-to-end port. -/
def delayRespIn (n : Nat) (m : PtpMsg) (s : State) : State :=
  if m.req != s.portId n || s.rb .PP_CFG_DELAY n then s
  else
    match takeTx n .delayReq m.seq s with
    | (some q, s) =>
      (match (s.pp n).ms with
        | some x => delayIn n (x + (65536 * m.time - q.time - m.corr)) s
        | none => s)
    | (none, s) => s

/-- Pdelay_Resp and its Follow_Up to a Pdelay_Req of this port: with the times of both ends they give the mean path delay of a
peer-to-peer port. -/
def pdelayIn (n : Nat) (m : PtpMsg) (s : State) : State :=
  if m.req != s.portId n || !s.rb .PP_CFG_DELAY n then s
  else if m.kind == .pdelayResp then
    match takeTx n .pdelayReq m.seq s with
    | (some q, s) =>
      if m.twoStep then s.onPp n (fun x => { x with pdelay := some { m := m, rx := s.clockNow, tx := q.time } })
      else delayIn n (s.clockNow - q.time - m.corr) s
    | (none, s) => s
  else
    match (s.pp n).pdelay with
    | some w =>
      if w.m.seq = m.seq && w.m.src == m.src then
        delayIn n (w.rx - w.tx - (65536 * m.time - 65536 * w.m.time) - w.m.corr - m.corr) (s.onPp n (fun x => { x with pdelay := none }))
      else s
    | none => s

/-- A request of a partner: a port that is a master owes a Delay_Resp, a peer-to-peer port a Pdelay_Resp. -/
def requestIn (n : Nat) (m : PtpMsg) (s : State) : State :=
  if m.kind == .delayReq then
    (if s.canMaster n && !s.rb .PP_CFG_DELAY n then s.onPp n (fun x => { x with owed := lastN 64 (x.owed ++ [(.delayResp, m.seq)]) }) else s)
  else if s.rb .PP_CFG_DELAY n then s.onPp n (fun x => { x with owed := lastN 64 (x.owed ++ [(.pdelayResp, m.seq)]) }) else s

/-- A PTP message of the domain. -/
def ptpIn (n : Nat) (m : PtpMsg) (s : State) : State :=
  match m.kind with
  | .announce => announceIn n m s
  | .sync | .followUp => syncIn n m s
  | .delayReq | .pdelayReq => requestIn n m s
  | .delayResp => delayRespIn n m s
  | .pdelayResp | .pdelayRespFollowUp => pdelayIn n m s
  | _ => s

/-- A received PTP message (R294, R315), whose credits return. Signaling, Management and other domains are discarded and counted; the
device's own messages have no effect. -/
def execPtp (port : Fin 12) (m : PtpMsg) (s : State) : Out := .next <|
  let n := port.val
  let s := if s.r .LK_STATE_STATE n == PUP then releaseCr n 1 (ceilDiv (4 * m.len) 32) 0 s else s
  if !s.ptpOn n then s.inc .PP_STAT_DISCARD n
  else if m.kind == .signaling || m.kind == .management || m.domain != s.r .TM_CFG_DOMAIN then s.inc .PP_STAT_DISCARD n
  else if m.src / 65536 = s.devId then s
  else ptpIn n m s

/-- HOLDOVER begins: no port is the slave. -/
def enterHoldover (s : State) : State :=
  let s := (((s.setF .TM_STATUS_HOLDOVER).inc .TM_STATUS_HOLD_CNT).w .TM_STATUS_LOCKED 0 0).w .TM_STATUS_SLAVE_PORT 0 0x1F
  event EV_PTP_HOLDOVER [] (lifeAdd 0x17 0 8 4 1 { s with clk := { s.clk with good := 0, offs := [] } })

/-- Whether no port has a qualified master: PTP is enabled, and the announceReceiptTimeout of every enabled port has run out. -/
def State.noMaster (s : State) : Bool :=
  s.bestMaster.isNone && (upTo 12).any (fun n => s.rb .PP_CFG_EN n) &&
    (upTo 12).all (fun n => !s.rb .PP_CFG_EN n || decide ((s.pp n).annAt + s.annLimit n ≤ s.now))

/-- announceReceiptTimeout expires (R319): the best of the qualified masters that remain is chosen, and with none the device enters
HOLDOVER, with the frequency term as it stands. -/
def execAnnounceTimeout (s : State) : Out := .next <|
  if s.rb .TM_STATUS_HOLDOVER || !s.noMaster then elect s
  else showPorts (enterHoldover s)

/-- The event messages, whose event-point times are queued (R321). -/
def PtpKindEvent (k : PtpKind) : Bool := k == .sync || k == .delayReq || k == .pdelayReq || k == .pdelayResp

/-- The event message of the port that a general message follows. -/
def matchingEvent : PtpKind → Option PtpKind
  | .followUp => some .sync
  | .pdelayRespFollowUp => some .pdelayResp
  | _ => none

/-- Send one PTP message; its content beyond the profile is a free value. -/
def sendPtp (n : Nat) (s : State) : State :=
  let (v, s) := s.fresh
  s.send n { h := { ttype := 6, len := 16 }, data := bytesOf 64 v }

/-- Send an event message and queue its transmit timestamp; an answer bears the sequence of its request. -/
def sendEvent (n : Nat) (k : PtpKind) (seq : Nat) (s : State) : State :=
  let s := sendPtp n s
  showTsq n (s.onPp n (fun x => { x with
    tsq := x.tsq ++ [{ seq := seq, kind := k, time := s.clockNow, at' := s.now }]
    seq := if k == .pdelayResp then x.seq else (x.seq + 1) % 65536 }))

/-- The sequence of the next event message of a kind: that of the request it answers, or the port's own count. -/
def PtpPort.nextSeq (x : PtpPort) (k : PtpKind) : Nat :=
  if k == .pdelayResp then ((x.owed.find? (fun e => e.1 == k)).map (·.2)).getD 0 else x.seq

/-- The oldest answer owed of a kind is no more. -/
def answered (n : Nat) (k : PtpKind) (s : State) : State :=
  s.onPp n (fun x => match x.owed.find? (fun e => e.1 == k) with | some e => { x with owed := x.owed.erase e } | none => x)

/-- The interval of a message kind of a port in nanoseconds (Table GUY-7), for the kinds that a port sends of its own. -/
def State.ptpEvery (s : State) (n : Nat) : PtpKind → Option Nat
  | .sync => some (logSec (s.r .PP_CFG_LOG_SYNC n) 7)
  | .announce => some (logSec (s.r .PP_CFG_LOG_ANN n) 3)
  | .delayReq | .pdelayReq => some (logSec (s.r .PP_CFG_LOG_DREQ n) 7)
  | _ => none

/-- Whether a port sends a kind in its present role (R315): Sync and Announce as a master, Delay_Req as the slave of an end-to-end
port, Pdelay_Req on a peer-to-peer port, and the answers that it owes (log entry 40). -/
def State.ptpRole (s : State) (n : Nat) (k : PtpKind) : Bool :=
  match k with
  | .sync | .announce => s.canMaster n
  | .delayReq => s.r .TM_STATUS_SLAVE_PORT == n && !s.rb .PP_CFG_DELAY n
  | .pdelayReq => s.rb .PP_CFG_DELAY n
  | .delayResp | .pdelayResp => (s.pp n).owed.any (fun e => e.1 == k)
  | _ => true

/-- Whether the interval of a kind is over: none was sent since the port was configured, or the last one that long ago. -/
def State.ptpDue (s : State) (n : Nat) (k : PtpKind) : Bool :=
  match s.ptpEvery n k, (s.pp n).sent.find? (fun e => e.1 == k) with
  | some d, some e => decide (e.2 + d ≤ s.now)
  | _, _ => true

/-- A held event message goes once the queue has room. -/
def sendHeld (n : Nat) (s : State) : State :=
  match (s.pp n).held with
  | some (q, k, _) => if (s.pp n).tsq.length < 64 then sendEvent n k q (s.onPp n (fun x => { x with held := none })) else s
  | none => s

/-- An event message is due: sent with a queue entry, or held while the queue is full. -/
def intervalEvent (n : Nat) (kind : PtpKind) (s : State) : State :=
  let q := (s.pp n).nextSeq kind
  if (s.pp n).tsq.length < 64 then sendEvent n kind q (answered n kind s)
  else if (s.pp n).held.isSome then s
  else (answered n kind s).onPp n (fun x => { x with held := some (q, kind, s.now) })

/-- A general message is due: one that follows an event message takes its queue entry, and a Delay_Resp answers a request. -/
def intervalGeneral (n : Nat) (kind : PtpKind) (s : State) : State :=
  match matchingEvent kind with
  | some e =>
    match (s.pp n).tsq.find? (fun q => q.kind == e) with
    | some q => sendHeld n (showTsq n (sendPtp n (s.onPp n (fun x => { x with tsq := x.tsq.erase q }))))
    | none => s
  | none => if kind == .announce || kind == .delayResp then sendPtp n (answered n kind s) else s

/-- A message is due on a port: sent, queued or held. -/
def intervalDue (n : Nat) (kind : PtpKind) (s : State) : State :=
  let s := if (s.ptpEvery n kind).isSome then
      s.onPp n (fun x => { x with sent := x.sent.filter (fun e => e.1 != kind) ++ [(kind, s.now)] }) else s
  if PtpKindEvent kind then intervalEvent n kind s else intervalGeneral n kind s

/-- An interval of a port expires, or a message answers one (R315, R321): an event message is queued or held, the message
that belongs to an event message consumes its entry, and an Announce is sent. -/
def execPtpMessageInterval (port : Fin 12) (kind : PtpKind) (s : State) : Out := .next <|
  let n := port.val
  if !s.ptpOn n || !s.ptpRole n kind || !s.ptpDue n kind then s
  else intervalDue n kind s

/-- Whether an entry of the timestamp queue is 100 ms old. -/
def State.tsqOld (s : State) (q : TxStamp) : Bool := decide (q.at' + 100000000 ≤ s.now)

/-- An entry not consumed within 100 ms is discarded (R321). -/
def execTsqEntryTimeout (port : Fin 12) (s : State) : Out := .next <|
  let n := port.val
  if (s.pp n).tsq.any s.tsqOld then sendHeld n (showTsq n (s.onPp n (fun x => { x with tsq := x.tsq.filter (fun q => !s.tsqOld q) }))) else s

/-- A message held for 1 ms is discarded (R321). -/
def execTsqHoldTimeout (port : Fin 12) (s : State) : Out := .next <|
  let n := port.val
  match (s.pp n).held with
  | some (_, _, at') => if at' + 1000000 ≤ s.now then (s.setF .PP_STAT_TSQ_OVF n).onPp n (fun x => { x with held := none }) else s
  | none => s

end Sys2Proof.Machine
end

