-- ==== Sys2Proof/Machine/Link.lean ====
section
/-! DEFINITION. Ridge ports and lanes: replay, control words, striping, training, sleep, credits, and the LINK commands
(R264 to R288, R295 to R297). -/

namespace Sys2Proof.Machine

/-! ## Ports -/

/-- The port states of Table RDG-5. -/
abbrev POFF : Nat := 0
abbrev PDETECT : Nat := 1
abbrev PHANDSHAKE : Nat := 2
abbrev PEQUALIZE : Nat := 3
abbrev PALIGN : Nat := 4
abbrev PRETRAIN : Nat := 7
abbrev PBACKOFF : Nat := 8
abbrev PDOWN : Nat := 9

/-- The lane states of Table RDG-12. -/
abbrev LACTIVE : Nat := 1
abbrev LLOST : Nat := 2
abbrev LDROPPED : Nat := 3
abbrev LSOAK : Nat := 4
abbrev LEXCLUDED : Nat := 5

def State.pst (s : State) (n : Nat) : Nat := s.r .LK_STATE_STATE n
def State.lst (s : State) (l : Nat) : Nat := s.r .LK_LANE_LSTATE (l / 4) (l % 4)
def setLane (l v : Nat) (s : State) : State := s.w .LK_LANE_LSTATE (l / 4) v (l % 4)

/-- The failure causes of LK_STATE. -/
abbrev CABSENT : Nat := 1
abbrev CSILENT : Nat := 2
abbrev CUNPLUGGED : Nat := 3
abbrev CROLE : Nat := 4
abbrev CEQUALIZE : Nat := 5
abbrev CALIGN : Nat := 6

/-- A control word is superseded. -/
def dropWord (n code : Nat) (s : State) : State := s.onLp n (fun x => { x with ctrl := x.ctrl.filter (fun e => e.1 != code) })

/-- A lane map and its generation as a control word's content. -/
def mapGen (m g : Nat) : Nat := m + 16 * g

/-- Send NAK with the FSEQ expected next (R271). -/
def sendNak (n : Nat) (s : State) : State :=
  ctrlWord n 1 (s.lp n).fseqRx ((s.inc .LK_ERR_NAK_CNT n).onLp n (fun x => { x with nakSent := true }))

/-- The own messages among packets (TTYPE MSG). -/
def ownMsgs (l : List Pkt) : Nat := (l.filter (fun k => k.h.ttype == 5)).length

/-- A port goes OFF or DOWN: replay buffer, queues and reads in progress are discarded, and its own messages counted
(R294, R296). -/
def shutPort (n st : Nat) (s : State) : State :=
  let x := s.lp n
  let s := s.inc .LK_TXN_DROP_MSG n 0 (ownMsgs (x.txq ++ x.replay.filterMap (·.2)))
  let s := ((s.w .LK_STATE_STATE n st).w .LK_STATE_LMAP n 0).w .LK_STATE_COMPAT n 0
  let s := forAll (upTo 4) (fun i t => if t.r .LK_LANE_LSTATE n i == LEXCLUDED then t else t.w .LK_LANE_LSTATE n 0 i) s
  s.onLp n (fun _ => { phase := st, stateAt := s.now })

/-- The port moves within an attempt; STATE shows RETRAIN while a retrain runs its attempts (R280, log entry 31). -/
def setPhase (n ph : Nat) (s : State) : State :=
  let s := s.onLp n (fun x => { x with phase := ph, stateAt := s.now })
  s.w .LK_STATE_STATE n (if (s.lp n).retrain && ph != PUP then PRETRAIN else ph)

/-- Start an attempt, number k + 1: DETECT, and HANDSHAKE at once where the partner's signal is there (R280). -/
def startAttempt (n k : Nat) (s : State) : State :=
  let s := (setPhase n PDETECT (s.w .LK_STATE_ATTEMPT n k)).onLp n (fun x => { x with attemptAt := s.now })
  if s.rb .LK_STATE_SIGDET n then setPhase n PHANDSHAKE s else s

/-- LINK.ENABLE of one port, and the start sequence: a port that is OFF or DOWN starts its first attempt; a disabled one stays OFF
(R296, R349). -/
def enablePort (n : Nat) (s : State) : State :=
  if s.pEn n && (s.pst n == POFF || s.pst n == PDOWN) then startAttempt n 0 s else s

/-- An attempt fails (R280): BACKOFF, and DOWN with EV_LINK_DOWN after the fourth. -/
def failAttempt (n cause : Nat) (s : State) : State :=
  let s := s.w .LK_STATE_CAUSE n cause
  let k := s.r .LK_STATE_ATTEMPT n
  if 3 ≤ k then event EV_LINK_DOWN [(4, n), (4, cause)] (shutPort n PDOWN s)
  else setPhase n PBACKOFF (s.onLp n (fun x => { x with backoffMs := 20 * 2 ^ k }))

/-- RETRAIN (R272, R280): the queues and the replay buffer survive, and attempts run. -/
def retrain (n : Nat) (s : State) : State :=
  let s := (s.inc .LK_CNT_RETRAIN_CNT n).w .LK_STATE_LMAP n 0
  let s := s.onLp n (fun x => { x with
    retrain := true, replays := 0, pend := none, oldGen := false, cwNext := none, cwHold := [], ctrl := [], nakSent := false
    idleSent := false, asleepTx := false, asleepRx := false })
  let s := forAll (upTo 4) (fun i t => if t.r .LK_LANE_LSTATE n i == LEXCLUDED then t else t.w .LK_LANE_LSTATE n 0 i) s
  startAttempt n 0 s


/-! ## Lanes (R267, R273 to R279) -/

/-- Re-stripe to a new map that this side has chosen (R275): RESTRIPE with GEN + 1 and a NAK; with no lane left, RETRAIN. -/
def restripe (n m g : Nat) (s : State) : State :=
  if m = 0 then retrain n s
  else
    let s := ((s.w .LK_STATE_LMAP n m).w .LK_STATE_GEN n g).inc .LK_CNT_RESTRIPE_CNT n
    let s := s.onLp n (fun x => { x with pend := some (m, g % 16), oldGen := true })
    sendNak n (ctrlWord n 3 (mapGen m (g % 16)) s)
def restripeOwn (n m : Nat) (s : State) : State := restripe n m ((s.r .LK_STATE_GEN n + 1) % 16) s

/-- A lane outside use keeps its filter only. -/
def Lane.renew (x : Lane) : Lane := { pre := x.pre, post := x.post }

/-- Source 0x03 lasting: the lane is EXCLUDED (R279). -/
def exclude (l : Nat) (s : State) : State :=
  event EV_LANE_FAULT [(4, l / 4), (6, l)] (lifeAdd 0x12 l 56 4 1 (setLane l LEXCLUDED s))

/-- A loss or a drop of a lane: its fault event, and the re-stripe without it. -/
def leaveLane (l : Nat) (s : State) : State :=
  let n := l / 4
  let s := faultEvent 3 l (exclude l) ((s.inc .LK_LANE_FAULTS n (l % 4)).onLn l Lane.renew)
  let m := s.r .LK_STATE_LMAP n
  restripeOwn n (m - (m &&& 2 ^ (l % 4))) s

/-- A lane in use is lost (R274, R275). -/
def laneLost (l : Nat) (s : State) : State :=
  if s.lst l != LACTIVE || s.pst (l / 4) != PUP then s
  else
    let s := setLane l LLOST (s.setF .LK_LANE_LOST_SEEN (l / 4) (l % 4))
    leaveLane l (event EV_LANE_LOST [(4, l / 4), (6, l)] (lifeAdd 0x12 l 48 4 1 s))

/-- A slow lane is dropped (R277). -/
def laneDropped (l : Nat) (s : State) : State :=
  let s := setLane l LDROPPED (s.setF .LK_LANE_DROP_SEEN (l / 4) (l % 4))
  (leaveLane l (event EV_LANE_DROPPED [(4, l / 4), (6, l)] (lifeAdd 0x12 l 52 4 1 s))).onLn l (fun x => { x with dropped := true })

def execLaneLockTimeout (lane : Fin 48) (s : State) : Out := .next <| laneLost lane.val s

/-- The lanes of a port that a new map leaves out wait for background training. -/
def dropLanes (n m : Nat) (s : State) : State :=
  forAll (upTo 4) (fun i t => if !m.testBit i && t.r .LK_LANE_LSTATE n i == LACTIVE then t.w .LK_LANE_LSTATE n LLOST i else t) s

/-- A partner's RESTRIPE (R275, R276): lanes join and leave with its map. -/
def adoptMap (n m g : Nat) (s : State) : State :=
  let s := forAll (upTo 4) (fun i t =>
    let st := t.r .LK_LANE_LSTATE n i
    if m.testBit i && (st == LSOAK || st == LLOST || st == LDROPPED) then
      (t.w .LK_LANE_LSTATE n LACTIVE i).onLn (4 * n + i) (fun x => { x.renew with activeAt := t.now })
    else t) (dropLanes n m s)
  let s := ((s.w .LK_STATE_LMAP n m).w .LK_STATE_GEN n g).inc .LK_CNT_RESTRIPE_CNT n
  ctrlWord n 4 (mapGen m g) (s.onLp n (fun x => { x with genRx := g, cwNext := none, cwHold := [] }))
def restripeIn (n map gen : Nat) (s : State) : State :=
  let m := map % 16
  let g := gen % 16
  if s.pst n != PUP then s
  else
    match (s.lp n).pend with
    | some (pm, pg) =>
      if pm = m && pg = g then dropWord n 3 (s.onLp n (fun x => { x with pend := none, oldGen := false, genRx := g }))
      else restripe n (pm &&& m) ((max pg g + 1) % 16) (dropLanes n (pm &&& m) s)
    | none =>
      if m = 0 then retrain n s
      else if s.r .LK_STATE_LMAP n = m && s.r .LK_STATE_GEN n = g then ctrlWord n 4 (mapGen m g) s
      else adoptMap n m g s
def execRestripe (port : Fin 12) (map gen : Nat) (s : State) : Out := .next <| restripeIn port.val map gen s

/-- RESTRIPE_ACK of the pending map: the old generation ends (R275). -/
def restripeAckIn (n map gen : Nat) (s : State) : State :=
  if (s.lp n).pend = some (map % 16, gen % 16) then
    dropWord n 3 (s.onLp n (fun x => { x with pend := none, oldGen := false, genRx := gen % 16 }))
  else s
def execRestripeAck (port : Fin 12) (map gen : Nat) (s : State) : Out := .next <| restripeAckIn port.val map gen s

/-- Whether a lane may end an attempt now: its first, or one of three more after the backoff of R280 (log entry 37). -/
def Lane.mayTrain (x : Lane) (now : Nat) : Bool :=
  x.fails == 0 || (x.fails < 4 && x.failAt + 20000000 * 2 ^ (x.fails - 1) ≤ now)

/-- The coefficients of a lane's transmitter: those of LK_FIR with FIR_FIXED set, else those that the partner's receiver sets in EQUALIZE
(R266). -/
def setFir (l pre post : Nat) (s : State) : State :=
  let n := l / 4
  let i := l % 4
  s.onLn l (fun x =>
    if s.rb .LK_CFG_FIR_FIXED n then { x with pre := s.r .LK_FIR_PRE n i, post := s.r .LK_FIR_POST n i } else { x with pre := pre, post := post })

/-- Background training brings a lost or dropped lane to SOAK (R278), with the coefficients that the partner sets. -/
def execLaneTrainDone (lane : Fin 48) (pre post : Nat) (s : State) : Out := .next <|
  let l := lane.val
  if !s.shedding && (s.ln l).mayTrain s.now && (s.lst l == LLOST || s.lst l == LDROPPED) && (s.pst (l / 4) == PUP || s.pst (l / 4) == PIDLE) then
    (setLane l LSOAK (setFir l pre post s)).onLn l (fun x => { x with soakAt := s.now, soakFail := false })
  else s

/-- A SOAK word of the partner (R278). -/
def soakIn (l : Nat) (pass : Bool) (s : State) : State :=
  if s.lst l == LSOAK then s.onLn l (fun x => { x with soakFail := x.soakFail || !pass }) else s
def execSoak (lane : Fin 48) (pass : Bool) (s : State) : Out := .next <| soakIn lane.val pass s

/-- A soak is over: its result goes to the partner, and the lane joins or stays out. -/
def soakDone (l : Nat) (uncorrectable serHigh : Bool) (s : State) : State :=
  let n := l / 4
  let x := s.ln l
  let good := !uncorrectable && !serHigh
  let s := ctrlWord n 8 (2 * l + b2n good) s
  if good && !x.soakFail then
    restripeOwn n (s.r .LK_STATE_LMAP n ||| 2 ^ (l % 4)) ((setLane l LACTIVE s).onLn l (fun x => { x.renew with activeAt := s.now }))
  else (setLane l (if x.dropped then LDROPPED else LLOST) s).onLn l (fun y => { y with fails := y.fails + 1, failAt := s.now })

/-- The soak of 100 ms ends (R278): the lane rejoins by a re-stripe with a larger map, or counts a failed attempt. -/
def execSoakEnd (lane : Fin 48) (uncorrectable serHigh : Bool) (s : State) : Out := .next <|
  let l := lane.val
  let n := l / 4
  let x := s.ln l
  if s.shedding || s.lst l != LSOAK || s.pst n != PUP || s.now < x.soakAt + 100000000 then s
  else soakDone l uncorrectable serHigh s

/-- The first lane that delivers too little for the threshold while the others keep up. -/
def State.slowLane (s : State) (n : Nat) (counts : List (Nat × Nat)) : Option Nat :=
  let m := maskBits 4 (s.r .LK_STATE_LMAP n)
  let c := fun i => counts.getD i (0, 0)
  m.find? (fun i =>
    let others := m.filter (· != i)
    !others.isEmpty && (c i).1 < (c i).2 * s.r .LK_SLOW_SLOW_THR n &&
      8 * (others.map (fun j => (c j).2)).foldl (· + ·) 0 < (c i).2 * others.length)

/-- The 1 ms count of each lane of the port, in lane order: codewords received, and those that led to a NAK (R277). -/
def execSlowLaneCheck (port : Fin 12) (counts : List (Nat × Nat)) (s : State) : Out := .next <|
  let n := port.val
  if s.pst n != PUP then s
  else
    match s.slowLane n counts with
    | some i => if s.lst (4 * n + i) == LACTIVE then laneDropped (4 * n + i) s else s
    | none => s

/-! ## Frames and replay (R269 to R272) -/

/-- Replay every frame from the first unacknowledged one; eight replays without progress are a RETRAIN (R271, R272). -/
def replayAll (n : Nat) (s : State) : State :=
  if (s.lp n).replay.isEmpty then s
  else
    let s := (s.inc .LK_CNT_REPLAY_CNT n).onLp n (fun x => { x with replays := x.replays + 1, progressAt := s.now, rxUnacked := 0 })
    if 8 ≤ (s.lp n).replays then retrain n s else s

/-- Acknowledge every frame before a number that the replay buffer holds or that comes next. -/
def ackBefore (n f : Nat) (s : State) : State :=
  let x := s.lp n
  let i := if x.fseqTx = f then x.replay.length else (x.replay.findIdx? (fun e => e.1 == f)).getD 0
  if i = 0 then s
  else (s.onLp n (fun x => { x with replay := x.replay.drop i, replays := 0, progressAt := s.now })).pump n

/-- A malformed header ends the port's transaction stream and forces RETRAIN (R290). -/
def endStream (n : Nat) (s : State) : State := retrain n (s.onLp n (fun x => { x with rx := [] }))

/-- A discarded frame: counted, and a NAK unless one is outstanding (R269, R271). -/
def badFrame (n : Nat) (s : State) : State :=
  let s := s.inc .LK_ERR_CRC_CNT n
  if (s.lp n).nakSent then s else sendNak n s

/-- Whether a number lies in the replay span: a frame held for replay, or the next one. -/
def LPort.spans (x : LPort) (f : Nat) : Bool := x.fseqTx == f || x.replay.any (fun e => e.1 == f)

/-- NAK with the FSEQ expected next (R271); one outside the replay span is a discarded frame (R295). -/
def nakIn (n fseq : Nat) (s : State) : State :=
  if s.pst n != PUP then s
  else if (s.lp n).spans (fseq % 4096) then replayAll n (ackBefore n (fseq % 4096) s)
  else badFrame n s
def execNak (port : Fin 12) (fseq : Nat) (s : State) : Out := .next <| nakIn port.val fseq s

/-- ACK has made no progress for 4 µs (R271). -/
def execAckTimeout (port : Fin 12) (s : State) : Out := .next <|
  let x := s.lp port.val
  if s.pst port.val == PUP && !x.replay.isEmpty && x.progressAt + 4000 ≤ s.now then replayAll port.val s else s

/-- Whether an ACK, or a CREDIT of a sleeping transmitter, has been owed for 1 µs (R271, R285). -/
def LPort.owes (x : LPort) (now : Nat) : Bool :=
  (0 < x.rxUnacked && x.rxAt + 1000 ≤ now) || (match x.creditAt with | some t => t + 1000 ≤ now | none => false)

/-- 1 µs with an unacknowledged frame: a frame with the ACK goes, and a sleeping transmitter wakes (R271, R285). -/
def execAckSendTimer (port : Fin 12) (s : State) : Out := .next <|
  if s.pst port.val == PUP && (s.lp port.val).owes s.now then s.onLp port.val (fun x => { x.wake with rxUnacked := 0 }) else s

/-- CREDIT (R288): the cumulative count of a type, 0 posted headers, 1 posted data, 2 non-posted headers, modulo 65,536
(the codes are log entry 32). -/
def raised (limit initial count : Nat) : Nat := limit + (count % 65536 + 65536 - (limit - initial) % 65536) % 65536
def creditIn (n kind count : Nat) (s : State) : State :=
  match kind with
  | 0 => (s.onLp n (fun x => { x with crHdr := raised x.crHdr 128 count })).pump n
  | 1 => (s.onLp n (fun x => { x with crData := raised x.crData 512 count })).pump n
  | 2 => (s.onLp n (fun x => { x with crNp := raised x.crNp 256 count })).pump n
  | _ => badFrame n s
def execCredit (port : Fin 12) (kind count : Nat) (s : State) : Out := .next <| creditIn port.val kind count s

/-- A posted packet has waited for credits for 100 ms (R288). -/
def execCreditStall (port : Fin 12) (s : State) : Out := .next <|
  let x := s.lp port.val
  match x.txq with
  | k :: _ =>
    if (k.h.ttype == 2 || k.h.ttype == 5 || k.h.ttype == 6) && !x.canSend k && !x.stalled && x.txSince + 100000000 ≤ s.now then
      event EV_LINK_STALL [(4, port.val)] (s.onLp port.val (fun y => { y with stalled := true }))
    else s
  | [] => s

/-! ## Training (R280 to R283, R295) -/

/-- Partner signal for 1 µs. -/
def execSignalDetect (port : Fin 12) (s : State) : Out := .next <|
  let s := s.setF .LK_STATE_SIGDET port.val
  if (s.lp port.val).phase == PDETECT then setPhase port.val PHANDSHAKE s else s

/-- The signal of a mask of lanes is gone for 100 ns (R274, R281, R284, R285). -/
def execSignalLoss (port : Fin 12) (lanes : Nat) (s : State) : Out := .next <|
  let n := port.val
  let allow := s.r .LK_CFG_LANES n
  let whole := lanes &&& allow = allow
  let s := if whole then s.w .LK_STATE_SIGDET n 0 else s
  let x := s.lp n
  if x.phase == PHANDSHAKE || x.phase == PEQUALIZE || x.phase == PALIGN then (if whole then failAttempt n CUNPLUGGED s else s)
  else if s.pst n == PUP && !x.asleepRx then forAll (maskBits 4 lanes) (fun i t => laneLost (4 * n + i) t) s
  else s

/-- Whether a partner satisfies the role of a port (R283, Table RDG-6). -/
def roleOk (role : Nat) (c : Capability) (compat : Bool) : Bool :=
  match role with
  | 0 => c.kind == 0x10
  | 1 => c.kind == 1 || c.kind == 2
  | 2 => (c.kind == 0x10 || c.kind == 0x11) && !compat
  | _ => c.kind == 2 && c.role == 3 && !compat

/-- A capability block of a partner in HANDSHAKE: what it says is kept, and the port goes on, fails or stays DOWN. -/
def capabilityIn (n : Nat) (cap : Capability) (s : State) : State :=
  let native := cap.native && cap.kind != 1
  let compat := s.r .LK_CFG_MODE n == 1 || !native
  let s := ((s.w .LK_PARTNER_LO_ID n cap.ident).w .LK_PARTNER_HI_ID n (cap.ident / 2 ^ 32)).w .LK_PINFO_KIND n cap.kind
  let s := s.w .LK_PINFO_PORT n cap.port
  let s := forAll (upTo 4) (fun i t =>
    (t.w .LK_LANE_REVERSED n (b2n cap.reversed) i).w .LK_LANE_POLINV n (b2n (cap.polinv.testBit i)) i) s
  if s.r .LK_CFG_MODE n == 0 && !native then failAttempt n CSILENT s
  else if !roleOk (s.r .LK_CFG_ROLE n) cap compat then
    event EV_LINK_ROLE_MISMATCH [(4, n), (8, cap.kind), (2, cap.role)] (shutPort n PDOWN (s.w .LK_STATE_CAUSE n CROLE))
  else setPhase n PEQUALIZE (s.w .LK_STATE_COMPAT n (b2n compat))

/-- A capability block in HANDSHAKE (R282, R283, R295). An invalid one is ignored. -/
def execCapabilityBlock (port : Fin 12) (cap : Capability) (s : State) : Out := .next <|
  let n := port.val
  if (s.lp n).phase != PHANDSHAKE then s
  else if !(cap.kind == 1 || cap.kind == 2 || cap.kind == 0x10 || cap.kind == 0x11) || 4 ≤ cap.role || cap.rsv != 0 then s
  else capabilityIn n cap s

/-- Every lane meets the pre-FEC error ratio (R280), with the coefficients that the partner has set for each (R266). -/
def execEqualizeDone (port : Fin 12) (fir : List (Nat × Nat)) (s : State) : Out := .next <|
  let n := port.val
  if (s.lp n).phase == PEQUALIZE then
    setPhase n PALIGN (forAll (upTo 4) (fun i t => setFir (4 * n + i) (fir.getD i (0, 0)).1 (fir.getD i (0, 0)).2 t) s)
  else s

/-- A port comes UP on the lanes that it may use. -/
def portUp (n : Nat) (s : State) : State :=
  let m := (maskBits 4 (s.r .LK_CFG_LANES n)).filter (fun i => s.r .LK_LANE_LSTATE n i != LEXCLUDED)
  let s := forAll m (fun i t => (t.w .LK_LANE_LSTATE n LACTIVE i).onLn (4 * n + i) (fun x => { x.renew with activeAt := t.now })) s
  let s := ((s.w .LK_STATE_LMAP n (maskOf m)).w .LK_STATE_GEN n 0).w .LK_STATE_ATTEMPT n 0
  let s := (setPhase n PUP s).onLp n (fun x => { x with retrain := false, genRx := 0, progressAt := s.now, lastData := s.now })
  s.pump n

/-- Comma lock and deskew on every lane: UP, and transmission resumes at the first unacknowledged frame (R272, R280). -/
def execAlignDone (port : Fin 12) (s : State) : Out := .next <|
  let n := port.val
  if (s.lp n).phase != PALIGN then s
  else portUp n s

/-- A timer of Table RDG-5 expires. -/
def execTrainingTimeout (port : Fin 12) (s : State) : Out := .next <|
  let n := port.val
  let x := s.lp n
  if x.phase == PDETECT && x.attemptAt + 20000000 ≤ s.now then failAttempt n CABSENT s
  else if x.phase == PHANDSHAKE && x.attemptAt + 20000000 ≤ s.now then failAttempt n CSILENT s
  else if x.phase == PEQUALIZE && x.stateAt + 10000000 ≤ s.now then failAttempt n CEQUALIZE s
  else if x.phase == PALIGN && x.stateAt + 1000000 ≤ s.now then failAttempt n CALIGN s
  else s

/-- The wait of BACKOFF ends (R280). -/
def execBackoffEnd (port : Fin 12) (s : State) : Out := .next <|
  let x := s.lp port.val
  if x.phase == PBACKOFF && x.stateAt + 1000000 * x.backoffMs ≤ s.now then
    startAttempt port.val (s.r .LK_STATE_ATTEMPT port.val + 1) s
  else s

/-! ## Electrical idle (R284, R285) -/

/-- The conditions of a side for idle: no DATA frame for IDLE_DELAY, nothing to send or to replay. -/
def State.idleReady (s : State) (n : Nat) : Bool :=
  let x := s.lp n
  let d0 := s.r .LK_CFG_IDLE_DELAY n
  let d := if s.shedding && d0 != 0 && !s.rb .LK_STATE_COMPAT n then 1000 else d0
  s.pst n == PUP && d != 0 && s.r .LK_CFG_ROLE n != 3 && x.replay.isEmpty && x.txq.isEmpty && x.lastData + d ≤ s.now

def goIdle (n : Nat) (s : State) : State :=
  dropWord n 5 ((s.w .LK_STATE_STATE n PIDLE).onLp n (fun x => { x with idleSent := false, phase := PIDLE }))

/-- An idle word supersedes the others (R270). -/
def dropIdle (n : Nat) (s : State) : State := s.onLp n (fun x => { x with ctrl := x.ctrl.filter (fun e => !(5 ≤ e.1 && e.1 ≤ 7)) })
def idleWord (n code : Nat) (s : State) : State := ctrlWord n code 0 (dropIdle n s)

def execIdleDelayTimeout (port : Fin 12) (s : State) : Out := .next <|
  let n := port.val
  if !s.idleReady n then s
  else if s.rb .LK_STATE_COMPAT n then
    (if (s.lp n).rxUnacked = 0 then s.onLp n (fun x => { x with asleepTx := true }) else s)
  else if (s.lp n).idleSent then s
  else idleWord n 5 (s.onLp n (fun x => { x with idleSent := true }))

def idleReqIn (n : Nat) (s : State) : State :=
  if s.pst n != PUP || s.rb .LK_STATE_COMPAT n then s
  else if (s.lp n).idleSent then goIdle n s
  else if s.idleReady n then goIdle n (idleWord n 6 s)
  else idleWord n 7 s
def execIdleReq (port : Fin 12) (s : State) : Out := .next <| idleReqIn port.val s

def idleAckIn (n : Nat) (s : State) : State := if s.pst n == PUP && (s.lp n).idleSent then goIdle n s else s
def execIdleAck (port : Fin 12) (s : State) : Out := .next <| idleAckIn port.val s

def idleNakIn (n : Nat) (s : State) : State :=
  if s.pst n == PUP && (s.lp n).idleSent then dropWord n 5 (s.onLp n (fun x => { x with idleSent := false, lastData := s.now })) else s
def execIdleNak (port : Fin 12) (s : State) : Out := .next <| idleNakIn port.val s

/-- The exit burst and the comma, from either side (R268, R284): every lane counts its codewords and descrambles from the comma. -/
def execExitBurst (port : Fin 12) (s : State) : Out := .next <|
  let n := port.val
  if s.pst n == PIDLE then
    let u := forAll (maskBits 4 (s.r .LK_STATE_LMAP n)) (fun i t =>
      t.onLn (4 * n + i) (fun x => { x with cw := 0, commaMiss := 0, scr := 2 ^ 58 - 1 })) (dropIdle n s)
    ((u.w .LK_STATE_STATE n PUP).onLp n (fun x => { x with phase := PUP, lastData := s.now, cwNext := none, cwHold := [] })).pump n
  else s

/-- WAKE_TX (R285). -/
def wakeTxIn (n : Nat) (s : State) : State :=
  if s.pst n == PUP && s.rb .LK_STATE_COMPAT n then s.onLp n (fun x => { x.wake with lastData := s.now }) else s
def execWakeTx (port : Fin 12) (s : State) : Out := .next <| wakeTxIn port.val s

/-! ## LINK commands (R296) -/

/-- A disabled port (R349). -/
abbrev State.lOff (s : State) (n : Nat) : Bool × Nat := (!s.pEn n, ST_STATE)

/-- LINK.CONFIG. ARG0 the port, ARG1 the address of the images of LK_CFG, the four LK_FIR and LK_SLOW. -/
def linkConfigForm (d : Desc) (s : State) : List (Bool × Nat) := [args d 2, unit 12 d.a0, reachD d d.a1 24, s.lOff d.a0]
def State.linkBad (s : State) (n : Nat) (v : List Nat) : Bool :=
  let cfg := v.getD 0 0
  let firs := (upTo 4).map (fun i => v.getD (1 + i) 0)
  (bits cfg 31 30 == 3 && (n != 11 || !s.twinOn)) || bits cfg 26 23 == 0 ||
    firs.any (fun x => 16 < bits x 12 8 || 25 < bits x 4 0 || regRsv .LK_FIR x) || bits (v.getD 5 0) 15 0 == 0 ||
    regRsv .LK_SLOW (v.getD 5 0) || regRsv .LK_CFG cfg || bits cfg 29 28 == 3
def linkConfigAct (d : Desc) (s : State) : Act :=
  let n := d.a0
  let v := s.words d d.a1 6
  let cfg := v.getD 0 0
  let firs := (upTo 4).map (fun i => v.getD (1 + i) 0)
  { checks := [(s.pst n != POFF && s.pst n != PDOWN, ST_STATE), s.rfault d d.a1 24, (s.linkBad n v, ST_RANGE)]
    after :=
      let s := (s.wImg .LK_CFG n cfg).wImg .LK_SLOW n (v.getD 5 0)
      forAll (upTo 4) (fun i t => t.wImg .LK_FIR n (firs.getD i 0) i) s }
def execLinkConfig (d : Desc) (s : State) : Out := .next <| runAct 0x0B01 d (linkConfigForm d s) (linkConfigAct d) s

/-- LINK.ENABLE. ARG0 the port mask. -/
def execLinkEnable (d : Desc) (s : State) : Out := .next <| runCmd 0x0B02 d [args d 1, mask 12 d.a0]
  (fun s => (forAll (maskBits 12 d.a0) enablePort s, .done ST_OK)) s

/-- LINK.DISABLE. ARG0 the port mask. -/
def execLinkDisable (d : Desc) (s : State) : Out := .next <| runCmd 0x0B03 d
  [args d 1, mask 12 d.a0, dis ((maskBits 12 d.a0).any (fun n => !s.pEn n))]
  (fun s => checked [((maskBits 12 d.a0).any (fun n => s.r .LK_CFG_ROLE n == 3 && s.twinOn), ST_STATE)]
    (forAll (maskBits 12 d.a0) (fun n t => shutPort n POFF t) s, .done ST_OK) s) s

/-- The checks of LINK.LANE, and a lane excluded from its port or included again. -/
def laneChecks (d : Desc) (s : State) : List (Bool × Nat) :=
  [(d.a2 == 0 && d.a1 / 4 == d.a0 && s.r .LK_STATE_LMAP d.a0 == 2 ^ (d.a1 % 4), ST_STATE), (d.a1 / 4 != d.a0, ST_RANGE)]
def excludeLane (n l : Nat) (s : State) : State :=
  let m := s.r .LK_STATE_LMAP n
  let s := setLane l LEXCLUDED s
  if m.testBit (l % 4) && s.pst n == PUP then restripeOwn n (m - 2 ^ (l % 4)) s
  else s.w .LK_STATE_LMAP n (m - (m &&& 2 ^ (l % 4)))
def includeLane (n l : Nat) (s : State) : State :=
  if s.lst l == LEXCLUDED then (setLane l (if s.pst n == PUP || s.pst n == PIDLE then LLOST else 0) s).onLn l Lane.renew else s

/-- LINK.LANE. ARG0 the port, ARG1 the lane, ARG2 0 EXCLUDE, 1 READMIT. -/
def execLinkLane (d : Desc) (s : State) : Out := .next <| runCmd 0x0B04 d [args d 3, unit 12 d.a0, choice 2 d.a2, s.lOff d.a0]
  (fun s => checked (laneChecks d s) (if d.a2 = 0 then excludeLane d.a0 d.a1 s else includeLane d.a0 d.a1 s, .done ST_OK) s) s

/-- LINK.APERTURE. ARG0 the port, ARG1 APBASE. -/
def linkApertureForm (d : Desc) (s : State) : List (Bool × Nat) := [args d 2, unit 12 d.a0, s.lOff d.a0]
def linkApertureAct (d : Desc) (s : State) : Act := { checks := [(3 < d.a1, ST_RANGE)], after := s.w .LK_APER_APBASE d.a0 d.a1 }
def execLinkAperture (d : Desc) (s : State) : Out := .next <| runAct 0x0B05 d (linkApertureForm d s) (linkApertureAct d) s

/-- LINK.STATUS. ARG0 the port, ARG1 the destination of 18 words in table order. -/
def State.linkWords (s : State) (n : Nat) : List Nat :=
  [s.img .LK_CFG n, s.img .LK_STATE n, s.img .LK_PARTNER_LO n, s.img .LK_PARTNER_HI n, s.img .LK_PINFO n] ++
    (upTo 4).map (fun i => s.img .LK_LANE n i) ++ (upTo 4).map (fun i => s.img .LK_FIR n i) ++
    [s.img .LK_SLOW n, s.img .LK_ERR n, s.img .LK_CNT n, s.img .LK_TXN n, s.img .LK_APER n]
def execLinkStatus (d : Desc) (s : State) : Out := .next <| runCmd 0x0B06 d [args d 2, unit 12 d.a0, reachD d d.a1 72, s.lOff d.a0, s.wdown d.a1 72]
  (fun s => (s.winStore d.path d.a1 ((s.linkWords d.a0).flatMap (bytesOf 4)), .done ST_OK)) s

end Sys2Proof.Machine
end

