-- ==== Sys2Proof/Machine/Vcm.lean ====
section
/-! DEFINITION. The vector cache memory controller: bank prediction, write queues, refresh, errors, row retirement, training,
stack temperatures, and the VCM commands (R243 to R263). -/

namespace Sys2Proof.Machine

/-- VCM_STATE. -/
abbrev VTRAINING : Nat := 0
abbrev VUP : Nat := 1
abbrev VDOWN : Nat := 2

abbrev NORMAL : Nat := 0
abbrev CATCHUP : Nat := 1
abbrev URGENT : Nat := 2

def State.vcmUp (s : State) : Bool := s.r .VCM_STATE_STATE == VUP

/-! ## Bank prediction (R247) -/

/-- Counter k of a bank moves by one within 0 to 3. -/
def bump (l : List Nat) (k : Nat) (up : Bool) : List Nat := l.set k (if up then min 3 (l.getD k 2 + 1) else l.getD k 2 - 1)

/-- An access to a row of a bank: the last choice is judged, the outcome enters the history, and the next choice is made. A refresh
since the last access has closed the row, so that the access is no hit; the choice is judged by the rule's words all the same (log
entry 34). -/
def Bank.access (b : Bank) (row : Nat) : Bank :=
  let same := b.lastRow == some row
  let hit := same && !b.shut
  let right := if b.kept then hit else !same
  let c := if b.lastRow.isNone then b.c else bump b.c b.h right
  let h := (2 * b.h + b2n hit) % 4
  { h := h, c := c, lastRow := some row, kept := 2 ≤ c.getD h 2 }

def accessRow (a : Nat) (s : State) : State :=
  s.onVp (vcmPort a) (fun x => { x with banks := tset {} x.banks (vcmBank a) ((tget {} x.banks (vcmBank a)).access (vcmRow a)) })

/-- A refresh closes the row of a bank and leaves its history and counters. -/
def Bank.refreshed (b : Bank) : Bank := { b with shut := true }

/-! ## Real-time reads and interruptions (R245, R248, R249) -/

/-- The banks of a port under refresh now. -/
def State.refreshing (s : State) (vp : Nat) : List Nat := ((s.vp vp).busy.filter (fun e => s.now < e.2)).map (·.1)

/-- Whether a port serves no read now: an urgent refresh or a repair preempts it (R248). -/
def State.blocked (s : State) (vp : Nat) : Bool :=
  s.vcm.blocks.any (fun b => b.ports.contains vp && decide (b.from' ≤ s.now) && decide (s.now < b.until'))

/-- Whether the write queue keeps a read waiting: an entry of its granule with a partial mask (R246). -/
def State.waitsWrite (s : State) (gran : Nat) : Bool :=
  (s.vp (vcmPort (64 * gran))).wq.any (fun e => e.gran == gran && !e.full)

/-- The real-time reads of a port that are ready: issued before this core cycle (a write that arrives with a read comes first, R246), not
behind a partial write, and of a bank that is not under refresh. -/
def State.readyReads (s : State) (vp : Nat) : List VRead :=
  s.vcm.reads.filter (fun r => vcmPort (64 * r.gran) == vp && decide (r.at' < s.now) && !s.waitsWrite r.gran && !s.queuedFull r.gran &&
    !(s.refreshing vp).contains (vcmBank (64 * r.gran)))

/-- The read that a slot serves first: of the group with the shortest lead, and of those the oldest (R93, R245). -/
def State.pick (s : State) (vp : Nat) : Option VRead :=
  match s.readyReads vp with
  | [] => none
  | r :: l => some (l.foldl (fun a b => if s.r .PG_LEAD_LEAD_NS b.grp < s.r .PG_LEAD_LEAD_NS a.grp then b else a) r)

/-- Ports serve no read for a span from now on; the spans that several ports begin in one core cycle are one (R248). -/
def block (l : List Nat) (len : Nat) (s : State) : State :=
  let same := s.vcm.blocks.find? (fun b => b.from' == s.now)
  let b : Block := match same with
    | some b => { b with ports := b.ports ++ l, until' := max b.until' (s.now + len) }
    | none => { ports := l, from' := s.now, until' := s.now + len }
  { s with vcm := { s.vcm with blocks := s.vcm.blocks.filter (fun x => x.from' != s.now) ++ [b] } }

/-- One core cycle of a span: it is part of an interruption where a real-time read of its ports is ready; the first such cycle counts it,
and its length so far goes into INT_MAX (R248). -/
def countBlock (b : Block) (s : State) : State :=
  if b.from' ≤ s.now && s.now < b.until' && b.ports.any (fun vp => !(s.readyReads vp).isEmpty) then
    let s := (if b.len = 0 then s.inc .VCM_INT_INT_CNT else s).hi .VCM_INT_INT_MAX 0 (min (b.len + 1) 65535)
    { s with vcm := { s.vcm with
      intEnd := some (s.now + 1), blocks := s.vcm.blocks.map (fun x => if x.from' = b.from' then { x with len := x.len + 1 } else x) } }
  else s

/-- The spans in a core cycle; those that are over are forgotten. -/
def blockTick (s : State) : State :=
  let s := s.vcm.blocks.foldl (fun t b => countBlock b t) s
  { s with vcm := { s.vcm with blocks := s.vcm.blocks.filter (fun b => s.now < b.until') } }

/-! ## Refresh (R250 to R252) -/

/-- T, T_c and the debt of a port in 1/32 ns. -/
def State.refT (s : State) (vp : Nat) : Nat := if s.r .VS_STAT_TMODE (vp / 32) = 0 then 3900 else 1950
def State.stackTemp (s : State) (v : Nat) : Int := sint 16 (s.r .VS_STAT_TEMP v)
def State.warm (s : State) (v : Nat) : Bool := s.rb .VS_STAT_NOREAD v || decide (77 * 16 ≤ s.stackTemp v)
def State.refTc (s : State) (vp : Nat) : Nat := if s.warm (vp / 32) then 1950 else s.refT vp
def State.debt32 (s : State) (vp : Nat) : Nat := 32 * s.r .VP_STAT_DEBT vp + (s.vp vp).debtFrac

def setDebt (vp d : Nat) (s : State) : State :=
  (s.w .VP_STAT_DEBT vp (min 65535 (d / 32))).onVp vp (fun x => { x with debtFrac := d % 32 })

/-- The urgent refreshes that bring a debt back to the allowance (R251). -/
def State.urgentN (s : State) (vp : Nat) : Nat := ceilDiv (s.debt32 vp - 256 * s.refT vp) (32 * s.refT vp)

/-- Ports whose debt exceeds the allowance enter URGENT together and serve no read until it is paid (R248, R251). -/
def goUrgent (l : List Nat) (s : State) : State :=
  let l := l.filter (fun vp => 256 * s.refT vp < s.debt32 vp && s.r .VP_STAT_RMODE vp != URGENT)
  if l.isEmpty then s
  else block l (350 * listMax 0 (l.map s.urgentN)) (forAll l (fun vp t => t.w .VP_STAT_RMODE vp URGENT) s)

/-- A refresh interval of a port: its debt, and its mode by the thresholds. -/
def refreshDue (vp : Nat) (s : State) : State :=
  let s := (setDebt vp (s.debt32 vp + 32 * s.refT vp) s).onVp vp (fun x => { x with stepAt := s.now })
  let s := if s.r .VP_STAT_RMODE vp == NORMAL && 128 * s.refTc vp ≤ s.debt32 vp then s.w .VP_STAT_RMODE vp CATCHUP else s
  goUrgent [vp] s

/-- A refresh interval T elapses at a port (R250, Table VCM-1). -/
def execRefreshInterval (vp : Fin 128) (s : State) : Out := .next <|
  let vp := vp.val
  if !s.vcmUp || s.now < (s.vp vp).stepAt + s.refT vp then s else refreshDue vp s

/-- An all-bank refresh of a port in URGENT: 350 ns in every bank (R250). -/
def refreshAll (vp : Nat) (s : State) : State :=
  let s := setDebt vp (s.debt32 vp - 32 * s.refT vp) (s.inc .VP_CNT_URG_CNT vp)
  let s := s.onVp vp (fun x => { x with
    busy := (upTo 32).map (fun b => (b, s.now + 350))
    banks := (upTo 32).foldl (fun t b => tset {} t b (tget {} x.banks b).refreshed) x.banks })
  if s.debt32 vp ≤ 256 * s.refT vp then s.w .VP_STAT_RMODE vp CATCHUP else s

/-- A per-bank refresh of the bank whose turn it is: 160 ns (R250). -/
def refreshBank (vp : Nat) (s : State) : State :=
  let mode := s.r .VP_STAT_RMODE vp
  let s := setDebt vp (s.debt32 vp - s.refT vp) s
  let s := s.onVp vp (fun x => { x with
    busy := x.busy.filter (fun e => s.now < e.2) ++ [(x.rot, s.now + 160)]
    banks := tset {} x.banks x.rot (tget {} x.banks x.rot).refreshed, rot := (x.rot + 1) % 32 })
  if mode == CATCHUP && s.debt32 vp < 64 * s.refTc vp then s.w .VP_STAT_RMODE vp NORMAL else s

/-- Whether the bank whose turn it is may refresh (Table VCM-1, R252): in NORMAL one that has no ready real-time read, so that a due
refresh waits; in CATCHUP ahead of such reads, with at most 4 banks refreshing at once. -/
def State.mayRefresh (s : State) (vp : Nat) : Bool :=
  let b := (s.vp vp).rot
  !(s.refreshing vp).contains b &&
    (if s.r .VP_STAT_RMODE vp == CATCHUP then decide ((s.refreshing vp).length < 4)
     else !(s.readyReads vp).any (fun r => vcmBank (64 * r.gran) == b))

/-- Whether an all-bank refresh may follow: they come back to back, one after another. -/
def State.mayRefreshAll (s : State) (vp : Nat) : Bool := (s.refreshing vp).length < 32

/-- A refresh is issued: all-bank in URGENT, otherwise per-bank in rotation (R250 to R252). -/
def execRefreshIssue (vp : Fin 128) (allBank : Bool) (s : State) : Out := .next <|
  let vp := vp.val
  let mode := s.r .VP_STAT_RMODE vp
  if !s.vcmUp || (allBank != (mode == URGENT)) then s
  else if allBank then (if s.mayRefreshAll vp then refreshAll vp s else s)
  else if s.mayRefresh vp then refreshBank vp s
  else s

/-! ## Stack temperatures (R251, R253) -/

/-- The mode of a stack after a reading in 1/16 °C: throttled from 95 °C to below 92 °C, doubled from 85 °C to below 83 °C. -/
def nextTmode (m : Nat) (r : Int) : Nat :=
  if 1520 ≤ r || (m == 2 && decide (1472 ≤ r)) then 2
  else if 1360 ≤ r || (m != 0 && decide (1328 ≤ r)) then 1
  else 0

/-- A reading of a stack; a failed readout counts as 95 °C. -/
def stackSample (v : Nat) (reading : Option Int) (s : State) : State :=
  let r := reading.getD 1520
  let old := s.r .VS_STAT_TMODE v
  let s := s.w .VS_STAT_NOREAD v (b2n reading.isNone)
  let s := match reading with | some x => s.w .VS_STAT_TEMP v (unsint 16 x) | none => s
  let m := nextTmode old r
  let s := s.w .VS_STAT_TMODE v m
  let s := if m == 2 && old != 2 then event EV_VCM_THROTTLE [(2, v), (16, unsint 16 r)] (s.setF .VS_STAT_THROTTLE_SEEN v) else s
  let late := ((upTo 32).map (fun i => 32 * v + i)).filter (fun vp => 256 * s.refT vp < s.debt32 vp && s.r .VP_STAT_RMODE vp != URGENT)
  if late.isEmpty then s
  else
    event EV_VCM_REFRESH_CATCHUP [(2, v), (8, late.length), (16, listMax 0 (late.map (fun vp => (s.debt32 vp - 256 * s.refT vp) / 32)))]
      (s.setF .VS_STAT_CATCHUP_SEEN v)

/-- One sample of the stacks: all urgent refreshes from it are one interruption. -/
def stackSamples (l : List (Nat × Option Int)) (s : State) : State :=
  goUrgent (upTo 128) (l.foldl (fun t x => if x.1 < 4 then stackSample x.1 x.2 t else t) s)

/-! ## Errors and row retirement (R254 to R259) -/

/-- A row as EV_REC_FAULT and VCM.ERRLOG name it: port, bank, row. -/
def rowUnit (vp b r : Nat) : Nat := vp + 128 * b + 4096 * r

/-- The retirement list in record memory (Table REC-1): a count, then the entries. -/
def saveList (s : State) : State :=
  let l := s.vcm.list
  recWrite 0x0A 0 (fun _ => bytesOf 8 l.length ++ l.flatMap (bytesOf 8)) s

/-- List a row. -/
def listRow (e : Nat) (s : State) : State :=
  saveList { s with vcm := { s.vcm with list := s.vcm.list.filter (fun x => x % 2 ^ 26 != e % 2 ^ 26) ++ [e] } }

/-- A row reaches its threshold (R258, R259): retirement begins, or one of the two obstacles keeps the row in service. A row
without a spare is listed with bit 27 while the list has room (log entry 42). -/
def retireRow (vp b r : Nat) (s : State) : State :=
  let x := s.vp vp
  let u := rowUnit vp b r
  if x.retire.any (fun q => q.bank == b && q.row == r) then s
  else if x.soft.contains b || x.retire.any (fun q => q.bank == b) then listRow u (s.setF .VCM_STATE_RETIRE_PEND)
  else if Config.noHardSpare vp b || 4096 ≤ s.vcm.list.length then
    if x.noSpare.contains (b, r) then s
    else
      let s := (s.onVp vp (fun y => { y with noSpare := y.noSpare ++ [(b, r)] })).inc .VCM_STATE_NOSPARE
      let s := event EV_VCM_NOSPARE [(7, vp), (5, b), (14, r)] (lifeAdd 0x15 vp 18 2 1 s)
      if 4096 ≤ s.vcm.list.length then s else listRow (u + 2 ^ 27) s
  else s.onVp vp (fun y => { y with retire := y.retire ++ [{ bank := b, row := r }] })

/-- Whether a VCM address lies in a row in retirement (R258). -/
def State.held (s : State) (a : Nat) : Bool :=
  (s.vp (vcmPort a)).retire.any (fun q => q.bank == vcmBank a && q.row == vcmRow a)

/-- A read reaches its row: no error (0), a corrected one (1) or an uncorrectable one. -/
def readRow (a err : Nat) (s : State) : State :=
  let vp := vcmPort a
  let unit := rowUnit vp (vcmBank a) (vcmRow a)
  let retire := retireRow vp (vcmBank a) (vcmRow a)
  let s := accessRow a s
  match err with
  | 0 => s
  | 1 => faultEvent 1 unit retire (lifeAdd 0x15 vp 8 4 1 (s.inc .VP_ERR_CE_CNT vp))
  | _ =>
    let s := if s.mem.vcmBad.contains (a / 64) then s else s.setBad 0 (s.bad 0 ++ [a / 64])
    let s := ((s.inc .VP_ERR_UE_CNT vp).w .VCM_ERRADDR_LO_ADDR 0 a).w .VCM_ERRADDR_HI_ADDR 0 (a / 2 ^ 32)
    faultEvent 2 unit retire (event EV_VCM_UE [(37, a)] (lifeAdd 0x15 vp 12 4 1 s))

/-- A granule read for a group enters its pool data (R87, R254): uncorrectable, it is read once more; uncorrectable again, it stays so and
DATA_ERROR is set (R104). -/
def takeRead (r : VRead) (bad : Bool) (s : State) : State :=
  let rest := s.vcm.reads.erase r
  if bad && !r.again then { s with vcm := { s.vcm with reads := rest ++ [{ r with at' := s.now, again := true }] } }
  else
    let s := { s with vcm := { s.vcm with reads := rest } }
    putGran r.grp r.gran { data := s.loadN 0 (64 * r.gran) 64, bad := bad } (if bad then s.setF .PG_STATUS_DATA_ERROR r.grp else s)

/-- The group whose far prefetch takes a granule that VCM returns as bulk traffic (R81, R84): one of a running pitch on whose path beyond
the reserve it lies, while a page is free for it. -/
def State.farTaker (s : State) (n : Nat) : Option Nat :=
  if s.shedding then none
  else ((upTo 32).filter (fun p => s.pstate p == RUNNING)).findSome? (fun p => (s.members p).find? (fun g =>
    (s.gran g n).isNone && (s.farPath p g).contains n &&
      decide (pagesOf ((s.farHeld p g).length + 1) ≤ s.r .PG_USE_BORROWED g + s.poolFree)))

/-- Supply after a granule has come for a group (R86, R87). -/
def resupply (g : Nat) (s : State) : State :=
  match s.pitchOf g with
  | some p => if s.pstate p == RUNNING then supply p s else s
  | none => s

/-- A bulk read returns: far prefetch takes a granule on its path (R81). -/
def bulkRead (n : Nat) (bad : Bool) (s : State) : State :=
  match s.farTaker n with
  | some g => if bad then s else resupply g (putGran g n { data := s.loadN 0 (64 * n) 64 } s)
  | none => s

/-- A read that reaches the DRAM, or the buffer of a row in retirement, for a real-time reader or as bulk traffic (R254, R258). A granule that
VCM holds poisoned reads so whatever the read itself met. -/
def dramRead (a err : Nat) (r : Option VRead) (s : State) : State :=
  let poisoned := s.mem.vcmBad.contains (a / 64)
  let s := if s.held a then s else readRow a (if poisoned then 2 else err) s
  let bad := poisoned || (2 ≤ err && !s.held a)
  match r with
  | some r => resupply r.grp (takeRead r bad s)
  | none => bulkRead (a / 64) bad s

/-- A slot of a port serves a read of an address (R245, R246): the entry of the write queue with all its bytes answers it without a slot of
the DRAM, and one with some of them keeps it waiting. Of the others the port serves the real-time read that goes first; bulk reads are
served while none is ready, and not at all in a throttled stack (R253). -/
def execVcmReadDone (a err : Nat) (s : State) : Out := .next <|
  let vp := vcmPort a
  let mine := s.vcm.reads.find? (fun r => r.gran == a / 64)
  if !s.vcmUp || spaceSize 0 ≤ a || s.waitsWrite (a / 64) then s
  else if s.queuedFull (a / 64) then
    let s := s.inc .VP_CNT_FWD_CNT vp
    match mine with
    | some r => resupply r.grp (takeRead r false s)
    | none => bulkRead (a / 64) false s
  else if s.blocked vp then s
  else
    match s.pick vp with
    | some r => if r.gran = a / 64 then dramRead a err (some r) s else s
    | none =>
      if mine.isSome || s.bulkStopped [a] || (s.refreshing vp).contains (vcmBank a) then s
      else dramRead a err none s

/-- The oldest entry of a write queue that no retirement holds is written in a slot that no real-time read can use (R245, R246, R258); written
whole, its granule is good again (R255). -/
def execVcmWriteDrain (vp : Fin 128) (s : State) : Out := .next <|
  let vp := vp.val
  match (s.vp vp).wq.find? (fun e => !s.held (64 * e.gran) && !(s.refreshing vp).contains (vcmBank (64 * e.gran))) with
  | some e =>
    if !s.vcmUp || s.blocked vp || (s.pick vp).isSome then s
    else
      let s := accessRow (64 * e.gran) (s.onVp vp (fun x => { x with wq := x.wq.erase e }))
      let s := if e.full then s.setBad 0 ((s.bad 0).filter (· != e.gran)) else s
      s.w .VP_STAT_WQ_DEPTH vp (s.vp vp).wq.length
  | none => s

/-- The next thermal sample of a stack in the 1 ms regime. -/
def State.sampleSoon (s : State) : Bool :=
  (upTo 4).any (fun v => !s.warm v && (tget {} s.pwr.stackTemps v).at' + 1000000 < s.now + 16000)

/-- Whether a row may be repaired now, and its repair. -/
def State.canRepair (s : State) : Bool :=
  s.vcmUp && !s.sampleSoon && s.vcm.blocks.all (fun b => decide (b.until' ≤ s.now)) && (upTo 128).all (fun n => s.r .VP_STAT_RMODE n == NORMAL) &&
    (match s.vcm.intEnd with | some e => decide (e + 15000 ≤ s.now) | none => true)
def repairRow (vp : Nat) (q : Retire) (rest : List Retire) (s : State) : State :=
  let (v, s) := s.fresh
  let s := block [vp] (v % 761) s
  let s := s.onVp vp (fun x => { x with retire := rest, soft := x.soft ++ [q.bank] })
  let s := listRow (rowUnit vp q.bank q.row + 2 ^ 26) (lifeAdd 0x15 vp 16 2 1 (s.inc .VP_ERR_RETIRED vp))
  event EV_VCM_ROW_RETIRED [(7, vp), (5, q.bank), (14, q.row)] s

/-- The repair phase of a retirement step and its release (R249, R258). The span is at most 760 ns; its length is a free value. -/
def execRowRepair (vp : Fin 128) (s : State) : Out := .next <|
  let vp := vp.val
  match (s.vp vp).retire with
  | [] => s
  | q :: rest =>
    if s.canRepair then repairRow vp q rest s else s

/-! ## Training (R260, R261) -/

/-- Training ends: listed rows become hard repairs, every granule is zero with a valid code; or VCM is DOWN. -/
def trainVcm (fail : Option (Nat × Nat)) (s : State) : State :=
  let s := forAll (upTo 128) (fun vp t => (((t.onVp vp (fun x => { x with
    wq := [], banks := [], busy := [], soft := [], retire := [], debtFrac := 0, stepAt := t.now })).w .VP_STAT_WQ_DEPTH vp 0).w .VP_STAT_DEBT vp 0).w
      .VP_STAT_RMODE vp NORMAL) s
  let s := ((s.w .VCM_STATE_RETIRE_PEND 0 0).setSpace 0 []).setBad 0 []
  let s := { s with vcm := { s.vcm with reads := [], blocks := [] } }
  let s := saveList { s with vcm := { s.vcm with list := s.vcm.list.map (fun e => if e.testBit 26 then e - 2 ^ 26 else e) } }
  match fail with
  | none => s.w .VCM_STATE_STATE 0 VUP
  | some (vp, step) =>
    event EV_VCM_TRAIN_FAIL [(7, vp), (8, step)]
      { s.w .VCM_STATE_STATE 0 VDOWN with vcm := { s.vcm with failPort := vp } }

/-- Unbind a group, and clear the segment table of a pitch with PREPARED (Table VCM-2). -/
def unbind (g : Nat) (s : State) : State :=
  (((s.w .PG_LIMIT_LIMIT g 0).w .PG_VEC_BASE_BASE g 0).w .PG_TS_BASE_BASE g 0).w .PG_TAG_BASE_BASE g 0
def clearTable (p : Nat) (s : State) : State :=
  loadWindow p (touchPitch p (((unpin p s).w .SQ_TBL_LEN_COUNT p 0).w .SQ_TBL_BASE_BASE p 0 |>.w .PT_SUPPLY_STREAM p 0))

/-! ## VCM commands (R262) -/

/-- VCM.INFO. ARG0 the destination of 134 words. -/
def execVcmInfo (d : Desc) (s : State) : Out := .next <| runCmd 0x0A01 d [args d 1, reachD d d.a0 536, s.wdown d.a0 536]
  (fun s => (s.winStore d.path d.a0 (([s.img .VCM_STATE 0, s.img .VCM_INT 0] ++ (upTo 4).map (fun v => s.img .VS_STAT v) ++
    (upTo 128).map (fun v => s.img .VP_STAT v)).flatMap (bytesOf 4)), .done ST_OK)) s

/-- VCM.ERRLOG. ARG0 the destination, ARG1 the maximum number of entries: the count of entries written, then the entries. -/
def execVcmErrlog (d : Desc) (s : State) : Out := .next <| runCmd 0x0A02 d
  [args d 2, reachD d d.a0 (8 + 8 * min d.a1 s.vcm.list.length), s.wdown d.a0 8]
  (fun s =>
    let l := s.vcm.list.take d.a1
    (s.winStore d.path d.a0 (bytesOf 8 l.length ++ l.flatMap (bytesOf 8)), .done ST_OK)) s

/-- The extents of VCM that VCM.FILL may not touch while they are in use: tables and capture areas of busy pitches, the result
ring and the mirror ring. -/
def State.fillHeld (s : State) (e : Nat × Nat) : Bool :=
  (upTo 32).any (fun p => !s.idle p && (clash (s.tableAt p) e || (s.members p).any (fun g => clash (s.areaAt g) e))) ||
    clash (s.r .RES_BASE_BASE, 4096 * s.r .RES_SIZE_PAGES) e || clash (s.r .TW_MRES_BASE_BASE, 4096 * s.r .TW_MRES_SIZE_PAGES) e

/-- The checks of VCM.FILL. -/
def fillChecks (d : Desc) (s : State) : List (Bool × Nat) := [
  (d.a0 % 64 != 0 || d.a1 % 64 != 0 || spaceSize 0 < d.a0 + d.a1, ST_RANGE),
  (d.a1 != 0 && s.inBound d.a0 d.a1, ST_STATE), (d.a1 != 0 && s.fillHeld (d.a0, d.a1), ST_STATE), (s.vcmDown, ST_FAULT)]

/-- VCM.FILL. ARG0 the VCM byte address, ARG1 the length, ARG2 the pattern. -/
def execVcmFill (d : Desc) (s : State) : Out := .next <| runCmd 0x0A03 d [args d 3]
  (fun s => checked (fillChecks d s)
    ({ s with jobs := s.jobs ++ [.fill d d.a0 d.a1 d.a2] }, .later) s) s

/-- n copies of an 8-byte pattern. -/
def fillPattern (m : Mem) (a v : Nat) : Nat → Mem
  | 0 => m
  | n + 1 => fillPattern (m.wrn a 8 v) (a + 8) v n

/-- The bytes of a fill are stored: its granules are good again, and a pitch whose table it touches is no longer prepared. -/
def filled (a n v : Nat) (s : State) : State :=
  let s := s.setSpace 0 (fillPattern s.mem.vcm a v (n / 8))
  let s := s.setBad 0 ((s.bad 0).filter (fun g => !(a ≤ 64 * g && 64 * g + 64 ≤ a + n)))
  forAll ((upTo 32).filter (fun p => n != 0 && clash (s.tableAt p) (a, n))) clearPrep s

/-- The fill job with number k among those waiting ends; bulk traffic to a throttled stack does not (R253). Ports repeat every 128 KiB, so
the first 256 KiB of a range meet all of its ports. -/
def execVcmFillDone (k : Nat) (s : State) : Out := .next <|
  match (s.jobs.filter Job.isFill)[k]? with
  | some (.fill d a n v) =>
    if s.bulkStopped ((granules a (min n 262144)).map (64 * ·)) then s
    else complete 0x0A03 d ST_OK false 0 0 0 (filled a n v (dropJob (.fill d a n v) s))
  | _ => s

/-- The check of VCM.RETRAIN, and the retraining as it begins: nothing is bound and no table is loaded. -/
def retrainChecks (s : State) : List (Bool × Nat) := [
  (!s.allIdle || s.jobs.any (fun j => match j with | .stageNew .. => true | .stage .. => true | .stageRing .. => true | _ => false) ||
    (upTo 32).any s.acqBusy, ST_STATE)]
def beginRetrain (d : Desc) (s : State) : State :=
  let s := forAll (upTo 32) clearTable (forAll (upTo 32) unbind s)
  { s.w .VCM_STATE_STATE 0 VTRAINING with jobs := s.jobs ++ [.retrain d] }

/-- VCM.RETRAIN. Every group is unbound and every table cleared as training begins. -/
def execVcmRetrain (d : Desc) (s : State) : Out := .next <| runCmd 0x0A04 d [args d 0]
  (fun s => checked (retrainChecks s) (beginRetrain d s, .later) s) s

/-- The training of VCM.RETRAIN ends; a failed one completes with ST_FAULT (log entry 35). -/
def execVcmRetrainDone (fail : Option (Fin 128 × Nat)) (s : State) : Out := .next <|
  match s.jobs.find? Job.isRetrain with
  | some j =>
    complete 0x0A04 j.desc (if fail.isSome then ST_FAULT else ST_OK) false 0 0 0
      (trainVcm (fail.map (fun x => (x.1.val, x.2))) (dropJob j s))
  | none => s

/-- VCM.SCRUB. ARG0 the enable bit. -/
def vcmScrubForm (d : Desc) (_ : State) : List (Bool × Nat) := [args d 1, mask 1 d.a0]
def vcmScrubAct (d : Desc) (s : State) : Act := { checks := [], after := s.w .VCM_SCRUB_EN 0 d.a0 }
def execVcmScrub (d : Desc) (s : State) : Out := .next <| runAct 0x0A05 d (vcmScrubForm d s) (vcmScrubAct d) s

end Sys2Proof.Machine
end

