-- ==== Sys2Proof/Machine/Csr.lean ====
section
/-! DEFINITION. The CSR window: where its registers stand, what reading and writing one does, and the mailbox, event-ring
and dispatch registers whose writes have rules of their own (R8, R39, R325, R326, R333, R350 to R353, R359, R365, R366,
R473, R481). -/

namespace Sys2Proof.Machine

/-! ## Mailbox and event-ring registers (R325, R326, R333) -/

/-- A mailbox error (Table MBX-8). -/
def mbErr (n cause : Nat) (s : State) : State :=
  event EV_MB_ERROR [(6, n), (3, cause)] ((s.w .MB_STAT_ECAUSE n cause).setF .MB_STAT_ERR n)

/-- The host area in pool pages (R324). -/
abbrev HOST_PAGE : Nat := 48128
abbrev HOST_END : Nat := 48640

/-- A ring as first byte and length in the pool. -/
abbrev Extent := Nat × Nat
def inHost (e : Extent) : Bool := pageAt HOST_PAGE ≤ e.1 && e.1 + e.2 ≤ pageAt HOST_END

/-- The command ring and the completion ring of a mailbox with a LOG_SIZE and its pages. -/
def mbRings (log cmd cpl : Nat) : List Extent := [(pageAt cmd, 64 * 2 ^ (6 + log)), (pageAt cpl, 32 * 2 ^ (6 + log))]

/-- The event ring of an image of EVR_CFG. -/
def evrRing (cfg : Nat) : Extent := (pageAt (bits cfg 15 0), 32 * 2 ^ (7 + bits cfg 29 27))

/-- The rings of the enabled mailboxes other than n. -/
def State.mbTaken (s : State) (n : Nat) : List Extent :=
  ((upTo 64).filter (fun k => k != n && s.rb .MB_CFG_EN k)).flatMap (fun k =>
    mbRings (s.r .MB_CFG_LOG_SIZE k) (s.r .MB_CFG_CMD_PAGE k) (s.r .MB_CPLCFG_CPL_PAGE k))
def State.evrTaken (s : State) : List Extent := if s.rb .EVR_CFG_EN then [evrRing (s.img .EVR_CFG 0)] else []

/-- The mirrored rings of the partner's enabled mailboxes and its event ring, while paired (R443). -/
def State.twinTaken (s : State) : List Extent :=
  if s.twinOn then (pageAt s.twin.evr.1, pageAt s.twin.evr.2) ::
    (s.twin.mbs.filter (fun e => bit e.2.cfg 31)).flatMap (fun e => mbRings (bits e.2.cfg 27 25) (bits e.2.cfg 15 0) (bits e.2.cplcfg 15 0))
  else []

/-- Whether a list of rings lies in the host area, clear of the rings in use. -/
def placed (l used : List Extent) : Bool := l.all (fun e => inHost e && !used.any (clash e))

/-- Whether a mailbox belongs to the partner half of a paired device (R443). -/
def State.partnerHalf (s : State) (n : Nat) : Bool := s.twinOn && (n / 32 != s.r .TW_STATE_HALF)

/-- The fields of MB_CFG but EN stored from an image. -/
def mbFields (n v : Nat) (s : State) : State :=
  ((s.w .MB_CFG_PRIO n (bits v 30 28)).w .MB_CFG_LOG_SIZE n (bits v 27 25)).w .MB_CFG_CMD_PAGE n (bits v 15 0)

/-- A write of MB_CFG with EN 1 to a mailbox whose EN reads 0 (R325): the placement check, and the counts restarted. The
other fields of a refused write are stored. -/
def mbEnable (n cfg : Nat) (s : State) : State :=
  let s := mbFields n cfg s
  let log := bits cfg 27 25
  let rings := mbRings log (bits cfg 15 0) (s.r .MB_CPLCFG_CPL_PAGE n)
  if 6 < log || s.partnerHalf n || !placed rings (s.mbTaken n ++ s.evrTaken ++ s.twinTaken) then mbErr n 1 s
  else
    let s := (((s.w .MB_PROD_COUNT n 0).w .MB_CONS_COUNT n 0).w .MB_CPL_PROD_COUNT n 0).w .MB_CPL_CONS_COUNT n 0
    let s := { s with mbox := { s.mbox with doors := tset [] s.mbox.doors n [] } }
    mirrorMb n (s.setF .MB_CFG_EN n)

/-- A write of MB_CFG that clears EN (R325): EN keeps reading 1 until OUTSTANDING reaches 0. -/
def mbDisable (n : Nat) (s : State) : State :=
  if s.rb .MB_CFG_EN n then
    drained n { s with mbox := { s.mbox with draining := if s.mbox.draining.contains n then s.mbox.draining else s.mbox.draining ++ [n] } }
  else s

/-- A write of MB_CFG (R325). -/
def mbCfg (n v : Nat) (s : State) : State :=
  if s.rb .MB_CFG_EN n then (if bit v 31 then s else mbDisable n s)
  else if bit v 31 then mbEnable n v s
  else mbFields n v s

/-- Distances of wrapping 32-bit counts. -/
abbrev dist32 (a b : Nat) : Nat := (a + 2 ^ 32 - b) % 2 ^ 32

/-- A doorbell write (R326); its path serves the completion messages of its descriptors (R335). -/
def mbDb (path : Path) (n v : Nat) (s : State) : State :=
  let v := v % 2 ^ 32
  let prod := s.r .MB_PROD_COUNT n
  if !s.rb .MB_CFG_EN n || s.mbox.draining.contains n then mbErr n 2 s
  else if v = prod then s
  else if dist32 v prod ≤ s.mbSize n - dist32 prod (s.r .MB_CONS_COUNT n) then
    mirrorMb n { s.w .MB_PROD_COUNT n v with mbox := { s.mbox with doors := tset [] s.mbox.doors n (tget [] s.mbox.doors n ++ [(v, path)]) } }
  else mbErr n 2 s

/-- A write of MB_CPL_CONS (R326). -/
def mbCplCons (n v : Nat) (s : State) : State :=
  let v := v % 2 ^ 32
  let old := s.r .MB_CPL_CONS_COUNT n
  if dist32 (s.r .MB_CPL_PROD_COUNT n) old < dist32 v old then mbErr n 3 s else mirrorMb n (s.w .MB_CPL_CONS_COUNT n v)

/-- A write of EVR_CFG: placement is checked as R325 says, a failing write leaves EN 0, and the counts restart at 0 when EN
goes from 0 to 1. -/
def evrCfg (v : Nat) (s : State) : State :=
  let was := s.rb .EVR_CFG_EN
  let on := bit v 31 && bits v 29 27 ≤ 5 && placed [evrRing v] (s.mbTaken 64 ++ s.twinTaken)
  let s := (s.wImg .EVR_CFG 0 v).w .EVR_CFG_EN 0 (b2n on)
  if on && !was then (s.w .EVR_PROD_COUNT 0 0).w .EVR_CONS_COUNT 0 0 else s

/-- A write of EVR_CONS follows R326; the event ring has no error bit. -/
def evrCons (v : Nat) (s : State) : State :=
  let v := v % 2 ^ 32
  let old := s.r .EVR_CONS_COUNT
  if dist32 (s.r .EVR_PROD_COUNT) old < dist32 v old then s else s.w .EVR_CONS_COUNT 0 v

def execMbEnable (mb : Fin 64) (cfg : Nat) (s : State) : Out := .next <| mbCfg mb.val (cfg % 2 ^ 31 + 2 ^ 31) s
def execMbDisable (mb : Fin 64) (s : State) : Out := .next <| mbDisable mb.val s
def execMbDb (path : Path) (mb : Fin 64) (v : Nat) (s : State) : Out := .next <| mbDb path mb.val v s
def execMbCplConsWrite (mb : Fin 64) (v : Nat) (s : State) : Out := .next <| mbCplCons mb.val v s
def execEvrEnable (cfg : Nat) (s : State) : Out := .next <| evrCfg (cfg % 2 ^ 31 + 2 ^ 31) s
def execEvrConsWrite (v : Nat) (s : State) : Out := .next <| evrCons v s

/-! ## Consumer counts (Tables CAP-9, TRU-15, REC-11) -/

/-- A consumer count that may move only from its value up to its producer's. -/
def consume (f : Fld) (u v top : Nat) (s : State) : State := if s.r f u ≤ v && v ≤ top then s.w f u v else s

def execCuStailWrite (g : Fin 32) (v : Nat) (s : State) : Out := .next <| consume .CU_STAIL_TAIL g.val v (s.r .CU_SHEAD_HEAD g.val) s

/-- The bytes of the result ring, and what is free in it (R400). -/
def State.resSize (s : State) : Nat := 4096 * s.r .RES_SIZE_PAGES
def State.resFree (s : State) : Nat := s.resSize - (s.r .RES_PROD_COUNT - s.r .RES_CONS_COUNT)

/-- The host consumes results (R400): the fill ends. -/
def resCons (v : Nat) (s : State) : State :=
  let t := consume .RES_CONS_COUNT 0 v (s.r .RES_PROD_COUNT) s
  if s.resFree < t.resFree then { t.w .SEC_STATE_RING_FULL 0 0 with sec := { t.sec with ringFullRaised := false } } else t
def execResConsWrite (v : Nat) (s : State) : Out := .next <| resCons v s
def execTwMresConsWrite (v : Nat) (s : State) : Out := .next <| consume .TW_MRES_CONS_COUNT 0 v (s.r .TW_MRES_PROD_COUNT) s

/-! ## Quotas (R359) -/

/-- Whether the quotas of the classes keep R359, class c having the given GUAR, MAX and PLIM. -/
def State.quotaOk (s : State) (c guar mx plim : Nat) : Bool :=
  let sum := ((upTo 8).map (fun k => if k = c then guar else s.r .DU_QUOTA_GUAR 0 k)).foldl (· + ·) 0
  sum ≤ 8192 && guar ≤ mx && mx ≤ 8192 && (if duN c = 0 then true else guar / duN c ≤ plim)

/-- A write of DU_QUOTAc or DU_CLASSc. -/
def duWrite (c : Nat) (quota : Bool) (v : Nat) (s : State) : State :=
  let ok := if quota then s.quotaOk c (bits v 15 0) (bits v 31 16) (s.r .DU_CLASS_PLIM 0 c)
    else s.quotaOk c (s.r .DU_QUOTA_GUAR 0 c) (s.r .DU_QUOTA_MAX 0 c) (bits v 15 0)
  if ok then readmit (if quota then s.wImg .DU_QUOTA 0 v c else s.wImg .DU_CLASS 0 v c)
  else s.setF .DU_STAT_QCFG_ERR
def execDuQuotaWrite (c : Fin 8) (quota : Bool) (v : Nat) (s : State) : Out := .next <| duWrite c.val quota v s

/-! ## The map (R350 to R352) -/

/-- A register found in the window: which, of which unit, its number in a row, and the byte within it. -/
structure Csr where
  reg : Reg
  unit : Nat
  idx : Nat
  byte : Nat
deriving DecidableEq, Repr

/-- The register of a block at an offset. -/
def Blk.find (b : Blk) (u off : Nat) : Option Csr :=
  (b.regs.find? (fun r => r.place.off ≤ off && off < r.place.off + r.place.count * r.place.size)).map (fun r =>
    { reg := r, unit := u, idx := (off - r.place.off) / r.place.size, byte := (off - r.place.off) % r.place.size })

/-- The bank window under a selection (R351): KIND 0 shows a group, KIND 1 sixteen bin tables, anything else nothing. -/
def bankFind (kind index off : Nat) : Option Csr :=
  if kind = 0 && index < 32 then
    if off < 0x9000 then Blk.group.find index (off - 0x8000)
    else
      let c := 32 * index + (off - 0x9000) / 512
      let o := (off - 0x9000) % 512
      if 0xD000 ≤ off then none
      else if 0xC0 ≤ o && o < 0x100 then Blk.tdc.find c (o - 0xC0)
      else match Blk.channel.find c o with
        | some x => if x.reg = .CH_PARKN && c != 0 then none else some x
        | none => none
  else if kind = 1 && index % 16 = 0 && index < 1040 then
    Blk.bin.find (index + (off - 0x8000) / 2048) ((off - 0x8000) % 2048)
  else none

/-- The register at an offset of the window under a bank selection (Table MBX-11). -/
def csrFind (kind index off : Nat) : Option Csr :=
  if off < 0x1000 then
    if 0x300 ≤ off && off < 0x500 then Blk.tdc.find (1024 + (off - 0x300) / 32) ((off - 0x300) % 32) else Blk.device.find 0 off
  else if off < 0x2000 then Blk.mailbox.find ((off - 0x1000) / 64) ((off - 0x1000) % 64)
  else if off < 0x2C00 then Blk.port.find ((off - 0x2000) / 256) ((off - 0x2000) % 256)
  else if 0x3000 ≤ off && off < 0x3C00 then Blk.ring.find ((off - 0x3000) / 64) ((off - 0x3000) % 64)
  else if 0x4000 ≤ off && off < 0x4010 then Blk.vstack.find ((off - 0x4000) / 4) ((off - 0x4000) % 4)
  else if 0x4100 ≤ off && off < 0x4900 then Blk.vport.find ((off - 0x4100) / 16) ((off - 0x4100) % 16)
  else if 0x8000 ≤ off && off < 0x10000 then bankFind kind index off
  else none

/-- The number of a path's own CSR_SEL. -/
def pathUnit (path : Path) : Nat := match path with | .port n => n.val | .i3c => 12 | .flash => 13

/-- The register that an access path sees at an offset (R351). -/
def State.csrAt (s : State) (path : Path) (off : Nat) : Option Csr :=
  (csrFind (s.r .CSR_SEL_KIND (pathUnit path)) (s.r .CSR_SEL_INDEX (pathUnit path)) off).map (fun x =>
    if x.reg = .CSR_SEL then { x with unit := pathUnit path } else x)

/-! ## Reading (R8, R39, R366) -/

/-- Items of a priority level, and of a class (R374). -/
def State.duLevel (s : State) (k : Nat) : Nat := (s.disp.items.filter (fun x => x.prio == k)).length

/-- The increment of the local clock in 2^-32 ns (R316). -/
def State.clkIncr (s : State) : Nat := ((2 ^ 32 : Int) + (if s.guy.gref then 0 else s.clk.freqTerm) + s.clk.slewTerm).toNat

/-- Whether the space in the completion ring alone holds the next descriptor of a mailbox back (R327). -/
def State.cplFree (s : State) (n : Nat) : Bool :=
  2 * (s.r .MB_STAT_OUTSTANDING n + 1) ≤ s.mbSize n - dist32 (s.r .MB_CPL_PROD_COUNT n) (s.r .MB_CPL_CONS_COUNT n)
def State.takeable (s : State) (n : Nat) : Bool :=
  !s.halted && s.rb .MB_CFG_EN n && !s.mbox.draining.contains n && s.r .MB_CONS_COUNT n != s.r .MB_PROD_COUNT n &&
    s.r .MB_STAT_OUTSTANDING n < 16
def State.cplWait (s : State) (n : Nat) : Bool := s.takeable n && !s.cplFree n && s.duAdmit 4 n

/-- The 64-bit fail counter, vector number and the like behind a field whose value the state keeps elsewhere. -/
def State.rv (s : State) (f : Fld) (u i : Nat) : Nat :=
  match f with
  | .PT_PHASE_LO_PHASE => s.phaseNow u % 2 ^ 32
  | .PT_VEC_LO_COUNT => (s.pt u).vec % 2 ^ 32
  | .CH_FAILCNT_LO_COUNT => (s.ch u).failCnt % 2 ^ 32
  | .GY_BEAT_LO_BEAT => s.guy.beat % 2 ^ 32
  | .TM_NS_LO_NS => s.clk.ns % 2 ^ 32
  | .TM_INCR_HI_INT => s.clkIncr / 2 ^ 32
  | .TM_INCR_LO_FRAC => s.clkIncr % 2 ^ 32
  | .REC_ONTIME_LO_SECONDS => s.recm.onTime % 2 ^ 32
  | .SEC_SEQ_LO_SEQ => s.sec.chain.seq % 2 ^ 32
  | .TB_STATE_LINE => maskOf ((upTo 32).filter s.lineOn)
  | .MB_STAT_CPL_WAIT => b2n (s.cplWait u)
  | .DU_DEPTH_VALUE => s.duLevel i
  | .DU_HELD_VALUE => s.duHc i
  | .DU_STAT_HELD => s.disp.items.length
  | .TD_BIN_VALUE => (s.td u).bins.getD i (64 * i + 32)
  | .POOL_FREE_FREE => s.poolFree
  | .TW_LAG_PENDING => s.twin.queued.length
  | f => s.r f u i

/-- The fields of entry i of a register with their key number and least significant bit: a pair register holds entries 2i
and 2i + 1, and DU_HIST shows the level of DU_HSEL (R374). -/
def State.slots (s : State) (r : Reg) (i : Nat) : List (Fld × Nat × Nat) :=
  r.fields.flatMap (fun f =>
    if f.info.pair then [(f, 2 * i, f.info.lo), (f, 2 * i + 1, f.info.lo + 16)]
    else [(f, if r = .DU_HIST then 16 * s.r .DU_HSEL_LEVEL + i else i, f.info.lo)])

/-- The value that a register shows. -/
def State.show (s : State) (r : Reg) (u i : Nat) : Nat :=
  (s.slots r i).foldl (fun m (f, k, lo) => m + (if f.info.acc = .WO then 0 else s.rv f u k % 2 ^ f.width) * 2 ^ lo) 0

/-- The clocks of the device block as they stand, and as the core cycle began (R366). -/
def State.clocks (s : State) : Clocks :=
  { beat := s.guy.beat, ns := s.clk.ns, frac := s.clk.frac, epoch := s.clk.epoch, onTime := s.recm.onTime, seq := s.sec.chain.seq }
def State.clocks0 (s : State) : Clocks := s.cyc.clocks.getD s.clocks

/-- What both halves of a latched pair held as the core cycle began (R39, R135, R189, R316, R323, R366, R409, R459); none for a register
that is not the low one of a pair. -/
def State.wide0 (s : State) (r : Reg) (u : Nat) : Option Nat :=
  match r with
  | .PT_PHASE_LO => some (s.phaseNow u)
  | .PT_VEC_LO => some (value0 s.cyc.vec0 u (s.pt u).vec)
  | .CH_FAILCNT_LO => some (value0 s.cyc.fail0 u (s.ch u).failCnt)
  | .GY_BEAT_LO => some s.clocks0.beat
  | .TM_NS_LO => some s.clocks0.ns
  | .REC_ONTIME_LO => some s.clocks0.onTime
  | .SEC_SEQ_LO => some s.clocks0.seq
  | _ => none

/-- What reading a low register latches: the high half as the core cycle began (R366). -/
def latchHi (r : Reg) (u : Nat) (s : State) : State :=
  let v := (s.wide0 r u).getD 0 / 2 ^ 32
  match r with
  | .PT_PHASE_LO => s.w .PT_PHASE_HI_PHASE u v
  | .PT_VEC_LO => s.w .PT_VEC_HI_COUNT u v
  | .CH_FAILCNT_LO => s.w .CH_FAILCNT_HI_COUNT u v
  | .GY_BEAT_LO => s.w .GY_BEAT_HI_BEAT u v
  | .TM_NS_LO => ((s.w .TM_NS_HI_NS u v).w .TM_FRAC_FRAC u s.clocks0.frac).w .TM_EPOCH_EPOCH u s.clocks0.epoch
  | .REC_ONTIME_LO => s.w .REC_ONTIME_HI_SECONDS u v
  | .SEC_SEQ_LO => s.w .SEC_SEQ_HI_SEQ u v
  | _ => s

/-- Whether a register holds an RC field. -/
def Reg.hasRc (r : Reg) : Bool := r.fields.any (fun f => f.info.acc == .RC)

/-- What a read of a register returns: the low half of a latched pair and the RC fields as they were before any update of the core cycle
(R366). -/
def State.readValue (s : State) (r : Reg) (u i : Nat) : Nat :=
  match s.wide0 r u with
  | some v => v % 2 ^ 32
  | none => (s.slots r i).foldl (fun m (f, k, lo) =>
      let v := match f.info.acc with | .WO => 0 | .RC => s.r0 ⟨f, u, k⟩ | _ => s.rv f u k
      m + v % 2 ^ f.width * 2 ^ lo) 0

/-- Read a register: its value, the latch, and its RC fields restarted (R366). -/
def regRead (r : Reg) (u i : Nat) (s : State) : Nat × State :=
  (s.readValue r u i,
    (s.slots r i).foldl (fun t (f, k, _) => if f.info.acc = .RC then rcRead f u k t else t) (latchHi r u s))

/-- Whether a path reaches an offset now: before READY the I3C port sees the device block only (R473). -/
def State.reaches (s : State) (path : Path) (off : Nat) : Bool := path != .i3c || s.ready || off < 0x1000

/-- Read 4 bytes of the window; an offset without a register reads 0 (R350). -/
def csrRead4 (path : Path) (off : Nat) (s : State) : Nat × State :=
  if !s.reaches path off then (0, s)
  else match s.csrAt path off with
    | none => (0, s)
    | some x => let (v, t) := regRead x.reg x.unit x.idx s; (bits v (8 * x.byte + 31) (8 * x.byte), t)

/-- Read 4 or 8 bytes of the window. -/
def csrRead (path : Path) (off n : Nat) (s : State) : Nat × State :=
  let (a, s) := csrRead4 path off s
  if n = 8 then let (b, s) := csrRead4 path (off + 4) s; (a + 2 ^ 32 * b, s) else (a, s)

/-- Keep the data that a path read last. A private read of 4 bytes over I3C leaves its pointer behind them (R473). -/
def keepRead (path : Path) (off : Nat) (x : Nat × State) : State :=
  { x.2 with bus := { x.2.bus with
    rdata := tset 0 x.2.bus.rdata (pathUnit path) x.1, i3cPtr := if path = .i3c then (off + 4) % 65536 else x.2.bus.i3cPtr } }

/-- A read of a register with an RC field (R366). -/
def execRcRead (path : Path) (off : Nat) (s : State) : Out := .next <|
  match s.csrAt path off with
  | some x => if off % 4 = 0 && x.reg.hasRc then keepRead path off (csrRead path off 4 s) else s
  | none => s

/-- A read of the low register of a latched pair (R39). -/
def execLatchedPairRead (path : Path) (off : Nat) (s : State) : Out := .next <|
  match s.csrAt path off with
  | some x => if off % 4 = 0 && (s.wide0 x.reg x.unit).isSome then keepRead path off (csrRead path off 4 s) else s
  | none => s

/-! ## Writing (R8, R331, R365, R481) -/

/-- A write by access codes: RW fields take the value, a 1 clears a W1C bit, the others ignore it (R8). -/
def plainWrite (r : Reg) (u i v : Nat) (s : State) : State :=
  (s.slots r i).foldl (fun t (f, k, lo) =>
    let x := (v / 2 ^ lo) % 2 ^ f.width
    match f.info.acc with
    | .RW => t.w f u x k
    | .W1C => w1c f u k x t
    | _ => t) s

/-- A write that an idle pitch takes and any other ignores with WR_IGNORED. -/
def ifIdle (p : Option Nat) (f : State → State) (s : State) : State :=
  match p with
  | none => f s
  | some p => if s.idle p then f s else s.setF .PT_STATUS_WR_IGNORED p

/-- A direct write of a whole register. -/
def regWrite (path : Path) (r : Reg) (u i v : Nat) (s : State) : State :=
  let plain := plainWrite r u i v
  match r with
  | .PH_SRC | .PH_LOOP | .PH_FMIN | .PH_FMAX | .PH_LIMIT | .PH_HOLD => phWrite u r v s
  | .PT_FLAGS => setFlags u (v % 65536) (65535 - v % 65536) s
  | .PT_CNT => loadCounter u i v s
  | .PT_CNT_CFG | .PT_RESP | .PT_SUPPLY | .TR_CTL | .TR_STG | .TR_TMO => ifIdle (some u) plain s
  | .ES_MASK => ifIdle (s.pitchOf u) (stripMask u v (s.rb .ES_CFG_SIG u)) s
  | .ES_CFG => ifIdle (s.pitchOf u) (fun s => stripMask u (s.r .ES_MASK_MASK u) (bit v 31) (plain s)) s
  | .SQ_FMASK | .TR_CARE | .TR_VAL | .ES_INT => ifIdle (s.pitchOf u) plain s
  | .CH_SYSOFF => ifIdle (s.pitchOf (groupOf u)) (fun s => let t := plain s; if t.tdFrozen u then t else tdRefresh u t) s
  | .MK_ROUTE | .MK_OFF => if s.idle (s.r .MK_ROUTE_PITCH 0 i) then plain s else s
  | .LK_CFG | .LK_FIR | .LK_SLOW => if s.pst u == POFF || s.pst u == PDOWN then plain s else s
  | .GY_CFG | .GY_HUB | .GY_ASYM => if s.grefBusy then s else plain s
  | .DU_QUOTA => duWrite i true v s
  | .DU_CLASS => duWrite i false v s
  | .SR_COMMIT => srCommit u v s
  | .CU_STAIL => consume .CU_STAIL_TAIL u v (s.r .CU_SHEAD_HEAD u) s
  | .RES_CONS => resCons v s
  | .TW_MRES_CONS => consume .TW_MRES_CONS_COUNT 0 v (s.r .TW_MRES_PROD_COUNT) s
  | .MB_CFG => mbCfg u v s
  | .MB_CPLCFG => if s.rb .MB_CFG_EN u then s else plain s
  | .MB_DB => mbDb path u v s
  | .MB_CPL_CONS => mbCplCons u v s
  | .EVR_CFG => evrCfg v s
  | .EVR_CONS => evrCons v s
  | .SQ_CMD => s
  | .SQ_TRACE => if s.r .SEC_STATE_DBG = 0 then s else plain s
  | _ => plain s

/-- What the other half of a 64-bit register holds when only one half is written. -/
def State.other (s : State) (x : Csr) : Nat := if x.reg = .SR_COMMIT then s.r .SR_HEAD_HEAD x.unit else s.show x.reg x.unit x.idx

/-- Write 4 bytes of the window: a half of a 64-bit register leaves the other half as it is. -/
def csrWrite4 (path : Path) (off v : Nat) (s : State) : State :=
  if !s.reaches path off then s
  else match s.csrAt path off with
    | none => s
    | some x =>
      if x.reg.place.size = 8 then
        regWrite path x.reg x.unit x.idx (putBits (s.other x) (8 * x.byte + 31) (8 * x.byte) v) s
      else regWrite path x.reg x.unit x.idx (v % 2 ^ 32) s

/-- Write 4 or 8 bytes of the window: one 64-bit register as a whole, or two 32-bit registers in ascending order. -/
def csrWrite (path : Path) (off n v : Nat) (s : State) : State :=
  if n = 8 then
    match s.csrAt path off with
    | some x =>
      if x.reg.place.size = 8 && s.reaches path off then regWrite path x.reg x.unit x.idx (v % 2 ^ 64) s
      else csrWrite4 path (off + 4) (v / 2 ^ 32) (csrWrite4 path off v s)
    | none => csrWrite4 path (off + 4) (v / 2 ^ 32) s
  else csrWrite4 path off v s

/-- Whether an access of n bytes at an offset keeps R350. -/
def csrAccess (off n : Nat) : Bool := (n == 4 || n == 8) && off % n == 0 && off + n ≤ 0x10000

/-- A direct write of 4 bytes, or of 8 (R350, R351). -/
def execRegisterWrite (path : Path) (off : Nat) (wide : Bool) (v : Nat) (s : State) : Out := .next <|
  let n := if wide then 8 else 4
  if path != .flash && csrAccess off n then csrWrite path off n v s else s

end Sys2Proof.Machine
end

