-- ==== Sys2Proof/Machine/Coat.lean ====
section
/-! DEFINITION. Configuration coats: the image, its entries, the checks, and applying one (R340 to R348). -/

namespace Sys2Proof.Machine

/-! ## The image (R340, R341) -/

/-- A coat where it lies: the path and address at which it is read. -/
structure CoatAt where
  path : Path
  a : Nat
deriving DecidableEq, Repr

/-- n bytes of an image from an offset on, and the number they spell. -/
def State.coatB (s : State) (c : CoatAt) (off n : Nat) : List Byte := s.winLoad c.path (c.a + off) n
def State.coatN (s : State) (c : CoatAt) (off n : Nat) : Nat := ofBytes (s.coatB c off n)

/-- The header of a coat (Table MBX-9) as one number. -/
def State.coatHdr (s : State) (c : CoatAt) : Nat := s.coatN c 0 64
def hKind (h : Nat) : Nat := bits h 19 16
def hId (h : Nat) : Nat := bits h 63 32
def hBase (h : Nat) : Nat := bits h 95 64
def hLen (h : Nat) : Nat := bits h 127 96
def hNent (h : Nat) : Nat := bits h 159 128
def hG (h : Nat) : Nat := bits h 191 160
def hP (h : Nat) : Nat := bits h 203 192
def hX (h : Nat) : Nat := bits h 205 204

/-- Whether a header and LENGTH break R340. -/
def hdrBad (h : Nat) : Bool :=
  bits h 15 0 != 5 || bits h 31 20 != 0 || bits h 511 206 != 0 || hId h == 0 || hLen h < 96 || hLen h % 16 != 0 ||
    (match hKind h with
      | 1 => hBase h != 0 || 2 ^ 25 < hLen h
      | 2 => hG h != 0 || hP h != 0 || hX h != 0 || 65536 < hLen h
      | _ => true)

/-- An entry (R341): its offset in the image and its first 16 bytes. -/
structure CoatEnt where
  off : Nat
  w : Nat
deriving DecidableEq, Repr

def CoatEnt.kind (e : CoatEnt) : Nat := bits e.w 7 0
def CoatEnt.len (e : CoatEnt) : Nat := 16 * bits e.w 31 16
def CoatEnt.csr (e : CoatEnt) : Nat := bits e.w 47 32
def CoatEnt.mask (e : CoatEnt) : Nat := bits e.w 95 64
def CoatEnt.value (e : CoatEnt) : Nat := bits e.w 127 96

/-- The entries of an image, n of them from an offset on. -/
def State.coatEnts (s : State) (c : CoatAt) : Nat → Nat → List CoatEnt
  | 0, _ => []
  | n + 1, off =>
    let e : CoatEnt := { off := off, w := s.coatN c off 16 }
    e :: s.coatEnts c n (off + max 16 e.len)

/-- The entries fill LENGTH up to the digest. -/
def entsEnd (l : List CoatEnt) : Nat := match l.getLast? with | some e => e.off + max 16 e.len | none => 64

/-- The register that a FIELD entry names, through its own bank selection. -/
def CoatEnt.site (e : CoatEnt) : Option Csr := csrFind (bits e.w 63 62) (bits e.w 58 48) e.csr

/-- The RW bits of the 32 bits that stand at a place of the window. -/
def rwMask (x : Csr) : Nat :=
  bits ((x.reg.fields.filter (fun f => f.info.acc == .RW)).foldl (fun m f => m ||| ((2 ^ f.width - 1) * 2 ^ f.info.lo)) 0)
    (8 * x.byte + 31) (8 * x.byte)

/-- Whether a register is one that no coat may write: the mailbox block, the system sub-block and CSR_SEL (R342). -/
def Csr.barred (x : Csr) : Bool := x.reg.place.blk == .mailbox || (x.reg.place.blk == .device && x.reg.place.off < 0x100)

/-- The descriptor of a COMMAND entry, with the addresses that Table MBX-10's commands take moved to the payload. -/
def addrArgs (cmd : Nat) : List Nat :=
  match cmd with
  | 0x0301 | 0x0904 => [0, 1]
  | 0x0602 | 0x0701 | 0x0702 | 0x0B01 => [1]
  | 0x0401 => [2]
  | 0x0C01 | 0x0C04 => [0]
  | _ => []
def moved (cmd k base v : Nat) : Nat := if (addrArgs cmd).contains k then base + v else v
def State.coatDesc (s : State) (c : CoatAt) (e : CoatEnt) : Nat × Desc :=
  let n := s.coatN c (e.off + 16) 64
  let cmd := bits n 15 0
  let base := c.a + e.off + 80
  let arg := fun k => moved cmd k base (bits n (127 + 64 * k) (64 + 64 * k))
  (cmd, { tag := bits n 31 16, fence := bit n 32, notify := bit n 33, rsv := bits n 63 34, path := c.path
          a0 := arg 0, a1 := arg 1, a2 := arg 2, a3 := arg 3, a4 := arg 4, a5 := arg 5, a6 := arg 6 })

/-- The commands of Table MBX-10 that only a base coat may hold, and those that a skim may hold too. -/
def baseCmds : List Nat := [0x0601, 0x0503, 0x0504, 0x0904, 0x0B01, 0x0B05, 0x0C01, 0x0C04, 0x0C07, 0x0A05]
def anyCmds : List Nat := [0x0602, 0x060A, 0x0301, 0x0401, 0x0403, 0x0701, 0x0702, 0x0703, 0x0806]

/-- The blocks of the payload that a command reads, as argument and length. -/
def State.coatReads (s : State) (cmd : Nat) (d : Desc) : List (Nat × Nat) :=
  let n := (chansIn (s.chanMask d d.a0)).length
  match cmd with
  | 0x0301 => [(0, 128), (1, 28 * n)]
  | 0x0904 => [(0, 128), (1, 16 * n)]
  | 0x0602 => [(1, 24)]
  | 0x0701 => [(1, 40)]
  | 0x0702 => [(1, 4 * (8 * (s.members d.a0).length + 9))]
  | 0x0B01 => [(1, 24)]
  | 0x0401 => [(2, 800)]
  | 0x0C01 => [(0, 12)]
  | 0x0C04 => [(0, 100)]
  | _ => []

/-- Whether an entry breaks its form (R341). -/
def State.entBad (s : State) (c : CoatAt) (e : CoatEnt) : Bool :=
  bits e.w 15 8 != 0 ||
  (match e.kind with
    | 1 =>
      let sel := bits e.w 63 48
      bits e.w 31 16 != 1 || e.csr % 4 != 0 ||
        (if e.csr < 0x8000 then sel != 0 else bits sel 13 11 != 0 || 2 ≤ bits sel 15 14) ||
        (match e.site with
          | none => true
          | some x => x.barred || e.mask &&& rwMask x != e.mask)
    | 2 =>
      let (cmd, d) := s.coatDesc c e
      bits e.w 31 16 < 5 || bits e.w 127 32 != 0 || !(baseCmds ++ anyCmds).contains cmd || d.rsv != 0 ||
        (s.coatReads cmd d).any (fun (k, n) => c.a + e.off + e.len < Desc.arg d k + n)
    | _ => true)

/-- Whether an entry is one that only a base coat may hold (Table MBX-10). -/
def State.entBase (s : State) (c : CoatAt) (e : CoatEnt) : Bool :=
  match e.kind with
  | 1 =>
    (match e.site with
      | some x =>
        x.reg == .CH_SYSOFF ||
          (match x.reg.place.blk with
            | .group | .channel => false
            | .device => !((0x100 ≤ x.reg.place.off && x.reg.place.off < 0x180) || (0x200 ≤ x.reg.place.off && x.reg.place.off < 0x300))
            | _ => true)
      | none => true)
  | _ => baseCmds.contains (s.coatDesc c e).1

/-! ## The checks of entries (R342, R343) -/

/-- The registers that a command of Table MBX-10 writes. -/
def cmdRegs (cmd : Nat) : List Reg :=
  match cmd with
  | 0x0601 => [.PT_MEMBERS]
  | 0x0602 => followRegs
  | 0x060A => [.MK_ROUTE, .MK_OFF]
  | 0x0301 => chRegs
  | 0x0503 => [.PG_QUOTA]
  | 0x0504 => [.SR_CFG]
  | 0x0701 => [.CU_CFG, .CU_RAWMASK, .CU_REDMASK, .CU_REDINT, .CU_AREA_BASE, .CU_AREA_SIZE, .CU_DEST, .CU_DRING_BASE, .CU_DRING_SIZE]
  | 0x0702 => [.TR_CARE, .TR_VAL, .TR_CTL, .TR_STG, .TR_TMO]
  | 0x0703 => [.TB_SRC]
  | 0x0806 => [.ES_MASK, .ES_CFG, .ES_INT]
  | 0x0904 => [.CH_SYSOFF]
  | 0x0A05 => [.VCM_SCRUB]
  | 0x0B01 => [.LK_CFG, .LK_FIR, .LK_SLOW]
  | 0x0B05 => [.LK_APER]
  | 0x0C01 => [.GY_CFG, .GY_HUB, .GY_ASYM]
  | 0x0C04 => [.TM_CFG, .PP_CFG, .PP_ASYM]
  | 0x0C07 => [.TM_FWD]
  | _ => []

/-- Whether two states agree on every field that a command writes. -/
def sameFor (l : List Reg) (s t : State) : Bool :=
  s.regs.filter (fun e => l.contains e.1.fld.info.reg) == t.regs.filter (fun e => l.contains e.1.fld.info.reg) &&
    s.grp.map (fun e => (e.1, e.2.tsets)) == t.grp.map (fun e => (e.1, e.2.tsets))

/-- The form checks and the own checks of a command of Table MBX-10, with its effect. -/
def coatCmd (cmd : Nat) (d : Desc) (s : State) : List (Bool × Nat) × Act :=
  match cmd with
  | 0x0601 => (seqFormForm d s, seqFormAct d s)
  | 0x0602 => (seqFollowForm d s, seqFollowAct d s)
  | 0x060A => (seqMarkForm d s, seqMarkAct d s)
  | 0x0301 => (chConfigForm d s, chConfigAct d s)
  | 0x0401 => (tsetWriteForm d s, tsetWriteAct d s)
  | 0x0403 => (tsetInvalidateForm d s, tsetInvalidateAct d s)
  | 0x0503 => (patQuotaForm d s, patQuotaAct d s)
  | 0x0504 => (patRingForm d s, patRingAct d s)
  | 0x0701 => (capConfigForm d s, capConfigAct d s)
  | 0x0702 => (capTrigsetForm d s, capTrigsetAct d s)
  | 0x0703 => (capBusForm d s, capBusAct d s)
  | 0x0806 => (tdcStripForm d s, tdcStripAct d s)
  | 0x0904 => (calSysoffForm d s, calSysoffAct d s)
  | 0x0A05 => (vcmScrubForm d s, vcmScrubAct d s)
  | 0x0B01 => (linkConfigForm d s, linkConfigAct d s)
  | 0x0B05 => (linkApertureForm d s, linkApertureAct d s)
  | 0x0C01 => (timeGuycfgForm d s, timeGuycfgAct d s)
  | 0x0C04 => (timePtpcfgForm d s, timePtpcfgAct d s)
  | 0x0C07 => (timeFwdForm d s, timeFwdAct d s)
  | _ => ([(true, ST_RANGE)], { checks := [], after := s })

/-- The unit checks of R349 for a FIELD entry. -/
def State.siteOff (s : State) (x : Csr) : Bool :=
  match x.reg.place.blk with
  | .group => !s.gEn x.unit
  | .channel => !s.gEn (groupOf x.unit)
  | .port => !s.pEn x.unit
  | _ => false

/-- The images that a FIELD entry leaves in the registers of a list of one unit. -/
def State.imgsWith (s : State) (l : List Reg) (x : Csr) (v : Nat) : List Nat := l.map (fun r => if r = x.reg then v else s.img r x.unit)

/-- The checks of a FIELD entry that leaves a value in a whole register: those of the command that writes the register, and
ST_STATE where a direct write would be ignored. -/
def fieldChecks (s : State) (x : Csr) (v : Nat) : List (Bool × Nat) :=
  let u := x.unit
  let own := fun (p : Option Nat) => (match p with | some p => !s.idle p | none => false, ST_STATE)
  match x.reg with
  | .PH_SRC | .PH_LOOP | .PH_FMIN | .PH_FMAX | .PH_LIMIT | .PH_HOLD => followChecks s u (s.imgsWith followRegs x v)
  | .CH_CFG | .CH_SER_POLY | .CH_SER_SEED | .CH_SER_SH_LO | .CH_SER_SH_HI | .CH_UTAB_LO | .CH_UTAB_HI =>
    [(!s.groupIdle (groupOf u), ST_STATE), (chImgBad (s.imgsWith chRegs x v), ST_RANGE)]
  | .MK_ROUTE => [(!s.idle (s.r .MK_ROUTE_PITCH 0 x.idx) || !s.idle (bits v 28 24), ST_STATE), (bits v 21 14 < 2, ST_RANGE)]
  | .MK_OFF => [(!s.idle (s.r .MK_ROUTE_PITCH 0 x.idx), ST_STATE)]
  | .CU_CFG | .CU_RAWMASK | .CU_REDMASK | .CU_REDINT | .CU_AREA_BASE | .CU_AREA_SIZE | .CU_DEST | .CU_DRING_BASE | .CU_DRING_SIZE =>
    let w := fun (r : Reg) => if r = x.reg then v else s.img r u
    let l := [w .CU_CFG, w .CU_RAWMASK, w .CU_REDMASK, w .CU_REDINT, w .CU_AREA_BASE, w .CU_AREA_SIZE, w .CU_DEST,
      w .CU_DRING_BASE % 2 ^ 32, w .CU_DRING_BASE / 2 ^ 32, w .CU_DRING_SIZE]
    [(s.capBusy u, ST_STATE), (s.capBad u (fun i => l.getD i 0), ST_RANGE)]
  | .TR_CTL => [own (some u), (s.trigBad v ((upTo 4).map (fun i => s.img .TR_STG u i)), ST_RANGE)]
  | .TR_STG => [own (some u), (s.trigBad (s.img .TR_CTL u) [v], ST_RANGE)]
  | .TR_TMO | .PT_CNT_CFG | .PT_RESP | .PT_SUPPLY => [own (some u)]
  | .TR_CARE | .TR_VAL | .SQ_FMASK => [own (s.pitchOf u)]
  | .TB_SRC => [(!s.idle (s.r .TB_SRC_PITCH 0 x.idx) || !s.idle (bits v 30 26), ST_STATE), (bits v 23 16 == 0, ST_RANGE)]
  | .ES_MASK => (tdcStripAct { a0 := u, a1 := v, a2 := s.r .ES_CFG_SIG u, a3 := s.r .ES_CFG_EDGE u, a4 := s.r .ES_INT_VECTORS u } s).checks
  | .ES_CFG => [own (s.pitchOf u), (2 ≤ bits v 30 29, ST_RANGE)]
  | .ES_INT => [own (s.pitchOf u), (v == 0, ST_RANGE)]
  | .CH_SYSOFF => [own (s.pitchOf (groupOf u))]
  | .LK_CFG | .LK_SLOW => [(s.pst u != POFF && s.pst u != PDOWN, ST_STATE), (s.linkBad u
      ([if x.reg = .LK_CFG then v else s.img .LK_CFG u] ++ (upTo 4).map (fun i => s.img .LK_FIR u i) ++ [if x.reg = .LK_SLOW then v else s.img .LK_SLOW u]), ST_RANGE)]
  | .LK_FIR => [(s.pst u != POFF && s.pst u != PDOWN, ST_STATE), (s.linkBad u
      ([s.img .LK_CFG u] ++ (upTo 4).map (fun i => if i = x.idx then v else s.img .LK_FIR u i) ++ [s.img .LK_SLOW u]), ST_RANGE)]
  | .GY_CFG | .GY_HUB | .GY_ASYM =>
    [(s.grefBusy, ST_STATE), (guyBad ([Reg.GY_CFG, .GY_HUB, .GY_ASYM].map (fun r => if r = x.reg then v else s.img r 0)), ST_RANGE)]
  | .PP_CFG => [(s.ptpBad u v, ST_RANGE)]
  | .DU_QUOTA => [(!s.quotaOk x.idx (bits v 15 0) (bits v 31 16) (s.r .DU_CLASS_PLIM 0 x.idx), ST_RANGE)]
  | .DU_CLASS => [(!s.quotaOk x.idx (s.r .DU_QUOTA_GUAR 0 x.idx) (s.r .DU_QUOTA_MAX 0 x.idx) (bits v 15 0), ST_RANGE)]
  | .CU_STAIL => [(v < s.r .CU_STAIL_TAIL u || s.r .CU_SHEAD_HEAD u < v, ST_RANGE)]
  | .RES_CONS => [(v < s.r .RES_CONS_COUNT || s.r .RES_PROD_COUNT < v, ST_RANGE)]
  | .TW_MRES_CONS => [(v < s.r .TW_MRES_CONS_COUNT || s.r .TW_MRES_PROD_COUNT < v, ST_RANGE)]
  | _ => []

/-- The whole value of a register after a FIELD entry, and its effect. -/
def CoatEnt.newVal (e : CoatEnt) (x : Csr) (s : State) : Nat :=
  let old := s.other x
  let half := bits old (8 * x.byte + 31) (8 * x.byte)
  putBits old (8 * x.byte + 31) (8 * x.byte) ((half - (half &&& e.mask)) ||| (e.value &&& e.mask))
def fieldAfter (path : Path) (x : Csr) (v : Nat) (s : State) : State :=
  match x.reg with
  | .ES_MASK => (tdcStripAct { a0 := x.unit, a1 := v, a2 := s.r .ES_CFG_SIG x.unit, a3 := s.r .ES_CFG_EDGE x.unit
                               a4 := s.r .ES_INT_VECTORS x.unit } s).after
  | r => regWrite path r x.unit x.idx v s

/-- One entry as checks, effect and the registers it writes. -/
def coatEnt (c : CoatAt) (s : State) (e : CoatEnt) : List (Bool × Nat) × State × List Reg :=
  match e.kind with
  | 1 =>
    (match e.site with
      | some x => let v := e.newVal x s; (dis (s.siteOff x) :: fieldChecks s x v, fieldAfter c.path x v s, [x.reg])
      | none => ([(true, ST_RANGE)], s, []))
  | _ =>
    let (cmd, d) := s.coatDesc c e
    let (form, act) := coatCmd cmd d s
    (form ++ act.checks, act.after, cmdRegs cmd)

/-- Run the entries in order, from index i: the state they leave, or the first failing entry with its status. An entry that
would leave its fields as they are skips its state checks, and then has no effect. -/
def coatRun (c : CoatAt) : List CoatEnt → Nat → State → Except (Nat × Nat) State
  | [], _, s => .ok s
  | e :: r, i, s =>
    let (l, t, regs) := coatEnt c s e
    match firstBad l with
    | none => coatRun c r (i + 1) t
    | some st =>
      if sameFor regs s t then
        match firstBad (l.filter (fun x => x.2 != ST_STATE)) with
        | none => coatRun c r (i + 1) s
        | some st => .error (i, st)
      else .error (i, st)

/-- A coat's checks (R343): the failing status with its entry and the entry's own status, or the state that it leaves. -/
def coatCheck (c : CoatAt) (s : State) : Except (Nat × Nat × Nat) State :=
  let h := s.coatHdr c
  let l := s.coatEnts c (hNent h) 64
  let digest := s.coatN c (hLen h - 32) 32
  if hdrBad h || entsEnd l + 32 != hLen h || Config.shake256 (s.coatB c 0 (hLen h - 32)) % 2 ^ 256 != digest then .error (ST_RANGE, 0, 0)
  else
    match l.zipIdx.find? (fun (e, _) => s.entBad c e) with
    | some (_, i) => .error (ST_RANGE, i, ST_RANGE)
    | none =>
      let blk := s.coatB c (hLen h) (blockLen (s.coatN c (hLen h) 16))
      if s.ownerFails 5 digest blk then .error (ST_AUTH, 0, 0)
      else
        match (if hKind h = 2 then l.zipIdx.find? (fun (e, _) => s.entBase c e) else none) with
        | some (_, i) => .error (ST_REFUSED, i, ST_REFUSED)
        | none =>
          match coatRun c l 0 s with
          | .ok t => .ok t
          | .error (i, st) => .error (st % 256, i, st % 256)

/-- The bytes that a coat takes, with its signature block where an owner is enrolled. -/
def State.coatSize (s : State) (c : CoatAt) : Nat :=
  let n := hLen (s.coatHdr c)
  n + (if s.rb .SEC_STATE_OWNER then blockLen (s.coatN c n 16) else 0)

/-! ## Applying (R343 to R348) -/

/-- The list of active coats goes to the twin (R446). -/
def mirrorCoats (s : State) : State := mirror (.coats s.mbox.baseId (s.mbox.skims.map (·.1))) s

/-- A coat that has taken effect enters the log and is announced. -/
def coatSeen (mk kind id digest : Nat) (s : State) : State :=
  event EV_COAT_APPLIED [(32, id), (4, kind)] (measure mk 0 id digest s)

/-- The masks of a base coat that differ from those in force go to the UNITS record and wait for the next start (R348). -/
def unitsPend (h : Nat) (s : State) : State :=
  if hG h = s.r .SYS_UNITS_G_G_EN && hP h = s.r .SYS_UNITS_P_P_EN && hX h = s.r .SYS_UNITS_P_X_EN then s
  else
    recWrite 0x0C 0 (fun upd => bytesOf 64 (pack [(32, upd), (32, 0), (32, hG h), (12, hP h), (2, hX h)]))
      (s.setF .SYS_STATE_UNITS_PEND)

/-- A base coat is applied: `t` is the state that its entries leave (R344). -/
def applyBase (c : CoatAt) (h : Nat) (t : State) : State :=
  let digest := t.coatN c (hLen h - 32) 32
  let t := { t with mbox := { t.mbox with skims := [], baseId := hId h, baseDigest := digest } }
  mirrorCoats (unitsPend h (coatSeen MK_BASE 1 (hId h) digest t))

/-- A skim coat is applied and stands last in the active list (R345). -/
def applySkim (c : CoatAt) (h : Nat) (t : State) : State :=
  let digest := t.coatN c (hLen h - 32) 32
  let t := { t with mbox := { t.mbox with skims := t.mbox.skims.filter (fun e => e.1 != hId h) ++ [(hId h, digest)] } }
  mirrorCoats (coatSeen MK_SKIM 2 (hId h) digest t)

/-- The first two check lines of COAT.LOAD. -/
def State.loadBusy (s : State) : Bool := !s.allIdle || !s.mbox.waits.isEmpty
def baseRange (h : Nat) : Bool := hKind h != 1 || hG h == 0 || hP h == 0

/-- Where COAT.LOAD finds its coat: on the command's path, or in boot flash. -/
def loadAt (d : Desc) : CoatAt := { path := if d.a0 = 0 then d.path else .flash, a := d.a1 }

/-- The checks of COAT.LOAD before those of R343. -/
def coatLoadChecks (s : State) (d : Desc) : List (Bool × Nat) :=
  let c := loadAt d
  let rd : Desc := { d with path := c.path }
  let h := s.coatHdr c
  [(d.a0 == 1 && spaceSize 4 < d.a1 + 64, ST_RANGE), (s.loadBusy, ST_STATE), s.rfault rd d.a1 64, (baseRange h || hdrBad h, ST_RANGE),
    (d.a0 == 0 && !winOk d.a1 (hLen h), ST_RANGE), s.rfault rd d.a1 (hLen h),
    (d.a0 == 0 && s.rb .SEC_STATE_OWNER && !winOk d.a1 (s.coatSize c), ST_RANGE), s.rfault rd d.a1 (s.coatSize c)]

/-- COAT.LOAD (R344). ARG0 the source (0 WINDOW, 1 FLASH), ARG1 the address. -/
def execCoatLoad (d : Desc) (s : State) : Out := .next <| runCmd 0x0201 d
  [args d 2, choice 2 d.a0, (d.a0 == 0 && !winOk d.a1 64, ST_RANGE)]
  (fun s => checked (coatLoadChecks s d)
    (match coatCheck (loadAt d) s with
      | .error (st, i, own) => (s, .done st i own)
      | .ok t => (applyBase (loadAt d) (s.coatHdr (loadAt d)) t, .done ST_OK)) s) s

/-- The pitches that are not idle. -/
def State.busyPitches (s : State) : List Nat := (upTo 32).filter (fun p => !s.idle p)

/-- The state as it would be with a list of pitches idle. -/
def idled (l : List Nat) (s : State) : State :=
  forAll l (fun p t =>
    let t := if (t.acq p).atStart && (t.acq p).opened.isNone then t else t.setA p ADONE
    t.w .PT_RUN_STATE p IDLE) s

/-- Whether a coat fails in a state with ST_STATE. -/
def stateFails (c : CoatAt) (s : State) : Bool := match coatCheck c s with | .error (st, _, _) => st == ST_STATE | .ok _ => false

/-- The pitches that alone keep a coat from passing (R346), or none where something else fails. -/
def State.touches (s : State) (c : CoatAt) : List Nat :=
  match coatCheck c (idled s.busyPitches s) with
  | .error _ => []
  | .ok _ => s.busyPitches.filter (fun p => stateFails c (idled (s.busyPitches.filter (· != p)) s))

/-- Where COAT.APPLY finds its coat. -/
def applyAt (d : Desc) : CoatAt := { path := d.path, a := d.a0 }

/-- COAT.APPLY (R345, R346). ARG0 the address, ARG1 WAIT, ARG2 the timeout in ms. -/
def coatApplyChecks (s : State) (d : Desc) (h : Nat) : List (Bool × Nat) :=
  [(s.mbox.baseId == 0 || hBase h != s.mbox.baseId, ST_STATE), (hKind h != 2 || hdrBad h || d.a2 == 0 || 60000 < d.a2, ST_RANGE),
    (!s.mbox.skims.any (fun e => e.1 == hId h) && 63 ≤ s.mbox.skims.length, ST_NOSPACE),
    (!winOk d.a0 (hLen h), ST_RANGE), s.rfault d d.a0 (hLen h),
    (s.rb .SEC_STATE_OWNER && !winOk d.a0 (s.coatSize { path := d.path, a := d.a0 }), ST_RANGE),
    s.rfault d d.a0 (s.coatSize { path := d.path, a := d.a0 })]
def execCoatApply (d : Desc) (s : State) : Out := .next <| runCmd 0x0202 d
  [args d 3, choice 2 d.a1, reachD d d.a0 64]
  (fun s => checked (s.rfault d d.a0 64 :: coatApplyChecks s d (s.coatHdr (applyAt d)))
      (match coatCheck (applyAt d) s with
        | .ok t => (applySkim (applyAt d) (s.coatHdr (applyAt d)) t, .done ST_OK)
        | .error (st, i, own) =>
          let l := s.touches (applyAt d)
          if d.a1 = 1 && st = ST_STATE && !l.isEmpty then
            if 4 ≤ s.mbox.waits.length then (s, .done ST_BUSY)
            else
              let w : CoatWait := { d := d, touched := maskOf l, deadline := s.now + 1000000 * d.a2 }
              (freeCmd d { s with mbox := { s.mbox with waits := s.mbox.waits ++ [w] } }, .deferred)
          else (s, .done st i own)) s) s

/-- A waiting coat whose touched pitches are all idle is checked again and applied or failed (R346). -/
def retryCoat (w : CoatWait) (s : State) : State :=
  let s := { s with mbox := { s.mbox with waits := s.mbox.waits.filter (· != w) } }
  let c : CoatAt := { path := w.d.path, a := w.d.a0 }
  let h := s.coatHdr c
  match firstBad (s.rfault w.d w.d.a0 64 :: coatApplyChecks s w.d h) with
  | some st => complete 0x0202 w.d st false 0 0 0 s
  | none =>
    match coatCheck c s with
    | .ok t => complete 0x0202 w.d ST_OK false 0 0 0 (applySkim c h t)
    | .error (st, i, own) => complete 0x0202 w.d st false i own 0 s

/-- Every waiting coat that has become ready, in the order of acceptance (R346). -/
def settleList : List CoatWait → State → State
  | [], s => s
  | w :: r, s =>
    settleList r (if s.mbox.waits.contains w && (maskBits 32 w.touched).all s.idle then retryCoat w s else s)
def settle (s : State) : State := settleList s.mbox.waits s

/-- The timeout of the k-th waiting coat (R346). -/
def execCoatWaitTimeout (k : Nat) (s : State) : Out := .next <|
  match s.mbox.waits[k]? with
  | some w =>
    if w.deadline ≤ s.now then
      complete 0x0202 w.d ST_TIMEOUT false 0 0 0 { s with mbox := { s.mbox with waits := s.mbox.waits.filter (· != w) } }
    else s
  | none => s

/-- COAT.LIST (R347). ARG0 the address. -/
def State.coatBlock (s : State) : List Byte :=
  bytesOf 8 s.mbox.baseId ++ bytesOf 32 s.mbox.baseDigest ++ bytesOf 8 s.mbox.skims.length ++
    s.mbox.skims.flatMap (fun e => bytesOf 8 e.1 ++ bytesOf 32 e.2)
def execCoatList (d : Desc) (s : State) : Out := .next <| runCmd 0x0203 d
  [args d 1, reachD d d.a0 (48 + 40 * s.mbox.skims.length), s.wdown d.a0 48]
  (fun s => (s.winStore d.path d.a0 s.coatBlock, .done ST_OK)) s

end Sys2Proof.Machine
end

