-- ==== Sys2Proof/Machine/Run.lean ====
section
/-! DEFINITION. The run of a pitch: start, vectors, boundaries, flow instructions, stops, and the reference events that end it
(R30, R35, R37, R50, R52, R110, R114 to R134, R312). -/

namespace Sys2Proof.Machine

/-! ## Positions -/

/-- PT_STACK and the pending bits follow the stacks and the pending jump. -/
def showStacks (p : Nat) (s : State) : State :=
  let x := s.pt p
  let s := (s.w .PT_STACK_LOOP_DEPTH p x.loops.length).w .PT_STACK_CALL_DEPTH p x.calls.length
  match x.defer with
  | some q => (s.w .PT_RUN_PEND p 1).w .PT_STACK_PEND_TARGET p q.target
  | none => (s.w .PT_RUN_PEND p 0).w .PT_STACK_PEND_TARGET p 0

/-- The first vector of the next pass is the pitch's next vector: pass `n` of segment k begins at the present boundary, of core
cycle b. A first pass of a CJUMP segment clears its latch, and level sources that hold set it again (R117, R126). The new position is a
commit that TRACE sees (Table MIC-5). `iss` is the pass where the sequencer's ISSUE chose it; the passes of its segment that follow keep
its entry. -/
def beginPlace (p k n : Nat) (first : Bool) (b : Nat) (iss : Option Issued) (s : State) : State :=
  let old := s.r .PT_POS_SEG p
  let s := traceSeg p old (((s.w .PT_POS_SEG p k).w .PT_PASS_PASS p n).w .PT_POS_IMODE p 0)
  let s := s.onPt p (fun x => { x with
    j := 0, atEnd := false, needFlow := false, firstPass := first, lastB := b, chain := 0
    issued := if first || iss.isSome then iss else x.issued.map (fun i => { i with pass := n })
    cjump := if first then none else x.cjump
    latch := if first then none else x.latch
    order := if first then x.order + 1 else x.order
    segFirstVec := if first then x.vec else x.segFirstVec })
  showStacks p (latchNow p b (latchLevels p b s))
def beginPass (p k n : Nat) (first : Bool) (b : Nat) (s : State) : State := beginPlace p k n first b none s

/-- Pass 1 of the first entry at or after index k that plays (R115). -/
def beginSeg (p k b : Nat) (s : State) : State := beginPass p (s.skipZero p 17 k) 1 true b s

/-- A stop at the present boundary: a pending jump is discarded with DROP, unless the pitch halts (R120, R133). -/
def stopHere (p cause : Nat) (s : State) : State :=
  let s := fixStop p cause s
  if cause = 0xF || (s.pt p).defer.isNone then s
  else showStacks p ((s.setF .PT_RUN_DROP p).onPt p (fun x => { x with defer := none }))

/-- The flow program continues at an address after `chain` instructions since the last pass (R125). -/
def continueAt (p ip chain : Nat) (s : State) : State :=
  if s.progLen p ≤ ip then stopHere p 9 s
  else
    ((s.w .PT_POS_IP p ip).w .PT_POS_IMODE p 1).onPt p (fun x => { x with needFlow := true, chain := chain })

/-! ## Deferred jumps (R119) -/

/-- A condition takes effect at a later boundary than the first it occurred before, or a jump is deferred (R119). -/
def deferred (p : Nat) (s : State) : State := (s.setF .PT_RUN_DEFER p).inc .PT_RUN_DEFER_CNT p

/-- A jump becomes pending, or competes with the one that is pending (R119). -/
def pendJump (p target e order : Nat) (s : State) : State :=
  let q : Deferred := { target := target, at' := e, order := order }
  let s := deferred p s
  match (s.pt p).defer with
  | none => showStacks p (s.onPt p (fun x => { x with defer := some q }))
  | some o =>
    let s := s.setF .PT_RUN_DROP p
    if e < o.at' || (e = o.at' && order < o.order) then showStacks p (s.onPt p (fun x => { x with defer := some q })) else s

/-- A CJUMP segment ends by line 7 at a boundary of core cycle b: an event that did not count makes a jump pending; a FAIL
source goes on taking the segment's own vectors (R119). -/
def endCjump (p b : Nat) (s : State) : State :=
  let e := s.cur p
  let x := s.pt p
  let cond := (s.jumpCond p).getD (0, 0)
  if segAction e != ACJUMP then s
  else
    match x.latch with
    | some c => if cond.1 == C_FAIL || c < b then pendJump p (segTarget e) c x.order s else s
    | none =>
      if cond.1 == C_FAIL then
        s.onPt p (fun x => { x with late := x.late ++ [{ target := segTarget e, fmask := cond.2, firstVec := x.segFirstVec
                                                         lastVec := x.vec - 1, order := x.order }] })
      else s

/-! ## Boundaries (R114) -/

/-- What follows a pass by lines 3 to 7 of Table SEQ-3, or within a WAIT (R124). -/
inductive Follow where
  | again
  | waitPass
  | first (k : Nat)
  | flow (ip chain : Nat)
deriving DecidableEq, Repr

/-- The choice, and the core cycle of the event of the condition that takes effect. -/
def State.follow (s : State) (p b : Nat) : Follow × Option Nat :=
  let x := s.pt p
  let e := s.cur p
  match x.waiting with
  | some w => if counts w.latch b then (.flow w.ip 1, w.latch) else (.waitPass, none)
  | none =>
    if segAction e == ACJUMP && counts x.latch b then (.first (segTarget e), x.latch)
    else if s.curPass p < segRepeat e then (.again, none)
    else if segFlow e then (.flow (segFlowPc e) 0, none)
    else if segAction e == AJUMP then (.first (segTarget e), none)
    else (.first (s.curSeg p + 1), none)

/-- A WAIT whose passes run out at this boundary without its condition (R125). -/
def State.waitOut (s : State) (p b : Nat) : Bool :=
  match (s.pt p).waiting with
  | some w => !counts w.latch b && !w.free && w.left ≤ 1
  | none => false

/-- Whether a pending jump takes effect at a boundary of core cycle b (R119). -/
def State.jumpDue (s : State) (p b : Nat) : Bool :=
  match (s.pt p).defer with | some q => decide (q.at' + 24 ≤ b) | none => false

/-- The stop causes due at a boundary of core cycle b; the lowest code is the highest in Table SEQ-10. -/
def State.boundaryStop (s : State) (p b : Nat) : Option Nat :=
  let x := s.pt p
  let e := s.cur p
  let l := (match x.dueStop true b with | some c => [c] | none => []) ++
    (if s.waitOut p b then [0xA] else []) ++
    (if x.waiting.isNone && segAction e == ASTOP && segRepeat e ≤ s.curPass p then [0xE] else []) ++
    (if s.jumpDue p b then [] else match (s.follow p b).1 with | .flow ip _ => if s.progLen p ≤ ip then [9] else [] | _ => [])
  match l with
  | [] => none
  | a :: r => some (r.foldl min a)

/-- The next WAIT pass. -/
def takeWaitPass (p b : Nat) (s : State) : State :=
  beginPass p (s.curSeg p) (s.curPass p + 1) false b
    (s.onPt p (fun x => { x with waiting := x.waiting.map (fun (w : WaitPlay) => { w with left := w.left - 1 }) }))

/-- Apply what follows a pass. -/
def applyFollow (p b : Nat) (f : Follow) (ev : Option Nat) (s : State) : State :=
  let s := match ev with | some e => if e < (s.pt p).lastB then deferred p s else s | none => s
  match f with
  | .again => beginPass p (s.curSeg p) (s.curPass p + 1) false b s
  | .waitPass => takeWaitPass p b s
  | .first k => beginSeg p k b ((if ev.isNone then endCjump p b s else s).onPt p (fun x => { x with latch := none }))
  | .flow ip chain => continueAt p ip chain (s.onPt p (fun x => { x with waiting := none, latch := none }))

/-- A halt keeps the entry and pass that would have followed and discards the latches (R132). -/
def keepResume (p b : Nat) (s : State) : State :=
  let k := s.curSeg p
  let n := s.curPass p
  let s := match (s.follow p b).1 with
    | .again => s.onPt p (fun x => { x with resume := some ({ seg := k, pass := n + 1 } : ResumeAt) })
    | .waitPass => s.onPt p (fun x => { x with
        resume := some ({ seg := k, pass := n + 1 } : ResumeAt), waiting := x.waiting.map (fun (w : WaitPlay) => { w with left := w.left - 1 }) })
    | .first t => s.onPt p (fun x => { x with resume := some ({ seg := s.skipZero p 17 t } : ResumeAt) })
    | .flow ip c => (s.w .PT_POS_IP p ip).onPt p (fun x => { x with resume := some ({ seg := k, flow := true } : ResumeAt), chain := c, waiting := none })
  s.onPt p (fun x => { x with
    latch := none, late := [], loops := x.loops.map (fun (f : LoopFrame) => { f with latch := none })
    waiting := x.waiting.map (fun (w : WaitPlay) => { w with latch := none }) })

/-- A pending jump is taken: both stacks empty, and pass 1 of its target (R119, R120). -/
def takeJump (p target b : Nat) (s : State) : State :=
  beginSeg p target b (s.onPt p (fun x => { x with loops := [], calls := [], waiting := none, defer := none }))

/-- The QUIET steps of a boundary that ends a pass of a QUIET segment (R238). -/
def quieted (p : Nat) (s : State) : State := if segQuiet (s.cur p) then quietStep p s else s

/-- The end of a pass is a boundary (Table SEQ-3). -/
def boundary (p : Nat) (s : State) : State :=
  let x := s.pt p
  if s.pstate p != RUNNING || !x.atEnd || x.needFlow || !s.reached p x.next then s
  else
    let b := (s.cycleOf p x.next).getD s.now
    let s := quieted p s
    match s.boundaryStop p b with
    | some c => stopHere p c (if c = 0xF then keepResume p b s else s)
    | none =>
      match x.defer with
      | some q => if q.at' + 24 ≤ b then takeJump p q.target b s else applyFollow p b (s.follow p b).1 (s.follow p b).2 s
      | none => applyFollow p b (s.follow p b).1 (s.follow p b).2 s

def execBoundary (p : Fin 32) (s : State) : Out := .next (boundary p.val s)

/-! ## Flow instructions (R124, R125) -/

/-- The instruction that runs next at the present boundary, where the flow program is to continue. -/
def State.flowAt (s : State) (p : Nat) : Option Nat :=
  let x := s.pt p
  if s.pstate p == RUNNING && x.needFlow && s.reached p x.next then x.prog[s.r .PT_POS_IP p]? else none

/-- The kinds of flow instructions: LOOP BEGIN 0, LOOP END 1, CALL 2, RET 3, WAIT 4, SETFLAG 5. -/
def finKind (i : Nat) : Nat := if finOp i = 0 then b2n (finEnd i) else finOp i + 1

/-- Run an instruction of a kind; the ninth since the last pass stops the pitch. -/
def flowRun (p kind : Nat) (body : Nat → Nat → State → State) (s : State) : State :=
  match s.flowAt p with
  | none => s
  | some i =>
    if finKind i != kind then s
    else if 8 ≤ (s.pt p).chain then stopHere p 9 s
    else
      let b := (s.cycleOf p (s.pt p).next).getD s.now
      body i b (s.onPt p (fun x => { x with chain := x.chain + 1 }))

/-- The program goes on at the next instruction. -/
def flowNext (p : Nat) (s : State) : State := continueAt p (s.r .PT_POS_IP p + 1) (s.pt p).chain s

/-- LOOP BEGIN. -/
def loopBegin (p : Nat) (i : Nat) (b : Nat) (s : State) : State :=
  if 16 ≤ (s.pt p).loops.length then stopHere p 8 s
  else
    beginSeg p (finSeg i) b (s.onPt p (fun x => { x with
      loops := { seg := finSeg i, count := finCount i, free := finCount i == 0, csrc := finCsrc i, csel := finCsel i
                 firstVec := x.vec } :: x.loops }))

/-- LOOP_BEGIN as the flow instruction of a boundary (R124). -/
def execLoopBegin (p : Fin 32) (s : State) : Out := .next (flowRun p 0 (loopBegin p) s)

/-- LOOP END. -/
def loopEnd (p : Nat) (_ : Nat) (b : Nat) (s : State) : State :=
  match (s.pt p).loops with
  | [] => stopHere p 8 s
  | f :: r =>
    let n := f.count - 1
    if counts f.latch b then
      let s := match f.latch with | some e => if e < (s.pt p).lastB then deferred p s else s | none => s
      flowNext p (showStacks p (s.onPt p (fun x => { x with loops := r })))
    else if !f.free && n = 0 then flowNext p (showStacks p (s.onPt p (fun x => { x with loops := r })))
    else beginSeg p f.seg b (s.onPt p (fun x => { x with loops := (if f.free then f else { f with count := n }) :: r }))

/-- LOOP_END as the flow instruction of a boundary (R124). -/
def execLoopEnd (p : Fin 32) (s : State) : Out := .next (flowRun p 1 (loopEnd p) s)

/-- CALL. -/
def callSeg (p : Nat) (i : Nat) (b : Nat) (s : State) : State :=
  if 16 ≤ (s.pt p).calls.length then stopHere p 8 s
  else beginSeg p (finSeg i) b (s.onPt p (fun x => { x with calls := (s.r .PT_POS_IP p + 1) :: x.calls }))

/-- CALL as the flow instruction of a boundary (R124). -/
def execCall (p : Fin 32) (s : State) : Out := .next (flowRun p 2 (callSeg p) s)

/-- RET. -/
def retSeg (p : Nat) (i : Nat) (b : Nat) (s : State) : State :=
  match (s.pt p).calls with
  | a :: r => continueAt p a (s.pt p).chain (showStacks p (s.onPt p (fun x => { x with calls := r })))
  | [] => beginSeg p (finSeg i) b s

/-- RET as the flow instruction of a boundary (R124). -/
def execRet (p : Fin 32) (s : State) : Out := .next (flowRun p 3 (retSeg p) s)

/-- WAIT: its passes ignore the segment's REPEAT, ACTION and FLOW. The next instruction's address may lie beyond the 10 bits of
PT_POS.IP, where the program then stops (R125). -/
def waitSeg (p : Nat) (i : Nat) (b : Nat) (s : State) : State :=
  beginPass p (finSeg i) 1 true b ((s.w .PT_POS_IP p (s.r .PT_POS_IP p + 1)).onPt p (fun x => { x with
    waiting := some { seg := finSeg i, left := finCount i, free := finCount i == 0, csrc := finCsrc i, csel := finCsel i
                      firstVec := x.vec, ip := s.r .PT_POS_IP p + 1 } }))

/-- WAIT as the flow instruction of a boundary (R124). -/
def execWait (p : Fin 32) (s : State) : Out := .next (flowRun p 4 (waitSeg p) s)

/-- SETFLAG. -/
def setflag (p : Nat) (i : Nat) (_ : Nat) (s : State) : State :=
  let m := 2 ^ finCsel i
  flowNext p (if bit i 36 then setFlags p m 0 s else setFlags p 0 m s)

/-- SETFLAG as the flow instruction of a boundary (R124). -/
def execSetflag (p : Fin 32) (s : State) : Out := .next (flowRun p 5 (setflag p) s)

/-! ## Markers (R126 to R128) -/

/-- The marker bits of vector j of a pass (R126). -/
def State.marksOf (s : State) (p j : Nat) : Nat :=
  let e := s.cur p
  let on := match segMmode e with
    | 0 => j == 0 && (s.pt p).firstPass
    | 1 => j == 0
    | 2 => true
    | _ => j == segMat e
  if on then segMark e else 0

/-- The edge-clock cycle of a phase. -/
def State.edgeCycle (s : State) (p phi : Nat) : Nat := ((s.timeOf p phi).getD 0).toNat / 65536

/-- Marker edges whose core cycle has come take effect; a pulse lasts WIDTH edge-clock cycles from its start (R127). -/
def markEdges (n : Nat) : List (Nat × Bool) → State → State
  | [], s => s
  | (phi, lv) :: r, s =>
    let p := s.r .MK_ROUTE_PITCH 0 n
    if !s.reached p phi then s
    else
      let x := tget {} s.mark n
      let x := { x with q := r, active := lv
                        until' := if lv && s.rb .MK_ROUTE_FORM 0 n then max x.until' (s.edgeCycle p phi + s.r .MK_ROUTE_WIDTH 0 n) else x.until' }
      markEdges n r { s with mark := tset {} s.mark n x }
def settleMark (n : Nat) (s : State) : State := markEdges n (tget {} s.mark n).q s

/-- A vector with marker bits m starts at a phase: each output of the pitch gets its edge (R127). -/
def markVector (p phi m : Nat) (s : State) : State :=
  forAll ((upTo 8).filter (fun n => s.rb .MK_ROUTE_EN 0 n && s.r .MK_ROUTE_PITCH 0 n == p)) (fun n t =>
    let t := settleMark n t
    let x := tget {} t.mark n
    let dest := phAdd phi (t.r .MK_OFF_OFFSET 0 n)
    let up := match x.q.getLast? with | some q => q.2 | none => x.active
    let q := if m.testBit (t.r .MK_ROUTE_BIT 0 n) then x.q ++ [(dest, true)]
      else if !t.rb .MK_ROUTE_FORM 0 n && up then x.q ++ [(dest, false)] else x.q
    { t with mark := tset {} t.mark n { x with q := q } }) s

/-- MARKn at its contacts (R127, R128, R470): its active level by POL, inactive while the output is disabled, 0 while a reset holds the
outputs. -/
def State.markPin (s : State) (n : Nat) : Bool :=
  !s.pwr.porstLow && ((s.rb .MK_ROUTE_EN 0 n && (tget {} s.mark n).active) != s.rb .MK_ROUTE_POL 0 n)

/-- The end of a pulse (R127). -/
def execMarkPulseEnd (n : Fin 8) (s : State) : Out := .next <|
  let s := settleMark n.val s
  let x := tget {} s.mark n.val
  if s.rb .MK_ROUTE_FORM 0 n.val && x.active && x.until' ≤ 8 * s.now + 7 then
    { s with mark := tset {} s.mark n.val { x with active := false } }
  else s

/-! ## Vectors (R50, R52) -/

/-- The data of the next vector of every member group; the first absent one comes first. -/
def State.nextData (s : State) (p : Nat) : List (Nat × VData) :=
  (s.members p).map (fun g => (g, s.vdata p g (s.cur p) (s.pt p).j (s.tail p)))

def VData.ts : VData → Nat | .here _ t => t | .absent _ => 0
def VData.row : VData → Nat | .here r _ => r | .absent _ => 0
def VData.cause : VData → Option Nat | .absent c => some c | .here _ _ => none

/-- One group takes its row and its timing set; an invalid set in a slave fails the vector (R52). -/
def vectorGroup (p g v phi row ts : Nat) (s : State) : State :=
  match s.validSet g ts with
  | some z => forAll (upTo 32) (fun i t => vectorChan p (32 * g + i) (bits row (4 * i + 3) (4 * i)) v phi ts (some (tget {} z.ents i)) t) s
  | none =>
    event EV_TSET_INVALID [(5, p), (5, g), (8, ts), (64, v)]
      (forAll (upTo 32) (fun i t => vectorChan p (32 * g + i) (bits row (4 * i + 3) (4 * i)) v phi ts none t) s)

/-- The next vector of a pitch with a valid leader's set of a length: symbols, marks, counters, gates, and the place after it. A stop in
the middle of a stream row leaves TAIL at the row, since the device has not read it for the last time; the next start takes its segment
from vector 0 of that row (R100; the spec does not speak of the stop, log entry 90). -/
def vectorGo (p len : Nat) (l : List (Nat × VData)) (s : State) : State :=
  let x := s.pt p
  let v := x.vec
  let phi := x.next
  let e := s.cur p
  let s := driftCheck p (onCyc (fun y => { y with vec0 := note0 y.vec0 p v }) s)
  let s := l.foldl (fun t (g, d) => vectorGroup p g v phi d.row d.ts t) s
  let m := s.marksOf p x.j
  let i : VecInfo := { vec := v, phase := phi, endPhase := phAdd phi len, cycle := (s.cycleOf p phi).getD s.now
                       time := (s.timeOf p phi).getD ((s.now * ETU : Nat) : Int), seg := s.curSeg p, pass := s.curPass p, marks := m, tags := b2n (s.drifts p)
                       ts := l.map (fun (g, d) => (g, d.ts)) }
  let s := forAll (maskBits 4 m) (fun b t => countEvent p 1 b t) s
  let s := markVector p phi m (gateVec p phi (phAdd phi len) m s)
  let pos := s.rowNext p e x.j (s.tail p)
  let s := if segStream e then s.w .SR_TAIL_TAIL (s.r .PT_SUPPLY_RING p) pos else s
  let s := s.onPt p (fun x => { x with
    vec := v + 1, next := phAdd phi len, j := x.j + 1, atEnd := segLen e ≤ x.j + 1
    vecs := (x.vecs.filter (fun y => x.evalNext ≤ y.vec + 1024)) ++ [i] })
  supply p (holdOff p (s.onPt p (fun x => { x with plen := len })))

/-- The timing set that a vector's data select. -/
def dataSet : List (Nat × VData) → Nat
  | (_, d) :: _ => d.ts
  | [] => 0

/-- Whether a read of a group's pool granules leaves it without the data (R85, R104): a granule still uncorrectable after its refetch, or
an uncorrectable one of a ring page, which has no copy in VCM. -/
def poolLoses (x : PoolRead) (g : Nat) (stream : Bool) : Bool := x.group.val == g && (x.ecc == .stuck || (stream && x.ecc == .refetched))

/-- The pool reads of a vector that met an error (R85): a corrected one is counted, and each read that finds an uncorrectable granule is
an event of fault source 0x07; the one after a refetch that did not help is a second. -/
def poolReads (p : Nat) (l : List PoolRead) (s : State) : State :=
  l.foldl (fun t x =>
    if !(t.members p).contains x.group.val then t
    else match x.ecc with
      | .corrected => t.inc .POOL_ERR_CORR
      | .refetched => poolFault x.page t
      | .stuck => poolFault x.page (poolFault x.page t)) s

/-- The groups that lack the next vector's data, with what an under-run reports of it. -/
def State.lackNow (s : State) (p : Nat) (l : List (Nat × VData)) : List (Nat × Absent) :=
  let x := s.pt p
  let e := s.cur p
  l.filterMap (fun (g, d) => d.cause.map (fun c => (g, {
    vec := x.vec, cause := c, seg := s.curSeg p, block := segBlock e + (segVoff e + x.j) / 64
    page := if segStream e && c == 5 then s.rowFault p (s.tail p) else none })))

/-- A vector starts: with its data absent the pitch stops before it (R102); with an invalid set in the leader group it parks
(R52). -/
def vectorStart (p : Nat) (reads : List PoolRead) (s : State) : State :=
  let x := s.pt p
  let b := (s.cycleOf p x.next).getD s.now
  if s.pstate p != RUNNING || x.atEnd || x.needFlow || !s.reached p x.next || (x.dueStop false b).isSome then s
  else
    let s := poolReads p reads s
    let l := (s.nextData p).map (fun (g, d) => (g, if reads.any (fun r => poolLoses r g (segStream (s.cur p))) then VData.absent 5 else d))
    match s.lackNow p l with
    | [] =>
      let ts := dataSet l
      (match s.validSet p ts with
        | none => parkPitch 7 2 p (event EV_TSET_INVALID [(5, p), (5, p), (8, ts), (64, x.vec)] s)
        | some z => vectorGo p z.len l s)
    | q :: r => fixStop p (absentCause (q :: r)) (declareAbsent p (q :: r) s)

def execVectorStart (p : Fin 32) (reads : List PoolRead) (s : State) : Out := .next (settle (vectorStart p.val reads s))

/-! ## Start (R129, R130, R312) -/

/-- The beats from the present one to a beat, by the signed difference modulo 2^48 (R12, R14). -/
def State.beatsTo (s : State) (n : Nat) : Int := sint 48 (n + 2 ^ 48 - s.guy.beat)

/-- The core cycle in which a beat begins. -/
def State.beatCycle (s : State) (n : Nat) : Nat := ((s.now : Int) + 8 * s.beatsTo n - s.guy.sub).toNat

/-- Whether a beat begins less than 64 core cycles from now. -/
def State.tooLate (s : State) (n : Nat) : Bool := decide (8 * s.beatsTo n < (s.guy.sub : Int) + 64)

/-- The beat of peg k (R299). -/
def State.pegBeat (s : State) (k : Nat) : Nat := k * 2 ^ (10 + s.r .GY_CFG_PEG_LOG) % 2 ^ 48

/-- The first beat that begins at least 64 core cycles from now, counted modulo 2^48 (R14). -/
def State.soonBeat (s : State) : Nat := (s.guy.beat + ceilDiv (64 + s.guy.sub) 8) % 2 ^ 48

/-- The core cycle in which that beat begins: the start instant of IMMEDIATE mode (R130). -/
def State.soonCycle (s : State) : Nat := s.now + 8 * ceilDiv (64 + s.guy.sub) 8 - s.guy.sub

/-- Whether a pitch's start breaks line 4 of Table SEQ-8; `seg` is none with RESUME. -/
def State.startRange (s : State) (p : Nat) (seg : Option Nat) : Bool :=
  let n := s.r .SQ_TBL_LEN_COUNT p
  let tbl := (upTo n).map (s.seg p)
  let prog := (s.pt p).prog
  (match seg with | some k => n ≤ k | none => false) ||
    tbl.any (fun e => segFlow e && prog.length ≤ segFlowPc e) ||
    prog.any (fun i => finOp i < 4 && !(finOp i == 0 && finEnd i) && n ≤ finSeg i) ||
    (match s.pMinLead p with
      | none => true
      | some q =>
        let lim := min (4 * q) (2 ^ 24)
        (s.members p).any (fun g => (s.validSets g).any (fun z => z.len < s.pMin p || (g != p && lim ≤ z.maxUsed))) ||
          tbl.any (fun e => segRepeat e != 0 && (segLen e < 64 || segLen e * q * 2 ^ 24 < 393216 * s.rhoMax p)) ||
          (upTo 8).any (fun i => s.rb .MK_ROUTE_EN 0 i && s.r .MK_ROUTE_PITCH 0 i == p && lim ≤ s.r .MK_OFF_OFFSET 0 i))

/-- Whether a tracker lets its pitch start (R25, R37). -/
def State.trackOk (s : State) (p : Nat) : Bool := s.r .PT_STATUS_TRK p == 2 && (!s.isGref p || s.grefLocked)

/-- Whether a pitch lacks its full lead reserve, or 3 µs of committed stream rows (R91). -/
def State.leadShort (s : State) (p : Nat) : Bool :=
  (s.members p).any (fun g => !(s.gp g).leadFull) ||
    (s.rb .PT_SUPPLY_STREAM p && 64 * s.rowsAhead p < s.vecsIn p LEAD_BEATS)

/-- Whether every start is refused, or one of Guyline pitches (line 5): PARK_N, an unacknowledged shutdown, the throttle stage,
EV_PEG_SHIFT, TIME.ALIGN. -/
def State.startRefused (s : State) (l : List Nat) (peg : Bool) : Bool :=
  s.pwr.parkNLow || s.now < s.pwr.parkNRel || s.rb .THM_STATE_SHUT_PEND || 2 ≤ s.r .THM_STATE_STAGE ||
    ((peg || l.any s.isGref) && (s.rb .GY_STATUS_SHIFT_HOLD || s.rb .GY_STATUS_ALIGN_ARMED))

/-- The checks of Table SEQ-8; a pitch that a waiting coat touches gives ST_BUSY (R346). -/
def State.startChecks (s : State) (m : Nat) (peg : Option Nat) (seg : Option Nat) : List (Bool × Nat) :=
  let l := maskBits 32 m
  [(m == 0 || l.any (fun p => s.r .PT_MEMBERS_MASK p == 0), ST_RANGE),
    (l.any (fun p => !s.idle p || !s.rb .PT_SUPPLY_PREPARED p || s.r .SQ_TBL_LEN_COUNT p == 0 || !s.trackOk p), ST_STATE),
    (seg.isNone && l.any (fun p => !s.rb .PT_RUN_RESUMABLE p), ST_STATE),
    (l.any (fun p => s.startRange p seg), ST_RANGE),
    (s.startRefused l peg.isSome, ST_REFUSED),
    (s.mbox.waits.any (fun w => w.touched &&& m != 0), ST_BUSY),
    (l.any s.leadShort, ST_BUSY),
    ((match peg with | some k => s.tooLate (s.pegBeat k) | none => false), ST_TIMEOUT)]

/-- A start that is too late: no pitch arms (R312). -/
def startLate (m k : Nat) (s : State) : State :=
  event EV_START_LATE [(32, m), (40, k)] (forAll (maskBits 32 m) (fun p t => t.w .PT_RUN_STOP_CAUSE p 0x10) s)

/-- Every site of a pitch loses its fault, and its data are zero (R372). -/
def clearFaults (p : Nat) (s : State) : State :=
  { s with disp := { s.disp with cores := s.disp.cores.map (fun e => (e.1, { e.2 with
      prog := e.2.prog.map (fun f => { f with sites := f.sites.map (fun z => if z.pitch = p then { z with faulted := none } else z) }) })) } }

/-- Every pitch of a mask arms for a common start instant (R129, R130). -/
def armPitches (m : Nat) (peg seg : Option Nat) (s : State) : State :=
  let s := if (maskBits 32 m).any s.isGref then cancelDrift s else s
  let n := match peg with | some k => s.pegBeat k | none => s.soonBeat
  let c := match peg with | some k => s.beatCycle (s.pegBeat k) | none => s.soonCycle
  forAll (maskBits 32 m) (fun p t => (t.w .PT_RUN_STATE p ARMED).onPt p (fun x => { x with
    trk := { x.trk with startEdge := none }
    armed := some { beat := n, atCycle := c, seg := seg.getD 0, resume := seg.isNone } })) s

/-- An accepted start stands once its core cycle ends: the resume points of its pitches go unless it resumes, their sites lose their
faults, they take the full update of their calibration, and the start counts (R132, R237, R372). -/
def confirmPitches (m : Nat) (resume : Bool) (s : State) : State :=
  forAll (maskBits 32 m) (fun p t =>
    let t := if resume then t else (t.w .PT_RUN_RESUMABLE p 0).onPt p (fun x => { x with resume := none })
    applyPitch p ((clearFaults p t).onPt p (fun x => { x with starts := x.starts + 1 }))) s

/-- A start: its status where it fails, and where it is accepted its note `x` of the core cycle (R129). -/
def startPitches (m : Nat) (peg seg : Option Nat) (x : StartNow) (s : State) : State × Option Nat :=
  match firstBad (s.startChecks m peg seg) with
  | none =>
    (onCyc (fun c => { c with starts := c.starts ++
        [{ x with mask := m, resume := seg.isNone, guyline := peg.isSome || (maskBits 32 m).any s.isGref }] })
      (armPitches m peg seg s), none)
  | some 6 => (startLate m (peg.getD 0) s, some ST_TIMEOUT)
  | some st => (s, some st)

/-- An argument that may name a number or, as all ones, something else. -/
def orNone (x : Nat) : Option Nat := if x = ALL1 then none else some x

/-- SEQ.START (R129); an accepted one completes when its core cycle ends (R308, R424, R425). ARG0 the mask, ARG1 MODE (0 IMMEDIATE, 1 PEG), ARG2 the peg number (0 with IMMEDIATE), ARG3 the start
segment or all ones for RESUME. -/
def seqStart (d : Desc) (s : State) : State := runCmd 0x0605 d
  [args d 4, mask 32 d.a0, choice 2 d.a1, bad (d.a1 == 0 && d.a2 != 0), field 40 d.a2, s.psOff d.a0]
  (fun s =>
    match startPitches d.a0 (if d.a1 = 1 then some d.a2 else none) (orNone d.a3) { d := some d } s with
    | (t, some st) => (t, .done st)
    | (t, none) => ({ t with jobs := t.jobs ++ [.start d] }, .later)) s
def execSeqStart (d : Desc) (s : State) : Out := .next (seqStart d s)

/-- The deadline of a system start passes before its command was carried out (R312). -/
def execStartDeadline (d : Desc) (s : State) : Out := .next <|
  if s.mbox.taken.contains (d, 0x0605) && d.a1 == 1 && s.tooLate (s.pegBeat d.a2) then seqStart d s else s

/-- The start phase of an armed pitch once its start instant has come: the armed beat, or in follow mode the first accepted
edge at or after it (R25, R130). -/
def State.startNow (s : State) (p : Nat) : Option Nat :=
  match (s.pt p).armed with
  | none => none
  | some a =>
    if s.pstate p != ARMED then none
    else if s.isGref p then
      (if 0 ≤ phDiff (s.guy.beat * 65536) (a.beat * 65536) then some (a.beat * 65536 % 2 ^ 64) else none)
    else if s.r .PT_STATUS_TRK p == 2 then (s.pt p).trk.startEdge
    else none

/-- What a start clears beside the stacks (R43, R45, R64, R158, R160, R169). -/
def startClear (p phi : Nat) (s : State) : State :=
  let s := onCyc (fun y => { y with vec0 := note0 y.vec0 p (s.pt p).vec }) s
  let s := forAll (s.pchans p) startChan s
  let s := forAll (s.members p) (fun g t =>
    let t := (t.w .CU_RUNFAIL_MAP g 0).onCu g (fun u => { u with newest := [], stripQ := [] })
    if t.rb .CU_CFG_CLR_ON_START g then forAll (chansOf g) clearFails t else t) s
  (s.w .TR_STATE_STAGE p 0).onPt p (fun x => { x with
    next := phi, vec := 0, segFirstVec := 0, vecs := [], evalNext := 0
    acq := if x.acq.atStart then { x.acq with atStart := false, openFrom := 0 } else x.acq
    badSym := false, leadLow := false, stops := [], late := [], latch := none, trig := {}, armed := none, issued := none, cjump := none
    loops := x.loops.map (fun (f : LoopFrame) => { f with firstVec := 0, latch := none })
    waiting := x.waiting.map (fun (w : WaitPlay) => { w with firstVec := 0, latch := none }) })

/-- The stacks, the pending jump and the kept place are empty (R130). -/
def emptyStacks (p : Nat) (s : State) : State :=
  s.onPt p (fun x => { x with loops := [], calls := [], waiting := none, defer := none, resume := none, order := 0 })

/-- Where the run begins (R130, R132): the pass that the sequencer handed over, the start segment with empty stacks, or the kept place; a
kept jump is taken first. -/
def startPlace (p b : Nat) (a : Armed) (s : State) : State :=
  match a.issued with
  | some i =>
    beginPlace p i.idx i.pass (i.pass == 1) b (some i) (if a.resume then (s.w .PT_RUN_RESUMABLE p 0).onPt p (fun x => { x with resume := none })
      else emptyStacks p s)
  | none =>
  if !a.resume then beginSeg p a.seg b (emptyStacks p s)
  else
    let x := s.pt p
    let s := (s.w .PT_RUN_RESUMABLE p 0).onPt p (fun x => { x with resume := none })
    match x.defer, x.resume with
    | some q, _ => takeJump p q.target b s
    | none, some z =>
      if z.flow then (s.w .PT_POS_IMODE p 1).onPt p (fun x => { x with needFlow := true, atEnd := true, lastB := b })
      else beginPass p z.seg z.pass (z.pass == 1) b s
    | none, none => s

/-- A start refills the lead of a group from its own start point before it runs (R91). -/
def startLead (p g : Nat) (s : State) : State :=
  fillLead p (s.front p) g (s.onGp g (fun x => { x with low := false, met := false }))

/-- The start instant of an armed pitch (R130). -/
def startInstant (p : Nat) (s : State) : State :=
  match s.startNow p, (s.pt p).armed with
  | some phi, some a =>
    let s := startClear p phi (s.w .PT_RUN_STATE p RUNNING)
    let b := (s.cycleOf p phi).getD s.now
    let s := startPlace p b a s
    let s := s.onPt p (fun x => { x with plen := (s.pMinLead p).getD 1024 })
    let s := supply p (forAll (s.members p) (startLead p) s)
    event EV_PITCH_START [(5, p), (64, phi)] s
  | _, _ => s
def execStartInstant (p : Fin 32) (s : State) : Out := .next (startInstant p.val s)

/-! ## Stops (R131, R133, R134) -/

/-- The effect of SEQ.STOP: an armed start is abandoned, and a running pitch stops at the first vector that begins 32 core cycles
later. -/
def stopRequest (p : Nat) (s : State) : State :=
  if s.pstate p = ARMED then settle (abandon p 0xD s)
  else if s.pstate p = RUNNING then planStop p { cause := 0xD, when' := .vector (s.now + 32) } s
  else s

/-- SEQ.STOP (R131). ARG0 the pitch. -/
def execSeqStop (d : Desc) (s : State) : Out := .next <| runCmd 0x0606 d [args d 1, unit 32 d.a0, s.pOff d.a0]
  (fun s => (stopRequest d.a0 s, .done ST_OK)) s

/-- The stop instant of a planned stop within a pass is reached: the last vector is fixed (R133, R134). -/
def execStopInstant (p : Fin 32) (s : State) : Out := .next <|
  let p := p.val
  let x := s.pt p
  if s.pstate p != RUNNING || x.atEnd || x.needFlow || !s.reached p x.next then s
  else
    match x.dueStop false ((s.cycleOf p x.next).getD s.now) with
    | some c => fixStop p c s
    | none => s

/-- Whether a marker output has no edge of an issued vector to come, and no pulse in course (R127, R128). -/
def State.markDone (s : State) (n : Nat) : Bool :=
  let x := tget {} s.mark n
  x.q.isEmpty && !(s.rb .MK_ROUTE_FORM 0 n && x.active && decide (8 * s.now + 7 < x.until'))

/-- Whether the edges, markers and judgements of the issued vectors are complete (R133). -/
def State.drainedPitch (s : State) (p : Nat) : Bool :=
  (s.pt p).vec ≤ (s.pt p).evalNext &&
  (s.pchans p).all (fun c => let x := s.ch c; x.drvQ.isEmpty && x.denQ.isEmpty && x.strobes.isEmpty && x.judged.isEmpty) &&
  (upTo 8).all (fun n => s.r .MK_ROUTE_PITCH 0 n != p || s.markDone n)

def execStoppingComplete (p : Fin 32) (s : State) : Out := .next <|
  let s := forAll (upTo 8) settleMark s
  if s.pstate p.val == STOPPING && s.drainedPitch p.val then settle (finishStop p.val false s) else s

/-! ## Reference events (R24, R30, R34 to R37) -/

/-- A stamp of a followed reference (R24, R30): of GREF, its rising edges only; of a TDC, at the time that its bins and offset
give (R191). -/
def execRefStamp (src : RefSrc) (rising : Bool) (coarse : Nat) (fine : Fin 1024) (s : State) : Out := .next <|
  match src with
  | .gref => if rising then settle (grefStamp (coarse * 65536 + 64 * fine.val) s) else s
  | .tdc n => settle (sourceStamp n.val rising (s.stampTime n.val coarse fine.val) coarse s)
def execRefMissingTimeout (p : Fin 32) (s : State) : Out := .next (settle (refMissing p.val s))
def execHoldLimit (p : Fin 32) (s : State) : Out := .next (settle (holdLimit p.val s))
def execGrefTimeout (s : State) : Out := .next (settle (grefTimeout s))
def execGrefFreqCheck (ppm : Int) (s : State) : Out := .next (settle (grefCheck ppm s))

end Sys2Proof.Machine
end

