-- ==== Sys2Proof/Machine/Judge.lean ====
section
/-! DEFINITION. Edges, strobes and judgements reaching the sequencer and the capture units, acquisition events, triggers from
outside, and the park contacts (R53, R57, R63, R65, R68, R117, R119, R121, R122, R157 to R160, R169 to R188). -/

namespace Sys2Proof.Machine

/-- Whether a pitch issues or completes vectors. -/
def State.live (s : State) (p : Nat) : Bool := s.pstate p == RUNNING || s.pstate p == STOPPING

/-- An edge reaches its placed time (R57). -/
def execEdgePlacement (c : Fin 1024) (sig : Sig) (s : State) : Out := .next <|
  match s.pitchOf (groupOf c.val) with
  | some p => if s.live p then placeEdge p c.val sig s else s
  | none => s

/-- A channel takes the strobe of its oldest vector from its two returns as they stand at the contacts (R53, R54). -/
def execStrobeSample (c : Fin 1024) (cmh cml : Wave) (s : State) : Out := .next <|
  match s.pitchOf (groupOf c.val) with
  | some p => if s.live p then takeStrobe p c.val cmh cml s else s
  | none => s

/-! ## Judgements (R117 to R121, R158 to R160) -/

/-- The first-fail record of a judgement (Table CAP-1). -/
def State.failRec (s : State) (p : Nat) (j : Judged) : Nat :=
  let i := s.vinfo p j.vec
  pack [(64, j.vec), (48, i.phase / 65536), (8, j.ts), (4, j.tags ||| b2n (s.holdTag p i.phase)), (2, j.raw), (1, b2n j.win),
    (1, 1), (20, i.seg), (12, 0), (32, i.pass)]

/-- A FAIL counts in the channel's fail counter, its first-fail record and the run's map (R158 to R160). -/
def countFail (p c : Nat) (j : Judged) (s : State) : State :=
  let x := s.ch c
  let full := 2 ^ 48 - 1 ≤ x.failCnt + 1
  let r := s.failRec p j
  let i := s.vinfo p j.vec
  let s := onCyc (fun y => { y with fail0 := note0 y.fail0 c x.failCnt }) (if full then s.setF .CH_FAILCNT_HI_FC_SAT c else s)
  let s := s.onCh c (fun x => { x with
    failCnt := satAdd 48 x.failCnt 1, firstFail := if x.firstFail = 0 then r else x.firstFail
    firstPhase := if x.firstFail = 0 then i.phase else x.firstPhase, firstCycle := if x.firstFail = 0 then i.cycle else x.firstCycle })
  let s := onCyc (fun y =>
    let f := tget {} y.fails c
    { y with fails := tset {} y.fails c (if f.n = 0 then { n := 1, rec' := r, phase := i.phase, cycle := i.cycle } else { f with n := f.n + 1 }) }) s
  let g := groupOf c
  s.w .CU_RUNFAIL_MAP g (s.r .CU_RUNFAIL_MAP g ||| 2 ^ (c % 32))

/-- Whether a channel counts for fail mask n (Table SEQ-4). -/
def State.inMask (s : State) (c n : Nat) : Bool := (s.r .SQ_FMASK_MASK (groupOf c) n).testBit (c % 32)

/-- Whether a vector has already been judged FAIL under a mask. -/
def State.failedUnder (s : State) (p v n : Nat) : Bool :=
  (s.pchans p).any (fun c => s.inMask c n && (s.ch c).resolved.any (fun j => j.vec == v && j.judge == .fail))

/-- A FAIL of vector v under mask n, resolved in core cycle cc, sets the latches of the constructs whose passes issued the
vector (R117), and late ones make their jump pending (R119). -/
def failEvent (p v n cc : Nat) (s : State) : State :=
  let q := s.jumpCond p
  let hit := fun (csrc csel first : Nat) => csrc == C_FAIL && csel == n && first ≤ v
  let s := s.onPt p (fun x => { x with
    latch := if x.waiting.isNone && q.any (fun c => hit c.1 c.2 x.segFirstVec) then setLatch cc x.latch else x.latch
    loops := x.loops.map (fun (f : LoopFrame) => if hit f.csrc f.csel f.firstVec then { f with latch := setLatch cc f.latch } else f)
    waiting := x.waiting.map (fun (w : WaitPlay) => if hit w.csrc w.csel w.firstVec then { w with latch := setLatch cc w.latch } else w) })
  let due := (s.pt p).late.filter (fun l => l.fmask == n && l.firstVec ≤ v && v ≤ l.lastVec)
  let s := s.onPt p (fun x => { x with late := x.late.filter (fun l => !due.contains l) })
  due.foldl (fun t l => pendJump p l.target cc l.order t) s

/-- The judgement of a channel's oldest judged vector resolves (R118). -/
def resolve (p c : Nat) (s : State) : State :=
  match (s.ch c).judged with
  | [] => s
  | j :: r =>
    if s.now < j.resolveAt then s
    else
      let fresh := (upTo 8).filter (fun n => s.inMask c n && !s.failedUnder p j.vec n)
      let s := s.onCh c (fun x => { x with judged := r, resolved := x.resolved ++ [j] })
      if j.judge != .fail then s
      else
        let s := countFail p c j s
        let s := forAll ((upTo 8).filter (s.inMask c)) (fun n t => if t.pstate p == RUNNING then failEvent p j.vec n j.resolveAt t else t) s
        forAll fresh (fun n t => countEvent p 2 n t) s
def execJudgementResolve (c : Fin 1024) (s : State) : Out := .next <|
  match s.pitchOf (groupOf c.val) with
  | some p => if s.live p then resolve p c.val s else s
  | none => s

/-! ## Evaluation (R157) -/

/-- Whether every channel of a pitch has resolved its next vector. -/
def State.evalReady (s : State) (p : Nat) : Bool :=
  let v := (s.pt p).evalNext
  s.live p && v < (s.pt p).vec && (s.pchans p).all (fun c => (s.judgedOf c v).isSome)

/-- CAP.DISARM's end vector is reached (R184). -/
def disarm (p : Nat) (s : State) : State :=
  match (s.acq p).disarmAt with
  | some c =>
    if c ≤ s.now && s.evalReady p then
      (if s.acqBusy p then endAcq p 32 s else s.onAcq p (fun a => { a with disarmAt := none }))
    else s
  | none => s
def execDisarmEnd (p : Fin 32) (s : State) : Out := .next (disarm p.val s)

/-- The tags of a group's results of vector v count for the run and the window (R180, R188). -/
def noteTags (p v g : Nat) (s : State) : State :=
  let l := maskBits 4 (s.vecTags p g v)
  s.onCu g (fun u => { u with newest := l.foldl (fun t b => tset 0 t b (v + 1)) u.newest })

/-- The capture units, the pattern trigger and the acquisition take the next vector (R157). -/
def evaluate (p : Nat) (s : State) : State :=
  if !s.evalReady p then s
  else
    let v := (s.pt p).evalNext
    let s := disarm p s
    let s := forAll (s.members p) (noteTags p v) s
    let (s, fired) := triggerVec p v s
    let s := acqVec p v fired s
    let s := forAll (s.pchans p) (fun c t => t.onCh c (fun x => { x with resolved := x.resolved.filter (fun j => v < j.vec) })) s
    s.onPt p (fun x => { x with evalNext := v + 1, evalAt := s.now, late := x.late.filter (fun l => v < l.lastVec) })
def execEvaluation (p : Fin 32) (s : State) : Out := .next (evaluate p.val s)

/-- The trigger stage has reached its TIMEOUT-th vector (R169). -/
def execTriggerTimeout (p : Fin 32) (s : State) : Out := .next <|
  if s.live p.val && s.rb .TR_CTL_EN p.val then trigTimeout p.val s else s

/-- A bus line's assertion ends (R172): spans that lie behind are dropped. -/
def execBusLineEnd (n : Fin 32) (s : State) : Out := .next
  { s with lines := tset [] s.lines n.val ((tget [] s.lines n.val).filter (fun q => s.now < q.2)) }

/-- The next vector to be evaluated opens the acquisition, once its open point has come (R177). -/
def execAcquisitionOpen (p : Fin 32) (s : State) : Out := .next <|
  if s.evalReady p.val then (tryOpen p.val (s.pt p.val).evalNext s).1 else s

/-- Re-arm (R182). -/
def execRearm (p : Fin 32) (s : State) : Out := .next <| if s.evalReady p.val then tryRearm p.val s else s

/-- A unit releases the records that are due, and a window whose records are released closes (R179, R185). -/
def execRecordRelease (g : Fin 32) (s : State) : Out := .next <|
  match s.pitchOf g.val with
  | some p => tryClose p (release p g.val s)
  | none => s

/-! ## XTRIG (R122) -/

/-- An accepted edge of XTRIG n becomes visible in core cycle c: conditions, counters and gates take it (R116, R121, R207). -/
def xtrigVisible (n c : Nat) (s : State) : State :=
  gateXtrig n c (forAll (upTo 32) (fun p t => countEvent p 3 n (condEvent p C_XTRIG n c t)) s)

/-- The accepted edges that become visible in the present core cycle. -/
def xtrigTick (s : State) : State :=
  forAll (upTo 8) (fun n t => if (tget {} t.xtrig n).visible.contains t.now then xtrigVisible n t.now t else t) s

/-- Whether an edge of a trigger input comes less than 8 ns after the last accepted one. -/
def Xtrig.tooSoon (x : Xtrig) (tPs : Nat) : Bool := match x.lastPs with | some a => decide (tPs < a + 8000) | none => false

/-- An edge of the filtered level: the active one is accepted unless it comes too soon, and becomes visible 6 core cycles after it
reached the contact. -/
def xtrigAccept (n tPs : Nat) (s : State) : State :=
  let x := tget {} s.xtrig n
  if x.tooSoon tPs then s
  else
    let c := tPs / 1000 + 6
    let x : Xtrig := { x with lastPs := some tPs, visible := x.visible.filter (fun y => s.now ≤ y + 2 ^ 20) ++ [c] }
    let s := { s with xtrig := tset {} s.xtrig n x }
    if c ≤ s.now then xtrigVisible n c s else s

/-- A level change at the contact of XTRIG n: filter, edge selection, rate, and 6 core cycles of latency. `tPs` is its time in ps, `durPs`
how long the new level lasts. A level shorter than 2 ns is ignored, so that the change back from it is no edge either. -/
def execXtrigEdge (n : Fin 8) (rising : Bool) (tPs durPs : Nat) (s : State) : Out := .next <|
  let n := n.val
  let x := tget {} s.xtrig n
  let set := fun (v : Bool) (s : State) => { s with xtrig := tset {} s.xtrig n { x with level := some v } }
  if x.level = some rising then s
  else if durPs < 2000 then (set (!rising) s).inc .XT_GLITCH_COUNT 0 n
  else
    let s := set rising s
    if rising == (s.r .XT_CFG_POL).testBit n then s else xtrigAccept n tPs s

/-! ## Park sources (R62 to R65, R68, R473) -/

/-- CH.PARK (R68). ARG0 the address of the channel mask. -/
def execChPark (d : Desc) (s : State) : Out := .next <| runCmd 0x0302 d [args d 1, reachD d d.a0 128]
  (fun s =>
    let l := chansIn (s.chanMask d d.a0)
    checked [s.rfault d d.a0 128, dis (l.any (fun c => !s.gEn (groupOf c)))] (settle (parkChans 4 l s), .done ST_OK) s) s

/-- PARK_N falls (R65): a low level shorter than 20 ns is only counted. -/
def execParkNAssert (lowNs : Nat) (s : State) : Out := .next <|
  if lowNs < 20 then s.inc .CH_PARKN_PARKN_GLITCH
  else settle (parkAll 2 { s with pwr := { s.pwr with parkNLow := true } })

/-- PARK_N is high and has been for `highNs`: pitches start again once it has been high for 1 µs (R64, R65). -/
def execParkNRelease (highNs : Nat) (s : State) : Out := .next
  { s with pwr := { s.pwr with parkNLow := false, parkNRel := s.now + (1000 - highNs) } }

end Sys2Proof.Machine
end

