-- ==== Sys2Proof/Machine/Microcode.lean ====
section
/-! DEFINITION. Sequencer microcode: words, interrupts, the primer store and its commands (R136 to R155). A row acts
where the store holds its word: patch RAM, primer store, or the mask ROM, whose content the spec does not print
(`Config.romWord`). `w.ecc` is how the store answered. -/

namespace Sys2Proof.Machine

/-! ## Registers (Table MIC-3) -/

/-- The visible set as the registers show it. -/
def State.vis (s : State) (g : Nat) : Vis :=
  { seg := s.r .PT_POS_SEG g, pass := s.r .PT_PASS_PASS g, ip := s.r .PT_POS_IP g, pend := s.r .PT_STACK_PEND_TARGET g
    ldep := s.r .PT_STACK_LOOP_DEPTH g, cdep := s.r .PT_STACK_CALL_DEPTH g, imode := s.rb .PT_POS_IMODE g
    pendv := s.rb .PT_RUN_PEND g, resumable := s.rb .PT_RUN_RESUMABLE g }

/-- Copy the shadows to the visible registers (R142). -/
def commitVis (g : Nat) (v : Vis) (s : State) : State :=
  let s := ((s.w .PT_POS_SEG g v.seg).w .PT_PASS_PASS g v.pass).w .PT_POS_IP g v.ip
  let s := ((s.w .PT_STACK_PEND_TARGET g v.pend).w .PT_STACK_LOOP_DEPTH g v.ldep).w .PT_STACK_CALL_DEPTH g v.cdep
  ((s.w .PT_POS_IMODE g (b2n v.imode)).w .PT_RUN_PEND g (b2n v.pendv)).w .PT_RUN_RESUMABLE g (b2n v.resumable)

/-- Read a register code. -/
def State.uReg (s : State) (g k : Nat) : Nat :=
  let x := (s.gp g).sq
  match k with
  | 0 => x.acc
  | 1 => x.t0
  | 2 => x.t1
  | 3 => x.t2
  | 4 => x.sh.seg
  | 5 => x.sh.pass
  | 6 => x.sh.ip
  | 7 => x.sh.pend
  | 8 => x.sh.ldep
  | 9 => x.sh.cdep
  | 10 => x.entIdx
  | 11 => s.r .PT_FLAGS_FLAG g
  | 12 => x.rtn
  | 13 => x.cmd
  | 14 => s.r .SQ_TBL_LEN_COUNT g
  | _ => 0

def onSh (g : Nat) (f : Vis → Vis) (s : State) : State := s.onSq g (fun x => { x with sh := f x.sh })

/-- Write a register code; a write to a read-only code is discarded. The registers are 32 bits wide, also those of the visible set; the
fields take their own widths at the commit. -/
def setReg (g k v : Nat) (s : State) : State :=
  let v := v % 2 ^ 32
  match k with
  | 0 => s.onSq g (fun x => { x with acc := v })
  | 1 => s.onSq g (fun x => { x with t0 := v })
  | 2 => s.onSq g (fun x => { x with t1 := v })
  | 3 => s.onSq g (fun x => { x with t2 := v })
  | 4 => onSh g (fun y => { y with seg := v }) s
  | 5 => onSh g (fun y => { y with pass := v }) s
  | 6 => onSh g (fun y => { y with ip := v }) s
  | 7 => onSh g (fun y => { y with pend := v }) s
  | _ => s

/-! ## Words (R138 to R145) -/

/-- Whether the sequencer of a group fetches words: in SVC mode unless a fault stopped it, in PRIMER mode while its program runs. -/
def State.fetches (s : State) (g : Nat) : Bool :=
  !s.halted && !(s.gp g).sq.stopped && (!s.rb .SQ_UCTL_UMODE g || s.rb .SQ_UCTL_URUN g)

/-- Where the next fetch reads (R136): the word at UPC of the primer store in PRIMER mode, of the patch RAM after patch code; a ROM
address that an enabled match register holds reads patch RAM word PADDR in its place. -/
def State.fetchAt (s : State) (g : Nat) : Nat × Bool :=
  let a := s.r .SQ_UPC_UPC g
  if s.rb .SQ_UCTL_UMODE g then (a, false)
  else if s.rb .SQ_UPC_UPATCH g then (a, true)
  else match ((upTo 64).map (fun i => s.r .SQ_MATCH_WORD g i)).find? (fun m => bit m 31 && bits m 13 0 == a) with
    | some m => (bits m 25 16, true)
    | none => (a, false)

/-- The word that the store holds there; a patch RAM or primer store word that no load wrote is 0. -/
def State.storeWord (s : State) (g : Nat) : Nat :=
  let (a, patch) := s.fetchAt g
  if s.rb .SQ_UCTL_UMODE g then tget 0 (s.gp g).sq.primer a
  else if patch then tget 0 (s.gp g).sq.patch a
  else Config.romWord a

/-- Whether the store's answer can be one of its kind (R138): SECDED in patch RAM and primer store, parity in ROM. -/
def State.eccFits (s : State) (g : Nat) (e : StoreEcc) : Bool :=
  let ram := s.rb .SQ_UCTL_UMODE g || (s.fetchAt g).2
  match e with
  | .clean => true
  | .romParity => !ram
  | _ => ram

/-- Whether a word of the store has the operation of a row and the fields of its operand (Table MIC-1). -/
def isWord (w : Micro) (opc v : Nat) : Bool :=
  bits v 20 16 == opc && bits v 7 0 == w.imm && bits v 11 8 == w.src && bits v 15 12 == w.dst && bits v 34 21 == w.next &&
    bits v 38 35 == w.cond && bit v 39 == w.int

/-- The sequencer executes a word of this operation and these fields next. -/
def State.supplies (s : State) (g opc : Nat) (w : Micro) : Bool :=
  s.fetches g && s.eccFits g w.ecc && isWord w opc (s.storeWord g)

/-- The fetch shows the address of the word in execution and its store (Table MIC-10). -/
def fetched (g : Nat) (s : State) : State := (s.w .SQ_UPC_UPC g (s.fetchAt g).1).w .SQ_UPC_UPATCH g (b2n (s.fetchAt g).2)

/-- A microcode fault (R138): fetching stops; the pitch that the sequencer leads parks, or EV_PRIMER_FAULT is raised. -/
def ufault (g cause : Nat) (s : State) : State :=
  let s := ((s.setF .SQ_USTAT_UFAULT g).w .SQ_USTAT_UCAUSE g cause).onSq g (fun x => { x with stopped := true })
  let s := faultEvent 9 g (fun s => s) s
  if s.rb .SQ_UCTL_UMODE g then event EV_PRIMER_FAULT [(5, g), (3, cause)] (s.w .SQ_UCTL_URUN g 0)
  else if s.r .PT_MEMBERS_MASK g = 0 then s
  else parkFlush 6 (parkMeas (s.pchans g) [g] (parkRun 6 1 g s))

/-- The ends of the stores: ROM and primer store 16,384 words, patch RAM 1,024. -/
def storeEnd (patch : Bool) : Nat := if patch then 1024 else 16384

/-- The addresses that a NEXT and the successor name: address, and whether in patch RAM (R137). -/
def State.nextAddr (s : State) (g next : Nat) : Nat × Bool :=
  if s.rb .SQ_UPC_UPATCH g && 0x3C00 ≤ next then (next - 0x3C00, true) else (next, false)

/-- Core cycle of the pitch's next boundary when it lies within 320 vectors. -/
def State.boundaryFrom (s : State) (p : Nat) : Nat → Nat → Nat → Nat → Option Nat
  | 0, _, _, _ => none
  | k + 1, j, phi, pos =>
    if segLen (s.cur p) ≤ j then s.cycleOf p phi
    else
      match s.vdata p p (s.cur p) j pos with
      | .here _ ts =>
        (match s.validSet p ts with
          | some z => s.boundaryFrom p k (j + 1) (phAdd phi z.len) (s.rowNext p (s.cur p) j pos)
          | none => none)
      | .absent _ => none
def State.nextBoundary (s : State) (p : Nat) : Option Nat :=
  let x := s.pt p
  if s.pstate p != RUNNING then none
  else if x.atEnd then s.cycleOf p x.next else s.boundaryFrom p 320 x.j x.next (s.tail p)

/-- Whether a boundary window is open, or opens less than 6 core cycles from now (R145). -/
def State.windowNear (s : State) (g : Nat) : Bool :=
  match s.nextBoundary g with | some b => s.now + 2 ≤ b && b < s.now + 29 | none => false
def State.windowOpen (s : State) (g : Nat) : Bool :=
  match s.nextBoundary g with | some b => s.now + 2 ≤ b && b ≤ s.now + 23 | none => false

/-- Whether a branch condition holds (Table MIC-2). -/
def State.condHolds (s : State) (g c : Nat) : Bool :=
  let x := (s.gp g).sq
  let p := s.pt g
  let b := (s.nextBoundary g).getD s.now
  match c with
  | 0 => true
  | 1 => false
  | 2 => x.zf
  | 3 => !x.zf
  | 4 => x.nf
  | 5 => !x.nf
  | 6 => x.cf
  | 7 => counts p.latch b
  | 8 => (match p.waiting, p.loops with
    | some w, _ => counts w.latch b
    | none, f :: _ => counts f.latch b
    | none, [] => false)
  | 9 => (p.dueStop true b).isSome
  | 10 => x.sh.pendv
  | 11 => 16 ≤ x.sh.ldep
  | 12 => x.sh.ldep == 0
  | 13 => 16 ≤ x.sh.cdep
  | 14 => x.sh.cdep == 0
  | _ => s.windowOpen g || x.workArm || x.workResume || x.workSnap

/-- The word reads and sets its flags. -/
def setFlagsZN (g v : Nat) (s : State) : State := s.onSq g (fun x => { x with zf := zOf v, nf := nOf v })
def setZ (g : Nat) (z : Bool) (s : State) : State := s.onSq g (fun x => { x with zf := z })
def setC (g : Nat) (c : Bool) (s : State) : State := s.onSq g (fun x => { x with cf := c })

/-- The payload of a sequencer post: DST and the visible set as committed. -/
def State.postLoad (s : State) (g dst : Nat) : Nat :=
  let v := s.vis g
  pack [(32, dst), (20, v.seg), (32, v.pass), (10, v.ip), (20, v.pend), (5, v.ldep), (5, v.cdep), (1, b2n v.imode), (1, b2n v.resumable)]

/-- Control enters a routine of the ROM (R146, Table MIC-6): ARM, RESUME and SNAP take the work posted for them, SNAP and the handlers
of DONE and TRACE post their record, and the CMD handler posts the work of SQ_CMD. Patch code in the place of an entry makes its own
posts. A record carries the committed visible set; the stop report carries STOP_CAUSE, and the value of the other records' DST field is
open (log entry 6). -/
def romPost (g type dst : Nat) (s : State) : State := post 2 g type (0x40 + g) (s.postLoad g dst) false s
def romOpen (g type : Nat) (s : State) : State := romPost g type (s.fresh.1 % 2 ^ 32) s.fresh.2
def enterRom (g : Nat) (s : State) : State :=
  if s.rb .SQ_UCTL_UMODE g || s.rb .SQ_UPC_UPATCH g then s
  else
    let own := !(s.fetchAt g).2
    match s.r .SQ_UPC_UPC g with
    | 0x0020 => s.onSq g (fun x => { x with workArm := false })
    | 0x0060 => s.onSq g (fun x => { x with workResume := false })
    | 0x0090 =>
      let s := s.onSq g (fun x => { x with workSnap := false })
      if own then romOpen g 0xE0 s else s
    | 0x3C00 => s.onSq g (fun x => match x.cmd / 2 ^ 28 with
        | 1 => { x with workArm := true }
        | 2 => { x with workResume := true }
        | _ => { x with workSnap := true })
    | 0x3C08 => if own then romPost g 0xE2 (s.r .PT_RUN_STOP_CAUSE g) s else s
    | 0x3C10 => if own then romOpen g 0xE1 s else s
    | _ => s

/-- The end of a word (R139, R142, R143, R144): the next address, the commit of an INT word, and the gap counter. `jump` is a
next address that the operation itself chose. -/
def wordEnd (g : Nat) (w : Micro) (reti : Bool) (jump : Option (Nat × Bool)) (s : State) : State :=
  let held := s.condHolds g w.cond
  let patch := s.rb .SQ_UPC_UPATCH g
  let succ := s.r .SQ_UPC_UPC g + 1
  let past := jump.isNone && !held && storeEnd patch ≤ succ
  let (a, pt) := match jump with
    | some q => q
    | none => if held then s.nextAddr g w.next else (succ, patch)
  if past then ufault g 4 s
  else
    let s := (s.w .SQ_UPC_UPC g a).w .SQ_UPC_UPATCH g (b2n pt)
    if w.int || reti then
      let old := s.r .PT_POS_SEG g
      let s := commitVis g (s.gp g).sq.sh s
      let s := traceSeg g old (s.onSq g (fun x => { x with gap := 0, lastInt := true }))
      if reti then s else enterRom g s
    else
      let s := s.onSq g (fun x => { x with gap := x.gap + 1, lastInt := false })
      if 16 ≤ (s.gp g).sq.gap then ufault g 5 s else enterRom g s

/-- A register keeps its 32 bits while the visible field still shows them; a field that the hardware has moved on gives the new value. -/
def keepWide (w old v : Nat) : Nat := if old % 2 ^ w = v then old else v

/-- The first word after an INT takes the visible registers into its shadow ones. -/
def shadow (g : Nat) (s : State) : State :=
  if (s.gp g).sq.lastInt then
    s.onSq g (fun x => { x with sh := { s.vis g with
      seg := keepWide 20 x.sh.seg (s.vis g).seg, ip := keepWide 10 x.sh.ip (s.vis g).ip, pend := keepWide 20 x.sh.pend (s.vis g).pend } })
  else s

/-- What follows a word's operation: nothing after a fault that stopped the sequencer, and the end of the word otherwise. -/
def wordRest (g : Nat) (w : Micro) (reti : Bool) (jump : Option (Nat × Bool)) (s : State) : State :=
  if (s.gp g).sq.stopped then s else wordEnd g w reti jump s

/-- Fetch and execute one word of operation `opc`: the store's answer, the shadows renewed after a commit, the operation, and the end
of the word. An uncorrectable error stands for a word of any content. -/
def word (g opc : Nat) (w : Micro) (reti : Bool) (body : State → State × Option (Nat × Bool)) (s : State) : State :=
  if !(s.fetches g && s.eccFits g w.ecc) then s
  else
    match w.ecc with
    | .uncorrectable => ufault g 1 (fetched g s)
    | .romParity => ufault g 2 (fetched g s)
    | e =>
      if !isWord w opc (s.storeWord g) then s
      else
        let s := fetched g s
        let s := if e == .corrected then faultEvent 8 g (fun s => s) (s.inc .SQ_USTAT_CORR_CNT g) else s
        let x := body (shadow g s)
        wordRest g w reti x.2 x.1

/-- A word whose operation chooses no address. -/
def plainWord (g opc : Nat) (w : Micro) (body : State → State) (s : State) : State := word g opc w false (fun s => (body s, none)) s

/-- A word that writes DST with a result, its Z and N flags, and C where the operation gives one. -/
def aluOp (g : Nat) (w : Micro) (write : Bool) (v : Nat) (c : Option Bool) (s : State) : State :=
  let s := setFlagsZN g v (if write then setReg g w.dst v s else s)
  match c with | some c => setC g c s | none => s

/-- An ALU word: its operation on Rd and Rs. -/
def aluWord (g opc : Nat) (w : Micro) (write : Bool) (f : Nat → Nat → Nat × Option Bool) (s : State) : State :=
  plainWord g opc w (fun s => aluOp g w write (f (s.uReg g w.dst) (s.uReg g w.src)).1 (f (s.uReg g w.dst) (s.uReg g w.src)).2 s) s

/-- IMM sign-extended to 32 bits. -/
def immS (w : Micro) : Nat := unsint 32 (sint 8 w.imm)

/-! ## Operations (Table MIC-4) -/

def execNop (g : Fin 32) (w : Micro) (s : State) : Out := .next (plainWord g.val 0x00 w (fun s => s) s)

def execMov (g : Fin 32) (w : Micro) (s : State) : Out := .next <|
  plainWord g.val 0x01 w (fun s => setReg g.val w.dst (s.uReg g.val w.src) s) s

def execLdi (g : Fin 32) (w : Micro) (s : State) : Out := .next <| plainWord g.val 0x02 w (setReg g.val w.dst (w.imm % 256)) s

def execAdd (g : Fin 32) (w : Micro) (s : State) : Out := .next <|
  aluWord g.val 0x03 w true (fun a b => ((aluAdd a b).val, some (aluAdd a b).c)) s

def execAddi (g : Fin 32) (w : Micro) (s : State) : Out := .next <|
  aluWord g.val 0x04 w true (fun a _ => ((aluAdd a (immS w)).val, some (aluAdd a (immS w)).c)) s

def execSub (g : Fin 32) (w : Micro) (s : State) : Out := .next <|
  aluWord g.val 0x05 w true (fun a b => ((aluSub a b).val, some !(aluSub a b).c)) s

def execAnd (g : Fin 32) (w : Micro) (s : State) : Out := .next <| aluWord g.val 0x06 w true (fun a b => (a &&& b, none)) s

def execOr (g : Fin 32) (w : Micro) (s : State) : Out := .next <| aluWord g.val 0x07 w true (fun a b => (a ||| b, none)) s

def execXor (g : Fin 32) (w : Micro) (s : State) : Out := .next <| aluWord g.val 0x08 w true (fun a b => (a ^^^ b, none)) s

def execShl (g : Fin 32) (w : Micro) (s : State) : Out := .next <|
  aluWord g.val 0x09 w true (fun a _ => ((a * 2 ^ (w.imm % 32)) % 2 ^ 32, none)) s

def execShr (g : Fin 32) (w : Micro) (s : State) : Out := .next <| aluWord g.val 0x0A w true (fun a _ => (a / 2 ^ (w.imm % 32), none)) s

def execCmp (g : Fin 32) (w : Micro) (s : State) : Out := .next <|
  aluWord g.val 0x0B w false (fun a b => ((aluSub a b).val, some !(aluSub a b).c)) s

def execCmpi (g : Fin 32) (w : Micro) (s : State) : Out := .next <|
  aluWord g.val 0x0C w false (fun a _ => ((aluSub a (immS w)).val, some !(aluSub a (immS w)).c)) s

/-- The first entry at or after an index with REPEAT ≠ 0; at or beyond LEN there is none. -/
def State.firstEntry (s : State) (g k : Nat) : Nat :=
  let n := s.r .SQ_TBL_LEN_COUNT g
  ((upTo n).find? (fun i => k ≤ i && segRepeat (s.seg g i) != 0)).getD (max k n)

/-- LDENT; beyond the table ENT is a free value. -/
def ldentOp (g : Nat) (w : Micro) (s : State) : State :=
  let k := s.firstEntry g (s.uReg g w.src)
  let out := decide (s.r .SQ_TBL_LEN_COUNT g ≤ k)
  let (v, s) := if out then s.fresh else (s.seg g k, s)
  setReg g w.dst k (setZ g out (s.onSq g (fun x => { x with ent := v, entFlow := false, entIdx := k })))

/-- LDENT as a microword. -/
def execLdent (g : Fin 32) (w : Micro) (s : State) : Out := .next (plainWord g 0x0D w (ldentOp g w) s)

/-- The rows of Tables SEQ-1 and SEQ-6 in order, by their bits. -/
def segRows : List (Nat × Nat) :=
  [(39, 0), (45, 40), (47, 46), (79, 48), (111, 80), (113, 112), (117, 114), (123, 118), (127, 124), (147, 128), (151, 148),
    (155, 152), (157, 156), (158, 158), (159, 159), (160, 160), (161, 161), (163, 162), (171, 164), (181, 172), (191, 182),
    (223, 192), (255, 224)]
def finRows : List (Nat × Nat) := [(2, 0), (3, 3), (23, 4), (27, 24), (33, 28), (35, 34), (63, 36)]

/-- FLD; a row number beyond the table gives a free value. -/
def fldOp (g : Nat) (w : Micro) (s : State) : State :=
  let x := (s.gp g).sq
  let (v, s) := match (if x.entFlow then finRows else segRows)[w.imm]? with
    | some (hi, lo) => (bits x.ent hi lo % 2 ^ 32, s)
    | none => (s.fresh.1 % 2 ^ 32, s.fresh.2)
  setZ g (v == 0) (setReg g w.dst v s)

/-- FLD as a microword. -/
def execFld (g : Fin 32) (w : Micro) (s : State) : Out := .next (plainWord g 0x0E w (fldOp g w) s)

/-- ISSUE hands the entry to the issue stage: its pass SRC begins at the present boundary, or an armed start begins with it. The position
itself is microcode's to write. -/
def issueOp (g : Nat) (w : Micro) (s : State) : State :=
  let n := s.uReg g w.src
  let x := (s.gp g).sq
  let p := s.pt g
  let i : Issued := { entry := x.ent, idx := x.entIdx, pass := n }
  let s := onSh g (fun y => { y with imode := false }) s
  if s.pstate g == RUNNING && (p.atEnd || p.needFlow) then
    s.onPt g (fun y => { y with
      j := 0, atEnd := false, needFlow := false, firstPass := n == 1, chain := 0, issued := some i
      order := if n == 1 then y.order + 1 else y.order, segFirstVec := if n == 1 then y.vec else y.segFirstVec
      lastB := (s.cycleOf g p.next).getD s.now })
  else if s.pstate g == ARMED then
    s.onPt g (fun y => { y with armed := y.armed.map (fun (a : Armed) => { a with seg := x.entIdx, issued := some i }) })
  else s

/-- ISSUE as a microword. -/
def execIssue (g : Fin 32) (w : Micro) (s : State) : Out := .next (plainWord g 0x0F w (issueOp g w) s)

/-- The depths follow the stacks into the shadows. -/
def depths (g : Nat) (s : State) : State :=
  let p := s.pt g
  onSh g (fun y => { y with ldep := p.loops.length, cdep := p.calls.length }) s

/-- PUSH; onto a full stack it has no effect. -/
def pushOp (g : Nat) (w : Micro) (s : State) : State :=
  let e := (s.gp g).sq.ent
  let v := s.uReg g w.src
  depths g (s.onPt g (fun x =>
    if w.imm % 2 = 0 then
      if 16 ≤ x.loops.length then x
      else { x with loops := { seg := finSeg e, count := finCount e, free := finCount e == 0, csrc := finCsrc e, csel := finCsel e
                               firstVec := x.vec } :: x.loops }
    else if 16 ≤ x.calls.length then x else { x with calls := v :: x.calls }))

/-- PUSH as a microword. -/
def execPush (g : Fin 32) (w : Micro) (s : State) : Out := .next (plainWord g 0x10 w (pushOp g w) s)

/-- POP; from an empty stack DST takes a free value. -/
def popOp (g : Nat) (w : Micro) (s : State) : State :=
  let x := s.pt g
  let (v, s) : Nat × State :=
    if w.imm % 2 = 0 then
      match x.loops with
      | f :: r => (f.count, s.onPt g (fun y => { y with loops := r }))
      | [] => (s.fresh.1 % 2 ^ 32, s.fresh.2)
    else
      match x.calls with
      | a :: r => (a, s.onPt g (fun y => { y with calls := r }))
      | [] => (s.fresh.1 % 2 ^ 32, s.fresh.2)
  setZ g (v == 0) (setReg g w.dst v (depths g s))

/-- POP as a microword. -/
def execPop (g : Fin 32) (w : Micro) (s : State) : Out := .next (plainWord g 0x11 w (popOp g w) s)

def topwOp (g : Nat) (w : Micro) (s : State) : State :=
  let v := s.uReg g w.src % 2 ^ 28
  s.onPt g (fun x => { x with loops := match x.loops with | f :: r => { f with count := v } :: r | [] => [] })

/-- TOPW as a microword. -/
def execTopw (g : Fin 32) (w : Micro) (s : State) : Out := .next (plainWord g 0x12 w (topwOp g w) s)

/-- LDINS; beyond the program ENT is a free value. -/
def ldinsOp (g : Nat) (w : Micro) (s : State) : State :=
  let (v, s) := match (s.pt g).prog[s.uReg g w.src]? with | some i => (i, s) | none => s.fresh
  onSh g (fun y => { y with imode := true }) (s.onSq g (fun x => { x with ent := v, entFlow := true }))

/-- LDINS as a microword. -/
def execLdins (g : Fin 32) (w : Micro) (s : State) : Out := .next (plainWord g 0x13 w (ldinsOp g w) s)

def execDisp (g : Fin 32) (w : Micro) (s : State) : Out := .next <| word g.val 0x14 w false (fun s =>
  (s, some (s.nextAddr g.val ((w.next + (s.uReg g.val w.src &&& w.imm)) % 2 ^ 14)))) s

def setfOp (g : Nat) (w : Micro) (s : State) : State :=
  let m := 2 ^ (w.imm % 16)
  if bit w.imm 4 then setFlags g m 0 s else setFlags g 0 m s

/-- SETF as a microword. -/
def execSetf (g : Fin 32) (w : Micro) (s : State) : Out := .next (plainWord g 0x15 w (setfOp g w) s)

/-- CLRL; level sources that still hold set the latch again (R117). -/
def clrlOp (g : Nat) (w : Micro) (s : State) : State :=
  let s := s.onPt g (fun x => match w.imm with
    | 0 => { x with latch := none }
    | 1 => { x with loops := match x.loops with | f :: r => { f with latch := none } :: r | [] => [] }
    | 2 => { x with waiting := x.waiting.map (fun (y : WaitPlay) => { y with latch := none }) }
    | _ => x)
  if s.pstate g == RUNNING then latchLevels g s.now s else s

/-- CLRL as a microword. -/
def execClrl (g : Fin 32) (w : Micro) (s : State) : Out := .next (plainWord g 0x16 w (clrlOp g w) s)

/-- ARMC: the latch is clear and waits for the condition that ENT holds. -/
def armcOp (g : Nat) (w : Micro) (s : State) : State :=
  let q := (s.gp g).sq
  let src := if q.entFlow then finCsrc q.ent else segCsrc q.ent
  let sel := if q.entFlow then finCsel q.ent else segCsel q.ent
  let s := s.onPt g (fun x => match w.imm with
    | 0 => { x with latch := none, cjump := some (src, sel), segFirstVec := x.vec }
    | 1 => { x with loops := match x.loops with | f :: r => { f with csrc := src, csel := sel, latch := none, firstVec := x.vec } :: r | [] => [] }
    | 2 => { x with waiting := x.waiting.map (fun (y : WaitPlay) => { y with csrc := src, csel := sel, latch := none, firstVec := x.vec }) }
    | _ => x)
  if s.pstate g == RUNNING then latchLevels g s.now s else s

/-- ARMC as a microword. -/
def execArmc (g : Fin 32) (w : Micro) (s : State) : Out := .next (plainWord g 0x17 w (armcOp g w) s)

def pndgOp (g : Nat) (w : Micro) (s : State) : State :=
  let v := s.uReg g w.src % 2 ^ 20
  match w.imm with
  | 0 =>
    let s := onSh g (fun y => { y with pend := v, pendv := true }) (deferred g s)
    s.onPt g (fun x => { x with defer := some { target := v, at' := s.now, order := x.order } })
  | 1 => (onSh g (fun y => { y with pendv := false }) (s.setF .PT_RUN_DROP g)).onPt g (fun x => { x with defer := none })
  | 2 => (onSh g (fun y => { y with pendv := false }) s).onPt g (fun x => { x with defer := none })
  | _ => s

/-- PNDG as a microword. -/
def execPndg (g : Fin 32) (w : Micro) (s : State) : Out := .next (plainWord g 0x18 w (pndgOp g w) s)

/-- SETSTOP: only causes 0x08, 0x09 and 0x0A are legal; others, and a pitch that does not stand at a boundary, are left as they
are. -/
def setstopOp (g : Nat) (w : Micro) (s : State) : State :=
  let x := s.pt g
  if (w.imm == 8 || w.imm == 9 || w.imm == 10) && s.pstate g == RUNNING && (x.atEnd || x.needFlow) then
    fixStop g w.imm s else s

/-- SETSTOP as a microword. -/
def execSetstop (g : Fin 32) (w : Micro) (s : State) : Out := .next (plainWord g 0x19 w (setstopOp g w) s)

/-- The end of a primer program (R152). -/
def primerDone (g res : Nat) (s : State) : State :=
  event EV_PRIMER_DONE [(5, g), (32, res)] ((s.w .SQ_PRIME_RESULT g res).w .SQ_UCTL_URUN g 0)

/-- Whether the word in execution belongs to the ROM's SNAP routine or its handlers, whose record was posted at their entry. -/
def State.romRecord (s : State) (g : Nat) : Bool :=
  let a := s.r .SQ_UPC_UPC g
  !s.rb .SQ_UCTL_UMODE g && !s.rb .SQ_UPC_UPATCH g && ((0x0090 ≤ a && a < 0x0100) || 0x3C00 ≤ a)

def postOp (g : Nat) (w : Micro) (s : State) : State :=
  let v := s.uReg g w.dst
  let s := if s.romRecord g then s else post 2 g w.imm (0x40 + g) (s.postLoad g v) false s
  if w.imm == 0xFE && s.rb .SQ_UCTL_UMODE g then primerDone g v s else s

/-- POST as a microword. -/
def execPost (g : Fin 32) (w : Micro) (s : State) : Out := .next (plainWord g 0x1A w (postOp g w) s)

/-- TEST in SVC mode, or with a reserved IMM, is a microcode fault. -/
def testOp (g : Nat) (w : Micro) (result : Nat) (s : State) : State :=
  if !s.rb .SQ_UCTL_UMODE g || 0x80 ≤ w.imm then ufault g 3 s
  else setZ g (result % 2 ^ 32 == 0) (setReg g 0 result s)

/-- TEST as a microword. -/
def execTest (g : Fin 32) (w : Micro) (result : Nat) (s : State) : Out := .next (plainWord g 0x1B w (testOp g w result) s)

def execReti (g : Fin 32) (w : Micro) (s : State) : Out := .next <| word g.val 0x1C w true (fun s =>
  let r := (s.gp g.val).sq.rtn
  (s.onSq g.val (fun x => { x with masked := false }), some (r % 2 ^ 14, bit r 14))) s

/-- The register that CSRR and CSRW name: 4-byte word IMM of the group's block, in which the pitch block stands (R352). -/
def csrrOp (g : Nat) (w : Micro) (s : State) : State :=
  match Blk.group.find g (4 * w.imm) with
  | some x => let (v, t) := regRead x.reg x.unit x.idx s; setReg g w.dst (bits v (8 * x.byte + 31) (8 * x.byte)) t
  | none => setReg g w.dst 0 s

/-- CSRR as a microword. -/
def execCsrr (g : Fin 32) (w : Micro) (s : State) : Out := .next (plainWord g 0x1D w (csrrOp g w) s)

def csrwOp (g : Nat) (w : Micro) (s : State) : State :=
  match Blk.group.find g (4 * w.imm) with
  | some x =>
    let v := s.uReg g w.src
    regWrite .i3c x.reg x.unit x.idx (if x.reg.place.size = 8 then putBits (s.other x) (8 * x.byte + 31) (8 * x.byte) v else v) s
  | none => s

/-- CSRW as a microword. -/
def execCsrw (g : Fin 32) (w : Micro) (s : State) : Out := .next (plainWord g 0x1E w (csrwOp g w) s)

/-- A reserved operation is a microcode fault. -/
def execReservedOpcode (g : Fin 32) (w : Micro) (s : State) : Out := .next (settle (plainWord g.val 0x1F w (ufault g.val 3) s))

/-! ## Interrupts (R144, R145) -/

/-- Firmware writes SQ_CMD: discarded with CMD_REJ while a command is pending (R144). -/
def sqCmd (g code seg : Nat) (s : State) : State :=
  if (s.r .SQ_INTP_PEND g).testBit 2 then s.setF .SQ_USTAT_CMD_REJ g
  else raiseInt g 2 (s.onSq g (fun x => { x with cmd := 2 ^ 28 * code + seg % 2 ^ 20 }))

def execSqCmdArm (g : Fin 32) (seg : Nat) (s : State) : Out := .next (sqCmd g.val 1 seg s)
def execSqCmdResume (g : Fin 32) (s : State) : Out := .next (sqCmd g.val 2 0 s)
def execSqCmdSnap (g : Fin 32) (s : State) : Out := .next (sqCmd g.val 3 0 s)

/-- Take interrupt n with its vector: RTN, the mask, the latency, and what its handler records or posts (Table MIC-5, R146). -/
def takeInt (g n vector req : Nat) (s : State) : State :=
  let s := s.w .SQ_INTP_PEND g (s.r .SQ_INTP_PEND g - 2 ^ n)
  let s := s.hi .SQ_INTP_LAT_MAX g (min 65535 (s.now - req))
  let r := s.r .SQ_UPC_UPC g + 2 ^ 14 * s.r .SQ_UPC_UPATCH g
  let s := s.onSq g (fun x => { x with rtn := r, masked := true })
  enterRom g ((s.w .SQ_UPC_UPC g vector).w .SQ_UPC_UPATCH g 0)

/-- The highest pending interrupt is taken at the end of an INT word, outside a boundary window and 6 core cycles before one. -/
def execInterruptTake (g : Fin 32) (s : State) : Out := .next <|
  let g := g.val
  let x := (s.gp g).sq
  let q := s.r .SQ_INTP_PEND g
  if q = 0 || x.masked || !x.lastInt || !s.fetches g || s.rb .SQ_UCTL_UMODE g || s.windowNear g then s
  else if q.testBit 2 then takeInt g 2 0x3C00 x.reqCmd s
  else if q.testBit 1 then takeInt g 1 0x3C08 x.reqDone s
  else takeInt g 0 0x3C10 x.reqTrace s

/-! ## The primer store (R149 to R154) -/

/-- The timeout of a primer program (R152). -/
def execPrimerTimeout (g : Fin 32) (s : State) : Out := .next <|
  if s.rb .SQ_UCTL_URUN g.val && (s.gp g.val).sq.primerDeadline ≤ s.now then
    event EV_PRIMER_TIMEOUT [(5, g.val)] (s.w .SQ_UCTL_URUN g.val 0)
  else s

/-- SEQ.SERVICE (R153). ARG0 the group mask. -/
def execSeqService (d : Desc) (s : State) : Out := .next <| runCmd 0x060C d [args d 1, mask 32 d.a0, s.gsOff d.a0]
  (fun s => (forAll (maskBits 32 d.a0) toService s, .done ST_OK)) s

/-- The operations that write DST, and the codes that no word may write (R141). -/
def writesDst (opc : Nat) : Bool := [1, 2, 3, 4, 5, 6, 7, 8, 9, 10, 13, 14, 17, 29].contains opc
def readOnlyCode (k : Nat) : Bool := 8 ≤ k && k ≤ 15

/-- The addresses that a word's NEXT can send control to: none where its condition never holds or RETI ends a handler, NEXT + (SRC and IMM)
for every SRC under DISP, and NEXT otherwise (Tables MIC-1, MIC-2, MIC-4). -/
def wordTargets (v : Nat) : List Nat :=
  let opc := bits v 20 16
  let next := bits v 34 21
  if opc = 0x1C then []
  else if opc = 0x14 then ((upTo 256).filter (fun x => x &&& bits v 7 0 == x)).map (fun x => (next + x) % 2 ^ 14)
  else if bits v 38 35 = 1 then [] else [next]

/-- Whether a word can be followed by its successor. -/
def wordFalls (v : Nat) : Bool := bits v 20 16 != 0x14 && bits v 20 16 != 0x1C && bits v 38 35 != 0

/-- The words of an image that can follow word a, where `inside` gives the image's word that an address names, if it names one. -/
def wordNexts (inside : Nat → Option Nat) (img : List Nat) (a : Nat) : List Nat :=
  match img[a]? with
  | none => []
  | some v => (wordTargets v).filterMap inside ++ (if wordFalls v then [a + 1] else [])

/-- The words reached from a list after exactly k words, each of which is in the image and meets a test. -/
def walkWords (nexts : Nat → List Nat) (ok : Nat → Bool) : Nat → List Nat → List Nat
  | 0, l => l.filter ok
  | k + 1, l => walkWords nexts ok k (((l.filter ok).flatMap nexts).eraseDups)

/-- All words reached from a list, in at most k rounds. -/
def reachWords (nexts : Nat → List Nat) : Nat → List Nat → List Nat → List Nat
  | 0, seen, _ => seen
  | k + 1, seen, l =>
    match ((l.flatMap nexts).eraseDups).filter (fun a => !seen.contains a) with
    | [] => seen
    | new => reachWords nexts k (seen ++ new) new

/-- Whether a word of the image has no INT. -/
def noInt (img : List Nat) (a : Nat) : Bool := match img[a]? with | some v => !bit v 39 | none => false

/-- Whether more than 15 words without INT can run in a row from word a on (line 8). -/
def gapFrom (nexts : Nat → List Nat) (img : List Nat) (a : Nat) : Bool := !(walkWords nexts (noInt img) 15 [a]).isEmpty

/-- Whether a word breaks line 7 of Table MIC-9 by itself: a reserved operation, a write to a read-only code, or RETI without INT. -/
def wordBad (v : Nat) : Bool :=
  let opc := bits v 20 16
  opc == 0x1F || (writesDst opc && readOnlyCode (bits v 15 12)) || (opc == 0x1C && !bit v 39)

/-- The NEXT that a word can use. -/
def usedNext (v : Nat) : Option Nat :=
  if bits v 20 16 != 0x1C && (bits v 20 16 == 0x14 || bits v 38 35 != 1) then some (bits v 34 21) else none

/-- Line 7 for a primer image of n words that starts at `entry`, with TEST allowed. -/
def primerLine7 (img : List Nat) (entry : Nat) : Bool :=
  let n := img.length
  let nexts := wordNexts some img
  img.any wordBad || img.any (fun v => match usedNext v with | some a => decide (n ≤ a) | none => false) ||
    (reachWords nexts n [entry] [entry]).any (fun a => a + 1 == n && wordFalls (img.getD a 0))

/-- Line 8 for a primer image. -/
def primerLine8 (img : List Nat) : Bool := (upTo img.length).any (gapFrom (wordNexts some img) img)

/-- The primer image inside a package: its header, words, and whether it breaks a line of Table MIC-9 (lines 1 to 5, 7 and 8; no
primer image has a patched path, line 10). -/
def primerWords (p : List Byte) : List Nat := (upTo (bits (ofBytes (p.take 64)) 62 48)).map (fun i => ofBytes ((p.drop (64 + 8 * i)).take 8))
def State.primerBad (s : State) (p : List Byte) (entry : Nat) : Bool :=
  let h := ofBytes (p.take 64)
  let n := bits h 62 48
  let img := primerWords p
  p.length < 96 || bits h 15 0 != 3 || bits h 127 96 != 96 + 8 * n || bits h 127 96 != p.length ||
    Config.shake256 (p.take (64 + 8 * n)) % 2 ^ 256 != ofBytes (p.drop (64 + 8 * n)) ||
    bits h 39 32 != 0x21 || bits h 95 64 != Config.romId || bits h 31 16 < s.sec.minrel.getD 4 0 ||
    bit h 47 || bit h 63 || bits h 511 128 != 0 || bits h 46 40 != 0 || n == 0 || 16384 < n || img.any (fun v => bits v 63 40 != 0) ||
    primerLine7 img entry || primerLine8 img || n ≤ entry

/-- A sequencer takes a primer image and starts at its entry (R151); the image enters the log with its group (Table TRU-8). -/
def prime (p : List Byte) (rel entry ms g : Nat) (s : State) : State :=
  let n := bits (ofBytes (p.take 64)) 62 48
  let img := primerWords p
  let s := s.onSq g (fun x => { x with
    primer := ((upTo n).map (fun a => (a, img.getD a 0))).filter (fun e => e.2 != 0), primerDeadline := s.now + 1000000 * ms
    stopped := false, masked := false, lastInt := true, gap := 0 })
  let s := ((s.setF .SQ_UCTL_UMODE g).setF .SQ_UCTL_URUN g).w .SQ_UPC_UPC g entry
  measure MK_PRIMER g rel (Config.shake256 p % 2 ^ 256) (s.w .SQ_UPC_UPATCH g 0)

/-- The package that SEQ.PRIME names, and its checks with the program that the package opens to. -/
def State.primePkg (s : State) (d : Desc) : List Byte := s.winLoad d.path d.a1 (pkgLen (s.winN d.path d.a1 128))
def State.primeChecks (s : State) (d : Desc) (pkg p : List Byte) : List (Bool × Nat) :=
  let len := pkgLen (s.winN d.path d.a1 128)
  [((maskBits 32 d.a0).any (fun g => (s.pitchOf g).isSome), ST_STATE), s.rfault d d.a1 128, reachD d d.a1 len, s.rfault d d.a1 len,
    (s.pkgFails 5 pkg != 0 || (pkgMfg pkg && s.r .SEC_STATE_DBG != 2), ST_AUTH),
    (s.primerBad p d.a2 || d.a3 == 0 || 60000 < d.a3, ST_RANGE)]

/-- SEQ.PRIME (R151, R383). ARG0 the group mask, ARG1 the package, ARG2 the entry address, ARG3 the timeout in ms. -/
def execSeqPrime (d : Desc) (s : State) : Out := .next <| runCmd 0x060B d
  [args d 4, mask 32 d.a0, reachD d d.a1 128, s.gsOff d.a0]
  (fun s =>
    let pkg := s.primePkg d
    let p := s.plain pkg
    checked (s.primeChecks d pkg p)
      (forAll (maskBits 32 d.a0) (prime p (pkgRelease pkg) d.a2 d.a3) s, .done ST_OK) s) s

end Sys2Proof.Machine
end

