-- ==== Sys2Proof/Machine/Mailbox.lean ====
section
/-! DEFINITION. Taking descriptors, commands that no chapter names, and the SYS commands (R2, R327 to R332, R339, R420,
R447, R454, R480). -/

namespace Sys2Proof.Machine

/-- The fields of a descriptor of 64 bytes (Table MBX-1): its CMD, and the descriptor with its mailbox, count and path. -/
def descOf (mb index : Nat) (path : Path) (n : Nat) : Nat × Desc :=
  (bits n 15 0,
    { mb := mb, index := index, tag := bits n 31 16, fence := bit n 32, notify := bit n 33, rsv := bits n 63 34
      a0 := bits n 127 64, a1 := bits n 191 128, a2 := bits n 255 192, a3 := bits n 319 256, a4 := bits n 383 320
      a5 := bits n 447 384, a6 := bits n 511 448, path := path })

/-- The path of the doorbell write that submitted count x of a mailbox (R335, R480). -/
def State.doorPath (s : State) (mb x : Nat) : Path :=
  match (tget [] s.mbox.doors mb).find? (fun e => dist32 (x + 1) e.1 = 0 || 2 ^ 31 < dist32 (x + 1) e.1) with
  | some e => e.2
  | none => .i3c

/-- The doorbell writes whose descriptors are not all taken at count x. -/
def dropDoors (mb x : Nat) (s : State) : State :=
  { s with mbox := { s.mbox with doors := tset [] s.mbox.doors mb ((tget [] s.mbox.doors mb).filter (fun e =>
      e.1 != x % 2 ^ 32 && 2 ^ 31 < dist32 x e.1)) } }

/-- A taken descriptor of the own half enters the journal that the twin mirrors (R446, R447). -/
def journal (cmd : Nat) (d : Desc) (s : State) : State :=
  if s.r .TW_STATE_HALF == d.mb / 32 then mirror (.journal d.mb d.index cmd d.tag d.notify) s else s

/-- Take the descriptor at MB_CONS: its work item, MB_CONS and OUTSTANDING; one that cannot be read completes with ST_FAULT and
CMD 0 (R327, R330). -/
def takeDesc (n : Nat) (s : State) : State :=
  let x := s.r .MB_CONS_COUNT n
  let a := pageAt (s.r .MB_CFG_CMD_PAGE n) + 64 * (x % s.mbSize n)
  let (cmd, d) := descOf n (x % 65536) (s.doorPath n x) (s.loadN 3 a 64)
  let fault := s.anyBad 3 a 64
  let st := s.faultSt 3 a 64
  let s := post 4 n 1 (0xFF00 + n) (x % 65536) false s
  let s := (s.w .MB_CONS_COUNT n (x + 1)).w .MB_STAT_OUTSTANDING n (s.r .MB_STAT_OUTSTANDING n + 1)
  let s := mirrorMb n (dropDoors n (x + 1) s)
  if fault then mbErr n 4 (complete 0 { mb := n, index := x % 65536 } st false 0 0 0 s)
  else journal cmd d { s with mbox := { s.mbox with taken := s.mbox.taken ++ [(d, cmd)] } }

/-- Firmware takes the descriptor at MB_CONS once its conditions hold. A descriptor that only the dispatch unit holds back is
counted once as refused, when the core cycle ends without it (R327, R358, R360). -/
def execDescriptorTake (mb : Fin 64) (s : State) : Out := .next <|
  let n := mb.val
  if !s.takeable n || !s.cplFree n then s
  else if s.duAdmit 4 n then takeDesc n s
  else
    let x := s.r .MB_CONS_COUNT n + 1
    if tget 0 s.mbox.refusedAt n = x then s
    else onCyc (fun c => { c with mbRefused := c.mbRefused ++ [n] }) { s with mbox := { s.mbox with refusedAt := tset 0 s.mbox.refusedAt n x } }

/-- A mailbox whose descriptor was held back and is not taken by the end of the core cycle counts it as refused. -/
def settleMailbox (n : Nat) (s : State) : State :=
  if tget 0 s.mbox.refusedAt n = s.r .MB_CONS_COUNT n + 1 then duRefuse 4 s else s

/-! ## SYS commands (R2, R339, R420) -/

/-- The commands of Table MBX-4 and of the SEC, REC, THM and TWIN chapters: family and the number of verbs from 1 on. -/
def known (cmd : Nat) : Bool :=
  let v := cmd % 256
  let upto (n : Nat) := 1 ≤ v && v ≤ n
  match cmd / 256 with
  | 1 => upto 3 | 2 => upto 3 | 3 => upto 2 | 4 => upto 3 | 5 => upto 6 | 6 => upto 12 | 7 => upto 8 | 8 => upto 6 | 9 => upto 4
  | 0xA => upto 5 | 0xB => upto 6 | 0xC => upto 7 | 0xD => upto 9 || v == 0x20 | 0xE => upto 3 | 0xF => upto 3 | 0x10 => upto 3
  | _ => false

/-- A command code that the manual does not define (R2). Before READY it completes with ST_STATE (R420). A descriptor that also has a
nonzero reserved field meets R9 too, and no rule orders the two: the model answers ST_UNSUPPORTED (log entry 9). -/
def execUnsupportedCommand (d : Desc) (cmd : Nat) (s : State) : Out := .next <|
  if known cmd || 65536 ≤ cmd || !s.startable cmd d then s
  else
    let s := started d s
    complete cmd d (if !s.ready then ST_STATE else if s.taken' d.mb then ST_FAULT else ST_UNSUPPORTED) false 0 0 0 s

/-- A command that runs before READY as after it (R420). -/
def runAlways (cmd : Nat) (d : Desc) (pre : List (Bool × Nat)) (body : State → State × Reply) (s : State) : State :=
  if s.startable cmd d then
    let s := started d s
    match firstBad ((d.rsv != 0, ST_RANGE) :: pre) with
    | some st => complete cmd d st false 0 0 0 s
    | none => reply cmd d (body s).2 (body s).1
  else s

/-- SYS.INFO (R339): the identity record, or the partner's as mirrored on a mailbox taken over (R454). ARG0 the address. -/
def execSysInfo (d : Desc) (s : State) : Out := .next <| runAlways 0x0101 d [args d 1, reachD d d.a0 64, s.wdown d.a0 64]
  (fun s => (s.winStore d.path d.a0 (bytesOf 64 (if s.taken' d.mb then s.twin.ident else s.identity)), .done ST_OK)) s

/-- SYS.NOP (R339). ARG0 is returned. -/
def execSysNop (d : Desc) (s : State) : Out := .next <| runAlways 0x0102 d [args d 1] (fun s => (s, .done ST_OK d.a0)) s

end Sys2Proof.Machine
end

