-- ==== Sys2Proof/Machine/Chain.lean ====
section
/-! DEFINITION. The key unit, statements, the result chain with its ring, lots and seals (R378, R385 to R390, R395 to R402). -/

namespace Sys2Proof.Machine

/-! ## Statements and signatures (R377, R385) -/

/-- The flags of statements and records: unlocks since start, owner enrolled, LOG_FULL. -/
def State.stFlags (s : State) : Nat := s.sec.dbgFlags % 4 + 4 * s.r .SEC_STATE_OWNER + 8 * s.r .SEC_STATE_LOG_FULL

/-- A statement of 128 bytes: its prefix (Table TRU-5) and the fields from bit 256 on. -/
def State.stmt (s : State) (kind keyId : Nat) (l : List (Nat × Nat)) : List Byte :=
  bytesOf 128 (pack ([(32, kind), (32, 0), (64, s.devId), (64, s.clk.ns), (16, s.clk.epoch), (16, s.stFlags), (32, keyId)] ++ l))

/-- The indices of a key: 2^h by its parameter set (Table TRU-2). -/
def keySize (oid : Nat) : Nat := match oid with | 0x10 => 2 ^ 10 | 0x11 => 2 ^ 16 | _ => 2 ^ 20

/-- A signature with a key's next index, at the length of its parameter set. -/
def Key.sign (k : Key) (msg : List Byte) : List Byte :=
  let l := Config.xmssSign k.pub k.next (ofBytes msg)
  (upTo (sigLen k.oid)).map (fun i => l.getD i 0#8)

/-! ## Keys (R386 to R389) -/

/-- The ACTIVE, NEXT and GENERATING session keys. -/
def State.keyIn (s : State) (st : Nat) : Option Key := s.sec.sess.find? (fun k => k.state == st)
abbrev State.activeKey (s : State) : Option Key := s.keyIn 3

/-- The content of a key-state record (Table TRU-7). -/
def Key.content (k : Key) (kind upd : Nat) : List Byte :=
  bytesOf 128 (pack [(8, kind), (8, k.state), (16, 0), (32, k.keyId), (32, k.oid), (32, upd), (32, k.resEnd), (32, 0), (544, k.pub)])

/-- The instance of a session key's record: a ring of 15 in order of SKEY_ID. -/
def keyInst (id : Nat) : Nat := 1 + (id - 1) % 15

/-- Store a session key and its record, or the identity key and its record. -/
def putKey (k : Key) (s : State) : State :=
  recWrite 4 (keyInst k.keyId) (k.content 2)
    { s with sec := { s.sec with sess := s.sec.sess.filter (fun x => x.keyId != k.keyId) ++ [k] } }
def putIdent (k : Key) (s : State) : State := recWrite 4 0 (k.content 1) { s with sec := { s.sec with ident := k } }

/-- The registers of the ACTIVE session key. -/
def showKeys (s : State) : State :=
  let s := s.w .SEC_LEFT_I_LEFT 0 (keySize s.sec.ident.oid - s.sec.ident.next)
  match s.activeKey with
  | some k => (s.w .SEC_SKEY_SKEY_ID 0 k.keyId).w .SEC_LEFT_S_LEFT 0 (keySize k.oid - k.next)
  | none => (s.w .SEC_SKEY_SKEY_ID 0 0).w .SEC_LEFT_S_LEFT 0 0

/-- The key that a requested signature uses. -/
def State.keyOf (s : State) : SigFor → Option Key
  | .scert .. => some s.sec.ident
  | _ => s.activeKey

/-- The key unit looks at its next request: without a reserved index it first writes RES_END (R387). -/
def kick (s : State) : State :=
  match s.sec.sigs with
  | [] => s
  | r :: _ =>
    match s.keyOf r with
    | some k => if k.next = k.resEnd && !s.rb .SEC_STATE_NOSIGN then { s with sec := { s.sec with resWrite := true } } else s
    | none => s

/-- A signature is requested (R378): one at a time, in request order. -/
def request (r : SigFor) (s : State) : State := kick { s with sec := { s.sec with sigs := s.sec.sigs ++ [r] } }

/-- Generation of a session key begins in the background (R389): fewer than 4,096 indices left, or no ACTIVE key. -/
def checkGen (s : State) : State :=
  let low := match s.activeKey with | some k => decide (keySize k.oid - k.next < 4096) | none => true
  if low && (s.keyIn 1).isNone && (s.keyIn 2).isNone && !s.rb .SEC_STATE_NOSIGN then
    let id := listMax 0 (s.sec.sess.map (·.keyId)) + 1
    let (v, s) := s.fresh
    let full := 15 ≤ s.sec.sess.length
    let s := if full then { s with sec := { s.sec with sess := match s.sec.sess.find? (fun k => k.state == 4) with
        | some k => s.sec.sess.erase k
        | none => s.sec.sess } } else s
    request (.scert id (v % 2 ^ 544)) (putKey { state := 1, keyId := id, oid := 0x11, pub := v % 2 ^ 544 } s)
  else s

/-! ## Records (R396, R397, R399, R400) -/

/-- A record of a chain: the header of Table TRU-9, its body, and zeros up to its length; with the chain after it (R399). -/
def State.record (s : State) (c : Chain) (dev kind len : Nat) (body : List Byte) : List Byte × Chain :=
  let hdr := bytesOf 64 (pack [(8, kind), (8, 1), (16, len), (32, c.lot), (64, c.seq + 1), (64, s.clk.ns), (16, s.clk.epoch),
    (16, s.stFlags), (32, s.r .SEC_LOG_COUNT), (64, dev), (64, s.devId)])
  let b := hdr ++ body ++ List.replicate (len - 64 - body.length) 0#8
  (b, { c with seq := c.seq + 1, head := Config.shake256 (bytesOf 32 c.head ++ b) % 2 ^ 256, results := c.results + b2n (kind == 1) })

/-- The PAD record that fills n bytes up to the ring end. -/
def State.pad (s : State) (c : Chain) (dev n : Nat) : List Byte :=
  (bytesOf 64 (pack [(8, 7), (8, 1), (16, n), (32, c.lot), (64, 0), (64, s.clk.ns), (16, s.clk.epoch), (16, s.stFlags),
    (32, s.r .SEC_LOG_COUNT), (64, dev), (64, s.devId)]) ++ List.replicate n 0#8).take n

/-- The bytes of padding that a record of n bytes takes before it at a ring position. -/
def padOf (size prod n : Nat) : Nat := if size < prod % size + n then size - prod % size else 0

/-- Write a record into a ring in VCM, after its padding; the new producer count. -/
def State.ringPut (s : State) (c : Chain) (dev base size prod : Nat) (b : List Byte) : State × Nat :=
  let p := padOf size prod b.length
  let s := if p = 0 then s else s.store 0 (base + prod % size) (s.pad c dev p)
  (s.store 0 (base + (prod + p) % size) b, prod + p + b.length)

/-- The last record taken for the own chain, appended or waiting. -/
def State.tip (s : State) : Chain := match s.sec.hold.getLast? with | some h => h.chain | none => s.sec.chain

/-- Bytes of the ring that neither written nor waiting records take. -/
def State.resRoom (s : State) : Nat := s.resFree - (s.sec.hold.map (fun h => h.data.length)).foldl (· + ·) 0

/-- Whether a record fits now: in the ring with its padding, or before SEC.RING in the internal buffer of 8 KiB. -/
def State.fits (s : State) (n : Nat) : Bool :=
  if s.sec.ringSet then padOf s.resSize (s.r .RES_PROD_COUNT) n + n ≤ s.resFree
  else (s.sec.buffered.map List.length).foldl (· + ·) 0 + n ≤ 8192

/-- Put a record into the result ring, or into the internal buffer before SEC.RING. -/
def putRec (b : List Byte) (c : Chain) (s : State) : State :=
  if s.sec.ringSet then
    let (s, prod) := s.ringPut c s.devId (s.r .RES_BASE_BASE) s.resSize (s.r .RES_PROD_COUNT) b
    s.w .RES_PROD_COUNT 0 prod
  else { s with sec := { s.sec with buffered := s.sec.buffered ++ [b] } }

/-- The chain position goes to record memory (R402). -/
def saveChain (s : State) : State :=
  let c := s.sec.chain
  recWrite 6 0 (fun u => bytesOf 64 (pack [(32, u), (32, 0), (32, c.lot), (64, c.seq), (256, c.head)])) s

/-- Take a record for the own chain: it waits behind those before it, and while paired for the twin (R399, R447). -/
def take (c : Chain) (kind len : Nat) (body : List Byte) (d : Option Desc) (s : State) : State :=
  let (b, c') := s.record c s.devId kind len body
  mirror (.result c.lot c'.seq len b) { s with sec := { s.sec with hold := s.sec.hold ++ [{ data := b, chain := c', d := d }] } }

/-- The SITE_RESULT of a site enters the site table (Table REC-6). -/
def siteDone (b : List Byte) (seq : Nat) (s : State) : State :=
  let n := ofBytes b
  let site := bits n 519 512
  let z := tget {} s.sec.sites site
  let ok := bits n 531 528 == 0 && Config.binPass (bits n 559 544)
  { s with sec := { s.sec with sites := tset {} s.sec.sites site { z with
      lastSeq := seq, bin := bits n 559 544, pass := z.pass + b2n ok, fail := z.fail + b2n !ok
      starts := (s.pt (bits n 524 520)).starts } } }

/-- The statement and signature of the ACTIVE key's SKEY record (Table TRU-10). -/
def State.skeyBody (s : State) : List Byte := match s.activeKey with | some k => k.cert | none => []

/-- Before the first seal with a new key its SKEY record is appended (R389). -/
def takeSkey (s : State) : State :=
  if s.sec.skeyDue then take s.tip 5 3040 s.skeyBody none { s with sec := { s.sec with skeyDue := false } } else s

/-- Request a seal of the own chain up to its newest appended record (R401). With NOSIGN, or without a key, none is taken. -/
def askSeal (d : Option Desc) (s : State) : State :=
  if s.rb .SEC_STATE_NOSIGN || s.activeKey.isNone then s
  else
    let s := takeSkey s
    request (.seal d s.sec.chain.seq s.sec.chain.head) { s with sec := { s.sec with unsealed := none } }

/-- Whether a seal of the own chain is being signed or waits to be appended. -/
def State.sealing (s : State) : Bool :=
  s.sec.sigs.any (fun r => match r with | .seal .. => true | _ => false) || s.sec.hold.any (fun h => (h.data.take 1) == [4#8])

/-- The new lot opens: its LOT_OPEN carries the position of the chain before it (R395, R402). -/
def openLot (lot reason : Nat) (prev : Chain) (s : State) : State :=
  let s := mirror (.head prev.lot prev.seq prev.head) { s with sec := { s.sec with sites := s.sec.sites.map (fun e => (e.1, { e.2 with pass := 0, fail := 0 })) } }
  take { lot := lot } 2 128 (bytesOf 64 (pack [(32, prev.lot), (64, prev.seq), (256, prev.head), (8, reason)])) none s

/-- The LOT_CLOSE of the open lot. -/
def closeLot (s : State) : State :=
  let c := s.tip
  take c 3 128 (bytesOf 64 (pack [(64, c.results), (8, if s.sec.lotReason = 3 then 1 else 2)])) none
    { s with sec := { s.sec with lotClosed := true } }

/-- The command that closes a lot completes. -/
def lotDone (st : Nat) (s : State) : State :=
  s.jobs.foldl (fun t (j : Job) => match j with
    | Job.lot d => if t.taken' d.mb then t else complete 0x0D08 d st false 0 0 0 { t with jobs := t.jobs.filter (fun x => x != Job.lot d) }
    | _ => t) s

/-- A lot that is closing goes on once no seal is in progress: first LOT_CLOSE and its final seal, then the next LOT_OPEN; with
NOSIGN both unsealed and ST_FAULT (R401, Table TRU-13). -/
def lotGo (s : State) : State :=
  match s.sec.lotNext with
  | none => s
  | some next =>
    let finish (st : Nat) (s : State) : State :=
      lotDone st (openLot next s.sec.lotReason s.tip { s with sec := { s.sec with lotNext := none, lotClosed := false } })
    if s.rb .SEC_STATE_NOSIGN || s.activeKey.isNone then finish ST_FAULT (if s.sec.lotClosed then s else closeLot s)
    else if s.sealing then s
    else if s.sec.lotClosed then finish ST_OK s
    else closeLot s

/-- What the append of a record brings: the chain position, the seal clock, the site table, the seal's command, the saved
position, and the final seal after a LOT_CLOSE. -/
def appended (h : HoldRec) (s : State) : State :=
  let kind := bits (ofBytes (h.data.take 1)) 7 0
  let s := { s with sec := { s.sec with chain := h.chain, unsealed := if kind = 4 then s.sec.unsealed else s.sec.unsealed <|> some s.now } }
  let s := s.w .SEC_LOT_LOT 0 h.chain.lot
  match kind with
  | 1 => siteDone h.data h.chain.seq s
  | 3 => if s.sec.lotClosed then askSeal none s else s
  | 4 =>
    let s := saveChain (s.inc .SEC_CNT_SEALS)
    let s := match h.d with
      | some d => complete 0x0D07 d ST_OK false (bits (ofBytes h.data) (512 + 447) (512 + 384)) 0 0 { s with jobs := s.jobs.filter (· != .seal d) }
      | none => s
    lotGo s
  | 5 => { s with sec := { s.sec with skeyRec := h.data } }
  | _ => s

/-- The own records that the twin has not acknowledged. -/
def State.unacked (s : State) : Nat :=
  (s.twin.queued.filter (fun m => match m with | .result .. => true | _ => false)).length

/-- Append the records that may be appended, in order (R399, R400, R447). -/
def appendGo : Nat → State → State
  | 0, s => s
  | n + 1, s =>
    match s.sec.hold with
    | [] => s
    | h :: r =>
      if (s.twinWaits && s.sec.hold.length ≤ s.unacked) || !s.fits h.data.length then s
      else appendGo n (appended h (putRec h.data h.chain { s with sec := { s.sec with hold := r } }))
def appendAll (s : State) : State := appendGo (s.sec.hold.length + 6) s

/-- Append to the partner's chain after a takeover, in the mirror ring (R403, R453, R454). -/
def partnerAppend (kind len : Nat) (body : List Byte) (s : State) : State :=
  let (b, c) := s.record s.twin.chain (s.r .TW_PARTNER_LO_ID + 2 ^ 32 * s.r .TW_PARTNER_HI_ID) kind len body
  let size := 4096 * s.r .TW_MRES_SIZE_PAGES
  let (s, prod) := s.ringPut c (s.r .TW_PARTNER_LO_ID + 2 ^ 32 * s.r .TW_PARTNER_HI_ID) (s.r .TW_MRES_BASE_BASE) size (s.r .TW_MRES_PROD_COUNT) b
  { s.w .TW_MRES_PROD_COUNT 0 prod with
    twin := { s.twin with chain := c, unsealed := if kind = 4 then s.twin.unsealed else s.twin.unsealed <|> some s.now } }

/-- Request a seal of the partner's chain. -/
def askPartnerSeal (d : Option Desc) (s : State) : State :=
  if s.rb .SEC_STATE_NOSIGN || s.activeKey.isNone then s
  else
    let s := if s.twin.skeyDue then partnerAppend 5 3040 s.skeyBody { s with twin := { s.twin with skeyDue := false } } else s
    request (.partner d s.twin.chain.seq s.twin.chain.head) { s with twin := { s.twin with unsealed := none } }

/-- The partner chain's closing goes on once no seal of it is in progress (R401, R454). -/
def partnerGo (s : State) : State :=
  let busy := s.sec.sigs.any (fun r => match r with | .partner .. => true | _ => false)
  let nosign := s.rb .SEC_STATE_NOSIGN || s.activeKey.isNone
  let close (s : State) : State := partnerAppend 3 128 (bytesOf 64 (pack [(64, s.twin.chain.results), (8, 1)])) s
  let finish (st : Nat) (s : State) : State :=
    s.jobs.foldl (fun t (j : Job) => match j with
      | Job.lot d => if t.taken' d.mb then complete 0x0D08 d st false 0 0 0 { t with jobs := t.jobs.filter (fun x => x != Job.lot d) } else t
      | _ => t) { s with twin := { s.twin with sealing := false, closed := false, open' := false } }
  if !s.twin.sealing then s
  else if nosign then finish ST_FAULT (if s.twin.closed then s else close s)
  else if busy then s
  else if s.twin.closed then finish ST_OK s
  else
    let s := close s
    askPartnerSeal none { s with twin := { s.twin with closed := true } }

/-- A seal of the partner chain is appended: SEC.SEAL completes with COUNT. -/
def partnerSealed (d : Option Desc) (count : Nat) (s : State) : State :=
  partnerGo (match d with
    | some d => complete 0x0D07 d ST_OK false count 0 0 { s with jobs := s.jobs.filter (fun x => x != Job.seal d) }
    | none => s)

/-! ## Signing (R387, R389) -/

/-- Requests that NOSIGN ends: they complete as their commands state, and a closing lot goes on unsealed. -/
def failSigs (s : State) : State :=
  let l := s.sec.sigs
  let s := { s with sec := { s.sec with sigs := [], resWrite := false } }
  let s := l.foldl (fun t r => match r with
    | .quote d _ _ => complete 0x0D01 d ST_STATE false 0 0 0 { t with jobs := t.jobs.filter (· != .quote d) }
    | .seal (some d) _ _ | .partner (some d) _ _ => complete 0x0D07 d ST_STATE false 0 0 0 { t with jobs := t.jobs.filter (· != .seal d) }
    | _ => t) s
  partnerGo (appendAll (lotGo s))
def noSign (s : State) : State := failSigs (s.setF .SEC_STATE_NOSIGN)

/-- The reservation write ends (R387): RES_END advances, or signing stops until the next start. -/
def execReservationWriteDone (ok : Bool) (s : State) : Out := .next <|
  match s.sec.resWrite, s.sec.sigs with
  | true, r :: _ =>
    (match s.keyOf r with
      | none => s
      | some k =>
        let ident := match r with | .scert .. => true | _ => false
        if ok then
          let k := { k with resEnd := min (k.next + 32) (keySize k.oid) }
          let s := { s with sec := { s.sec with resWrite := false } }
          if ident then putIdent k s else putKey k s
        else noSign (event EV_SEC_SIGN_FAIL [(8, if ident then 1 else 2), (32, k.keyId)] s))
  | _, _ => s

/-- The ACTIVE key is exhausted: the NEXT key takes its place, or NOSIGN is set (R389). -/
def rollKey (k : Key) (s : State) : State :=
  match s.keyIn 2 with
  | some n =>
    let s := putKey { n with state := 3 } (putKey { k with state := 4 } s)
    showKeys (event EV_SEC_KEY_ROLL [(32, k.keyId), (32, n.keyId)] { s with sec := { s.sec with skeyDue := true } })
  | none => noSign (showKeys (putKey { k with state := 5 } s))

/-- A key spends an index (R387 to R389, R438): NEXT, the counts, the warnings, the generation of a new key, the roll. -/
def spend (ident : Bool) (k : Key) (s : State) : State :=
  let k := { k with next := k.next + 1 }
  let left := keySize k.oid - k.next
  if ident then
    let k := if left = 0 then { k with state := 5 } else k
    let s := lifeAdd 0x16 0 8 4 1 { s with sec := { s.sec with ident := k } }
    let s := if left = 0 then putIdent k s else s
    let s := showKeys s
    if left < 65536 && !s.sec.keyLow then event EV_SEC_KEY_LOW [(32, left)] { s with sec := { s.sec with keyLow := true } } else s
  else
    let s := lifeAdd 0x16 0 24 8 1 { s with sec := { s.sec with sess := s.sec.sess.map (fun x => if x.keyId = k.keyId then k else x) } }
    let s := checkGen (showKeys s)
    if left = 0 then rollKey k s else s

/-- The SEAL statement (Table TRU-6). -/
def State.sealStmt (s : State) (keyId dev : Nat) (c : Chain) (count head : Nat) : List Byte :=
  s.stmt 1 keyId [(32, c.lot), (32, s.r .SEC_LOG_COUNT), (64, dev), (64, count), (256, head)]

/-- The QUOTE statement with its signature is written to the address in ARG4 (R392). -/
def quoteDone (k : Key) (d : Desc) (count head : Nat) (s : State) : State :=
  let st := s.stmt 2 k.keyId [(256, pack [(64, d.a0), (64, d.a1), (64, d.a2), (64, d.a3)]), (32, count), (8, s.r .SEC_STATE_ROOT_SLOT), (24, 0), (256, head)]
  let s := (s.winStore d.path d.a4 (st ++ k.sign st)).inc .SEC_CNT_QUOTES
  complete 0x0D01 d ST_OK false 0 0 0 { s with jobs := s.jobs.filter (· != .quote d) }

/-- The key unit completes a signature (R378, R387): it spends the index, and the seal, quote or certificate is written or
appended; then the next request is looked at. -/
def execSignatureDone (s : State) : Out := .next <|
  match s.sec.sigs with
  | [] => s
  | r :: rest =>
    match s.keyOf r with
    | none => s
    | some k =>
      if s.sec.resWrite || s.rb .SEC_STATE_NOSIGN || k.resEnd ≤ k.next then s
      else
        let s := { s with sec := { s.sec with sigs := rest } }
        let s := match r with
          | .quote d count head => spend false k (quoteDone k d count head s)
          | .seal d count head =>
            let st := s.sealStmt k.keyId s.devId s.sec.chain count head
            appendAll (spend false k (take s.tip 4 2912 (st ++ k.sign st) d s))
          | .partner d count head =>
            let st := s.sealStmt k.keyId (s.r .TW_PARTNER_LO_ID + 2 ^ 32 * s.r .TW_PARTNER_HI_ID) s.twin.chain count head
            partnerSealed d count (spend false k (partnerAppend 4 2912 (st ++ k.sign st) s))
          | .scert id pub =>
            let st := s.stmt 3 0 [(32, id), (32, 0), (544, pub)]
            let s := { s with sec := { s.sec with sess := s.sec.sess.map (fun x => if x.keyId = id then { x with cert := st ++ k.sign st } else x) } }
            spend true k s
        kick s

/-- The generation of a session key completes once its SCERT is signed (R389): it enters NEXT, or ACTIVE where there is none. -/
def execSessionKeyGenerated (s : State) : Out := .next <|
  match s.keyIn 1 with
  | none => s
  | some k =>
    if k.cert.isEmpty then s
    else
      let s := lifeAdd 0x16 0 16 4 1 s
      if s.activeKey.isSome then putKey { k with state := 2 } s
      else
        let s := showKeys (putKey { k with state := 3 } s)
        { s with sec := { s.sec with skeyDue := true } }

/-- A seal is taken no later than 55 s after the first record that no seal covers (R401). -/
def execSealTimer (s : State) : Out := .next <|
  let due (u : Option Nat) : Bool := match u with | some t => decide (t + 55000000000 ≤ s.now) | none => false
  if due s.sec.unsealed then appendAll (askSeal none s)
  else if due s.twin.unsealed then askPartnerSeal none s
  else s

end Sys2Proof.Machine
end

