-- ==== Sys2Proof/Machine/Sec.lean ====
section
/-! DEFINITION. The SEC commands and the debug unlock (R391 to R395, R400, R401, R405 to R407). -/

namespace Sys2Proof.Machine

/-! ## Quotes, the log, certificates and key states (R391, R392, Table TRU-13) -/

/-- SEC.QUOTE. ARG0 to ARG3 the nonce, ARG4 the address of 2,820 bytes; the log position is that of the step. -/
def execSecQuote (d : Desc) (s : State) : Out := .next <| runCmd 0x0D01 d [args d 5, reachD d d.a4 2820, s.wdown d.a4 2820]
  (fun s => checked [(s.rb .SEC_STATE_NOSIGN || s.activeKey.isNone, ST_STATE)]
    (request (.quote d (s.r .SEC_LOG_COUNT) s.sec.logHead) { s with jobs := s.jobs ++ [.quote d] }, .later) s) s

/-- The entries that SEC.LOG delivers. -/
def State.logPart (s : State) (first n : Nat) : List Nat := if first = 0 then [] else (s.sec.log.drop (first - 1)).take n

/-- SEC.LOG. ARG0 the first index, ARG1 the most entries, ARG2 the address: a count, then the entries. -/
def execSecLog (d : Desc) (s : State) : Out :=
  let n := 8 + 64 * (s.logPart d.a0 d.a1).length
  .next <| runCmd 0x0D02 d [args d 3, reachD d d.a2 n, s.wdown d.a2 n]
  (fun s => checked [(d.a0 == 0 || s.sec.log.length < d.a0, ST_RANGE)]
    (let l := s.logPart d.a0 d.a1
     (s.winStore d.path d.a2 (bytesOf 8 l.length ++ l.flatMap (bytesOf 64)),
       .done ST_OK (s.r .SEC_LOG_COUNT) (s.r .SEC_STATE_LOG_FULL))) s) s

/-- The SKEY record of the ACTIVE key: as appended last, or as it would stand next in the chain; zeros without a key. -/
def State.skeyRecord (s : State) : List Byte :=
  if s.activeKey.isNone then List.replicate 3040 0#8
  else if s.sec.skeyRec.isEmpty || s.sec.skeyDue then (s.record s.tip s.devId 5 3040 s.skeyBody).1
  else s.sec.skeyRec

/-- SEC.CERT. ARG0 the address: the ICERT statement with its block of 2,912 bytes, then the SKEY record. -/
def execSecCert (d : Desc) (s : State) : Out := .next <| runCmd 0x0D03 d [args d 1, reachD d d.a0 6080, s.wdown d.a0 6080]
  (fun s => (s.winStore d.path d.a0 ((upTo 3040).map Config.icert ++ s.skeyRecord), .done ST_OK)) s

/-- The three blocks of SEC.KEYSTATE: the identity key, the active session key and the next one; zeros for one that is absent. -/
def keyBlocks (s : State) : List Byte :=
  let one (inst : Nat) := bytesOf 128 (s.recN 4 inst 0 128)
  let sess (k : Option Key) := match k with | some k => one (keyInst k.keyId) | none => List.replicate 128 0#8
  one 0 ++ sess s.activeKey ++ sess (s.keyIn 2)

/-- SEC.KEYSTATE. ARG0 the address: the records of the identity, ACTIVE and NEXT keys. -/
def execSecKeystate (d : Desc) (s : State) : Out := .next <| runCmd 0x0D04 d [args d 1, reachD d d.a0 384, s.wdown d.a0 384]
  (fun s => (s.winStore d.path d.a0 (keyBlocks s), .done ST_OK)) s

/-! ## The owner (R393) -/

/-- The checks of SEC.OWNER before its signature. -/
def ownerChecks (s : State) (d : Desc) : List (Bool × Nat) :=
  let st := s.winN d.path d.a1 128
  let n := blockLen (s.winN d.path (d.a1 + 128) 16)
  let hash := bits st 511 256
  [(s.rb .SEC_STATE_OWNER == (d.a0 == 0) || s.disp.cores.any (fun e => e.2.prog.isSome) || !s.allIdle, ST_STATE),
    s.rfault d d.a1 144, reachD d d.a1 (128 + n), s.rfault d d.a1 (128 + n),
    (bits st 31 0 != 6 || bits st 63 32 != 0 || bits st 127 64 != s.devId || bits st 1023 544 != 0 || bits st 543 512 != s.sec.ownerSeq + 1 ||
      (d.a0 == 0 && (hash == 0 || hash != keyHash (s.winLoad d.path (d.a1 + 128) n))), ST_RANGE)]

/-- Whether the block of SEC.OWNER signs its statement: under the new key to set an owner, under the owner's to change it. -/
def ownerSigns (s : State) (d : Desc) : Bool :=
  blockSigns (if d.a0 = 0 then bits (s.winN d.path d.a1 128) 511 256 else s.sec.ownerHash) (s.winLoad d.path d.a1 128)
    (s.winLoad d.path (d.a1 + 128) (blockLen (s.winN d.path (d.a1 + 128) 16)))

/-- The owner hash and its sequence number are set, recorded, measured and reported. -/
def setOwner (hash seq : Nat) (s : State) : State :=
  let s := { s.w .SEC_STATE_OWNER 0 (b2n (hash != 0)) with sec := { s.sec with ownerHash := hash, ownerSeq := seq } }
  let s := recWrite 5 0 (fun u => bytesOf 64 (pack [(32, u), (32, 0), (256, hash), (32, seq)])) s
  event EV_SEC_OWNER [(32, seq)] (measure MK_OWNER_KEY 0 0 hash s)

/-- SEC.OWNER. ARG0 the choice (0 ENROL, 1 CHANGE), ARG1 the statement with its signature block. -/
def execSecOwner (d : Desc) (s : State) : Out := .next <| runCmd 0x0D05 d [args d 2, choice 2 d.a0, reachD d d.a1 144]
  (fun s => checked (ownerChecks s d)
    (if ownerSigns s d then
      (setOwner (bits (s.winN d.path d.a1 128) 511 256) (bits (s.winN d.path d.a1 128) 543 512) s, .done ST_OK)
    else (s, .done ST_AUTH)) s) s

/-! ## Debug (R405, R406) -/

/-- The valid debug challenge: 600 s at most. -/
def State.challengeOk (s : State) : Option Challenge :=
  match s.sec.challenge with
  | some c => if s.now < c.at' + 600000000000 then some c else none
  | none => none

def dropChallenge (s : State) : State := { s with sec := { s.sec with challenge := none } }

/-- SEC.DEBUG CHALLENGE: a fresh random value, written and returned. -/
def debugChallenge (d : Desc) (s : State) : State × Reply :=
  checked [(d.a1 != 1 && d.a1 != 2, ST_RANGE), (d.a1 == 1 && !s.rb .SEC_STATE_OWNER, ST_STATE)]
    (let (v, s) := s.fresh
     let v := v % 2 ^ 256
     ({ s.winStore d.path d.a2 (bytesOf 32 v) with sec := { s.sec with challenge := some { value := v, level := d.a1, at' := s.now } } },
       .done ST_OK (bits v 63 0) (bits v 127 64) (bits v 191 128))) s

/-- Whether an UNLOCK statement with its block fails. -/
def State.unlockFails (s : State) (st : Nat) (msg blk : List Byte) : Bool :=
  let hash := keyHash blk
  let vendor := (upTo 2).any (fun k => hash == s.rootHash k && !s.revoked k)
  match s.challengeOk with
  | none => true
  | some c =>
    bits st 31 0 != 5 || bits st 127 64 != s.devId || bits st 511 256 != c.value || bits st 519 512 != c.level ||
      !(if c.level = 2 then vendor else s.rb .SEC_STATE_OWNER && hash == s.sec.ownerHash) || !blockSigns hash msg blk

/-- An unlock of a debug level: the flags of later statements; where the level rises, the register, the log and the event. -/
def raiseDebug (level : Nat) (s : State) : State :=
  let rise := s.r .SEC_STATE_DBG < level
  let s := { s.hi .SEC_STATE_DBG 0 level with sec := { s.sec with dbgFlags := s.sec.dbgFlags ||| level } }
  if rise then event EV_SEC_DEBUG [(8, level)] (measure MK_DEBUG level 0 0 s) else s

/-- SEC.DEBUG. ARG0 the choice (0 CHALLENGE, 1 UNLOCK); ARG1 the level and ARG2 the address, or ARG1 the statement's address. -/
def execSecDebug (d : Desc) (s : State) : Out := .next <| runCmd 0x0D06 d
  [args d 3, choice 2 d.a0, bad (d.a0 == 1 && d.a2 != 0), if d.a0 = 0 then reachD d d.a2 32 else reachD d d.a1 144,
    s.wdown d.a2 (if d.a0 = 0 then 32 else 0)]
  (fun s =>
    if d.a0 = 0 then debugChallenge d s
    else
      let n := blockLen (s.winN d.path (d.a1 + 128) 16)
      let st := s.winN d.path d.a1 128
      checked [s.rfault d d.a1 144, reachD d d.a1 (128 + n), s.rfault d d.a1 (128 + n)]
        (if s.unlockFails st (s.winLoad d.path d.a1 128) (s.winLoad d.path (d.a1 + 128) n) then (dropChallenge s, .done ST_AUTH)
         else (raiseDebug (bits st 519 512) (dropChallenge s), .done ST_OK)) s) s

/-- A challenge expires (R406). -/
def execChallengeExpiry (s : State) : Out := .next <| if s.challengeOk.isNone then dropChallenge s else s

/-! ## Seals, lots and the ring (R395, R400, R401) -/

/-- VCM is DOWN under the ring that a command appends to: the result ring, or the mirror ring of a chain taken over (R261). -/
def State.ringDown (s : State) (mb : Nat) : Bool × Nat := (s.vcmDown && (s.taken' mb || s.sec.ringSet), ST_FAULT)

/-- SEC.SEAL: completes at the append of the SEAL record. On a mailbox taken over it seals the partner chain (R454). -/
def execSecSeal (d : Desc) (s : State) : Out := .next <| runCmd 0x0D07 d [args d 0]
  (fun s => checked [(s.rb .SEC_STATE_NOSIGN || s.activeKey.isNone, ST_STATE), (s.taken' d.mb && !s.twin.open', ST_STATE), s.ringDown d.mb]
    (let s := { s with jobs := s.jobs ++ [.seal d] }
     (if s.taken' d.mb then askPartnerSeal (some d) s else appendAll (askSeal (some d) s), .later)) s) s

/-- Whether a lot of the own chain, or the partner's, is closing. -/
def State.lotBusy (s : State) (mb : Nat) : Bool := if s.taken' mb then s.twin.sealing else s.sec.lotNext.isSome

/-- SEC.LOT. ARG0 the choice (0 OPEN, 1 CLOSE), ARG1 the lot of OPEN. -/
def execSecLot (d : Desc) (s : State) : Out := .next <| runCmd 0x0D08 d
  [args d 2, choice 2 d.a0, bad (d.a0 == 1 && d.a1 != 0), field 32 d.a1]
  (fun s =>
    let mine := !s.taken' d.mb
    checked [(d.a0 == 0 && d.a1 == 0, ST_RANGE), (mine && s.resFree < 8192, ST_NOSPACE), (s.lotBusy d.mb, ST_BUSY),
        (!mine && !s.twin.open', ST_STATE), s.ringDown d.mb]
      (let s := { s with jobs := s.jobs ++ [Job.lot d] }
       if mine then
         (appendAll (lotGo { s with sec := { s.sec with lotNext := some d.a1, lotClosed := false, lotReason := 2 + d.a0 } }), .later)
       else (partnerGo { s with twin := { s.twin with sealing := true, closed := false } }, .later)) s) s

/-- Whether an extent of VCM touches a bound array, a segment table, a capture area, or a ring. -/
def State.resClash (s : State) (e : Nat × Nat) (own : Bool) : Bool :=
  s.inBound e.1 e.2 || (upTo 32).any (fun p => clash (s.tableAt p) e) || (upTo 32).any (fun g => clash (s.areaAt g) e) ||
    (!own && clash (s.r .RES_BASE_BASE, 4096 * s.r .RES_SIZE_PAGES) e) ||
    (own && clash (s.r .TW_MRES_BASE_BASE, 4096 * s.r .TW_MRES_SIZE_PAGES) e)

/-- The address checks of a ring in VCM (Table TRU-13, R444). -/
def State.resRingBad (s : State) (a pages : Nat) (own : Bool) : Bool :=
  pages < 16 || 65536 < pages || a % 4096 != 0 || spaceSize 0 < a + 4096 * pages || s.resClash (a, 4096 * pages) own

/-- The result ring is placed empty, and what was kept before is put into it. -/
def placeResults (page pages : Nat) (s : State) : State :=
  let l := s.sec.buffered
  let s := (((s.w .RES_BASE_BASE 0 page).w .RES_SIZE_PAGES 0 pages).w .RES_PROD_COUNT 0 0).w .RES_CONS_COUNT 0 0
  let s := { s.w .SEC_STATE_RING_FULL 0 0 with sec := { s.sec with ringSet := true, buffered := [], ringFullRaised := false } }
  appendAll (l.foldl (fun t b => putRec b t.sec.chain t) s)

/-- SEC.RING. ARG0 the VCM byte address, ARG1 the pages; the buffered records go into the ring first. -/
def execSecRing (d : Desc) (s : State) : Out := .next <| runCmd 0x0D09 d [args d 2]
  (fun s => checked [(s.r .RES_PROD_COUNT != s.r .RES_CONS_COUNT, ST_STATE), (s.resRingBad d.a0 d.a1 true, ST_RANGE), (s.vcmDown, ST_FAULT)]
    (placeResults d.a0 d.a1 s, .done ST_OK) s) s

end Sys2Proof.Machine
end

