-- ==== Sys2Proof/Machine/Work.lean ====
section
/-! DEFINITION. The dispatch unit and the flow cores (R354 to R375, R398, R400). -/

namespace Sys2Proof.Machine

/-! ## Keys, servers and candidates (R355, R361 to R363) -/

def State.fc (s : State) (c : Nat) : FlowCore := tget {} s.disp.cores c
def State.onFc (s : State) (c : Nat) (f : FlowCore → FlowCore) : State :=
  { s with disp := { s.disp with cores := tset {} s.disp.cores c (f (s.fc c)) } }

/-- The sites of a core's program, ascending, and those of one pitch. -/
def State.sitesOf (s : State) (c : Nat) : List Site := match (s.fc c).prog with | some f => f.sites | none => []
def State.pitchSites (s : State) (c p : Nat) : List Site := (s.sitesOf c).filter (fun z => z.pitch == p)

/-- The core whose loaded program names a pitch (R368). -/
def State.coreOf (s : State) (p : Nat) : Option Nat := (upTo 16).find? (fun c => !(s.pitchSites c p).isEmpty)

/-- Whether an item is one that a flow core handles. -/
def Item.forCore (x : Item) : Bool := (x.type == 2 || x.type == 3 || x.type == 4) && x.key < 0x20

/-- The server of an item: 0 the MP, 1 + c the flow core c (Table DSP-2). -/
def State.serverOf (s : State) (x : Item) : Nat :=
  if x.forCore then (match s.coreOf x.key with | some c => 1 + c | none => 0) else 0

def Item.inService (x : Item) : Bool := match x.st with | .service .. => true | _ => false

/-- The item that a server holds. -/
def State.inHand (s : State) (v : Nat) : Option Item :=
  s.disp.items.find? (fun x => match x.st with | .service w _ => w == v | _ => false)

/-- Whether an item is the candidate of its key: ready, no item of the key in service, and none older in admission; items of key
0xFFFF have no order (R361, R362). -/
def State.candidate (s : State) (x : Item) : Bool :=
  let same := s.disp.items.filter (fun y => y.key == x.key)
  (match x.st with | .ready t => t + 4 ≤ s.now | _ => false) &&
    (x.key == 0xFFFF || (!same.any Item.inService && (match same with | y :: _ => y.id == x.id | [] => false)))

/-- The priority at which an item's key competes: the highest among its items, 0 the highest of all. -/
def State.competes (s : State) (x : Item) : Nat :=
  if x.key = 0xFFFF then x.prio else listMin x.prio ((s.disp.items.filter (fun y => y.key == x.key)).map (·.prio))

/-- Whether the MP can take a RESULT item: a ring with room for the record and 8 KiB more, and no LOT_CLOSE whose final seal is
still to be appended (R400, R401). -/
def State.resTakes (s : State) : Bool :=
  s.sec.ringSet && !s.sec.lotClosed && padOf s.resSize (s.r .RES_PROD_COUNT) 256 + 256 + 8192 ≤ s.resRoom

/-- Whether the result ring alone holds RESULT items back, with a ring set. -/
def State.ringShort (s : State) : Bool := s.sec.ringSet && !s.sec.lotClosed && !s.resTakes

/-- Whether a server takes an item now. -/
def State.takes (s : State) (v : Nat) (x : Item) : Bool :=
  s.candidate x && s.serverOf x == v && (x.type != 7 || s.resTakes) &&
    !(s.rb .DU_STAT_SHED && 6 ≤ s.competes x && x.cls != 4)

/-- The better of two candidates: the higher priority, then the one that became ready first. -/
def State.better (s : State) (x y : Item) : Item :=
  let t (z : Item) := match z.st with | .ready t => t | _ => 0
  if s.competes y < s.competes x || (s.competes y == s.competes x && t y < t x) then y else x

/-- The item that a server takes. -/
def State.choose (s : State) (v : Nat) : Option Item :=
  match s.disp.items.filter (s.takes v) with
  | [] => none
  | x :: r => some (r.foldl s.better x)

/-! ## Posting, readiness, dispatch (R356, R358, R362, R374) -/

/-- A producer posts an item; an item of no class, or of a producer that does not exist, is none (R355, R357). -/
def execWorkItemPost (cls producer type key payload : Nat) (held : Bool) (s : State) : Out := .next <|
  if producer < duN cls then post cls producer type key payload held s else s

/-- The write that a held item describes completes; one of a key cancelled in the same core cycle is removed (R356, R364). -/
def wakeItem (id : Nat) (s : State) : State :=
  let wake (x : Item) : Item := if x.id = id && x.st == .held then { x with st := .ready s.now } else x
  { s with disp := { s.disp with items := s.disp.items.map wake, refused := s.disp.refused.map wake } }
def readyItem (id : Nat) (s : State) : State :=
  match s.disp.items.find? (fun x => x.id == id && x.st == .held && s.raced x.key) with
  | some x => raceCancel { s with disp := { s.disp with items := s.disp.items.filter (· != x) } }
  | none => wakeItem id s

/-- Whether what an item describes is still to leave the device: a WINDOW record in a capture buffer, or a summary without its final
tags (R33, R180, R188). -/
def State.unwritten (s : State) (id : Nat) : Bool :=
  s.disp.finals.any (fun f => f.item == id) || (upTo 32).any (fun g => (s.gp g).cu.buf.any (fun x => x.kind == 8 && x.item == id))
def execWorkItemReady (id : Nat) (s : State) : Out := .next (if s.unwritten id then s else readyItem id s)

/-- The summaries whose tags have become final are ready (R33, R188). -/
def finalTick (s : State) : State :=
  let l := (s.disp.finals.filter (fun f => f.due ≤ s.now)).map (·.item)
  let s := { s with disp := { s.disp with finals := s.disp.finals.filter (fun f => !(f.due ≤ s.now)) } }
  forAll l readyItem s

/-- The histogram bin of a wait in core cycles. -/
def waitBin (w : Nat) : Nat := if w < 128 then 0 else min 15 (Nat.log2 w - 6)

/-- RING_FULL and its event, once per fill (R400). -/
def ringFull (s : State) : State :=
  if s.ringShort && s.disp.items.any (fun x => x.type == 7 && s.candidate x) && !s.sec.ringFullRaised then
    event EV_SEC_RING_FULL [(64, s.r .RES_PROD_COUNT)]
      { s.setF .SEC_STATE_RING_FULL with sec := { s.sec with ringFullRaised := true } }
  else s

/-- Put an item into service. -/
def serve (v : Nat) (x : Item) (s : State) : State :=
  let n := if s.disp.handed.1 = s.now then s.disp.handed.2 + 1 else 1
  let w := match x.st with | .ready t => s.now - t | _ => 0
  let s := if s.rb .DU_STAT_SHED then s else s.inc .DU_HIST_COUNT 0 (16 * s.competes x + waitBin w)
  let s := { s with disp := { s.disp with handed := (s.now, n)
                                          items := s.disp.items.map (fun y => if y.id = x.id then { y with st := .service v s.now } else y) } }
  if v = 0 then s else s.w .FC_STATE_STATE 0 2 (v - 1)

/-- An idle server takes one item; at most 4 are handed out in a core cycle. A flow core that is loading takes none. -/
def execWorkItemDispatch (server : Fin 17) (s : State) : Out := .next <|
  let v := server.val
  let s := if v = 0 then ringFull s else s
  if (s.inHand v).isSome || (s.disp.handed.1 = s.now && 4 ≤ s.disp.handed.2) || (v != 0 && s.r .FC_STATE_STATE 0 (v - 1) == 3) then s
  else match s.choose v with | some x => serve v x s | none => s

/-- Free the entry of an item that its server reports done (R358, R361, R374). -/
def freeItem (v : Nat) (x : Item) (s : State) : State :=
  let since := match x.st with | .service _ t => t | _ => s.now
  let s := { s with disp := { s.disp with
    busy := tset 0 s.disp.busy v (tget 0 s.disp.busy v + (s.now - max since s.disp.windowAt))
    items := s.disp.items.filter (fun y => y.id != x.id) } }
  let s := if v = 0 then s else s.w .FC_STATE_STATE 0 (if (s.fc (v - 1)).prog.isSome then 1 else 0) (v - 1)
  readmit s

/-- The cycles of the load window that a server's item in hand has taken. -/
def State.inService (s : State) (v : Nat) : Nat :=
  match s.inHand v with
  | some x => (match x.st with | .service _ t => s.now - max t s.disp.windowAt | _ => 0)
  | none => 0

/-- A window of 1,000,000 core cycles ends (R374); load sampling is shed with other background work. -/
def execDuLoadWindow (s : State) : Out := .next <|
  if s.now < s.disp.windowAt + 1000000 then s
  else
    let s' := if s.rb .DU_STAT_SHED then s else
      forAll (upTo 17) (fun v t => t.w .DU_LOAD_VALUE 0 (min 0xFFFF (((tget 0 s.disp.busy v + s.inService v) * 65536 + 500000) / 1000000)) v) s
    { s' with disp := { s'.disp with busy := [], windowAt := s.now } }

/-! ## Flow cores (R368 to R373, R397, R398) -/

/-- The tags that an item carries: a window's, a summary's, or those of its measurement. -/
def State.itemTags (s : State) (x : Item) : Nat :=
  match x.type with
  | 2 => x.payload % 16
  | 3 => bits x.payload 109 106
  | _ => (s.ms (bits x.payload 10 0)).tags % 16

/-- The body of a SITE_RESULT (Table TRU-11), as the core's firmware fills it. -/
def State.siteBody (s : State) (c : Nat) (z : Site) (status bin tags user : Nat) : Nat :=
  let (cause, vec, t) := tget (0, 0, 0) s.disp.sums z.pitch
  let prog := match (s.fc c).prog with | some f => f.progId | none => 0
  pack [(8, z.site), (5, z.pitch), (3, 0), (4, status), (4, tags ||| t), (5, cause), (3, 0), (16, bin), (4, c), (12, 0), (32, prog),
    (32, s.mbox.baseId), (64, vec), (64, 0), (1280, user)]

/-- Post a RESULT item: the core keeps the body until the item is done (R398). -/
def postResult (c body : Nat) (s : State) : State :=
  let a := (s.fc c).nextBody
  let s := s.onFc c (fun x => { x with bodies := tset 0 x.bodies a body, nextBody := (a + 1) % 2 ^ 32 })
  post 5 (1 + c) 7 (0x300 + c) a false s

def onSite (c site : Nat) (f : Site → Site) (s : State) : State :=
  s.onFc c (fun x => { x with prog := x.prog.map (fun (q : FlowProg) => { q with sites := q.sites.map (fun z => if z.site = site then f z else z) }) })

/-- The record of a faulted site; its USER bytes are a free value. -/
def postFault (c : Nat) (z : Site) (tags : Nat) (s : State) : State :=
  let (u, s) := s.fresh
  postResult c (s.siteBody c z 1 0xFFFF tags (u % 2 ^ 1280)) s

/-- A site faults (R372): its handler ends, the record, the event. -/
def siteFault (c : Nat) (z : Site) (cause : Nat) (x : Item) (s : State) : State :=
  let s := onSite c z.site (fun y => { y with faulted := some cause, served := some x.id }) s
  event EV_FLOW_FAULT [(4, c), (8, z.site), (8, cause)] (postFault c z (s.itemTags x) s)

/-- Whether a channel of a site's entry lies outside its pitch. -/
def State.siteLost (s : State) (z : Site) : Bool := (chansIn z.mask).any (fun ch => !(s.members z.pitch).contains (groupOf ch))

/-- What the handler of a site answers for an item. -/
def answer (site : Nat) (l : List Handler) : Handler :=
  (l.find? (fun h => match h with | .none => false | .result z _ _ => z == site | .fault z _ => z == site)).getD .none

/-- Run the handlers of an item's pitch, in ascending site number (R371, R372). -/
def runSites (c : Nat) (x : Item) (l : List Handler) (s : State) : State :=
  let s := if x.type = 3 then
      { s with disp := { s.disp with sums := tset (0, 0, 0) s.disp.sums x.key (bits x.payload 9 5, bits x.payload 73 10, bits x.payload 109 106) } }
    else s
  (s.pitchSites c x.key).foldl (fun t z =>
    if z.served = some x.id then t
    else if z.faulted.isSome then postFault c z (t.itemTags x) t
    else if t.siteLost z then siteFault c z 4 x t
    else match answer z.site l with
      | .none => t
      | .result _ bin user => postResult c (t.siteBody c z 0 (bin % 65536) (t.itemTags x) user) t
      | .fault _ cause => siteFault c z (if cause = 1 then 1 else 2) x t) s

/-- The sequencer posts that the firmware serves (R355). -/
def served (type : Nat) : Bool := type == 0xE0 || type == 0xE1 || type == 0xE2 || type == 0xFE

/-- What the MP does with an item: a RESULT joins the chain, a post of another type is discarded and counted, and an item of a
pitch without a program is discarded (R355, R399). -/
def mpDone (x : Item) (s : State) : State :=
  if x.type = 7 then
    let c := x.key - 0x300
    let body := tget 0 (s.fc c).bodies x.payload
    let s := s.onFc c (fun y => { y with bodies := tset 0 y.bodies x.payload 0 })
    appendAll (take s.tip 1 256 (bytesOf 192 body) none s)
  else if x.cls = 2 && !served x.type then s.inc .DU_STAT_SEQ_DROP
  else s

/-- A server reports its item done. A command's report is its completion or the end of its step (R362). -/
def execWorkItemDone (server : Fin 17) (results : List Handler) (s : State) : Out := .next <|
  let v := server.val
  match s.inHand v with
  | none => s
  | some x =>
    if x.type = 1 || (v != 0 && (s.fc (v - 1)).reload.isSome) then s
    else if v = 0 then freeItem 0 x (mpDone x s)
    else freeItem v x (runSites (v - 1) x results s)

/-- A handler runs longer than BUDGET (R372). -/
def execFlowBudgetTimer (core : Fin 16) (site : Nat) (s : State) : Out := .next <|
  let c := core.val
  match s.inHand (1 + c), (s.fc c).prog with
  | some x, some f =>
    (match x.st, (s.pitchSites c x.key).find? (fun z => z.site == site) with
      | .service _ t, some z =>
        if z.faulted.isNone && z.served != some x.id && (s.fc c).reload.isNone && t + 1000 * f.budget ≤ s.now then siteFault c z 3 x s else s
      | _, _ => s)
  | _, _ => s

/-- The core loads its program again: every site fresh. -/
def freshSites (f : FlowProg) : FlowProg := { f with sites := f.sites.map (fun z => { z with faulted := none, served := none }) }

/-- A core holds an item too long (R373): the core is reset and reloads as SEC.FLOW would, and the item runs once more; the second time every site
of its pitch faults and the item is done. -/
def execFlowHangTimer (core : Fin 16) (s : State) : Out := .next <|
  let c := core.val
  match s.inHand (1 + c), (s.fc c).prog with
  | some x, some f =>
    (match x.st with
      | .service _ t =>
        if s.now ≤ t + 1000 * f.budget * f.sites.length + 1000000 || (s.fc c).reload.isSome then s
        else if (s.fc c).hung = some x.id then
          let s := (s.pitchSites c x.key).foldl (fun t z => if z.served = some x.id then t else siteFault c z 5 x t) s
          freeItem (1 + c) x (s.onFc c (fun y => { y with hung := none }))
        else
          let s := faultEvent 0xA c (fun s => s) (s.w .FC_STATE_HANG 0 1 c)
          let s := measure MK_FLOW_PROG c f.progId f.digest (event EV_FLOW_FAULT [(4, c), (8, 0xFF), (8, 5)] s)
          (s.w .FC_STATE_STATE 0 3 c).onFc c (fun y => { y with hung := some x.id, reload := some s.now, prog := some (freshSites f) })
      | _ => s)
  | _, _ => s

/-! ## SEC.FLOW (R369, R370) -/

/-- The header and site entries of a flow program image. -/
structure FlowImg where
  h : Nat := 0
  ents : List Nat := []
deriving DecidableEq, Repr

def fnN (h : Nat) : Nat := bits h 104 96
def fnLen (h : Nat) : Nat := bits h 95 64
def fnCode (h : Nat) : Nat := bits h 159 128
def fnData (h : Nat) : Nat := bits h 191 160
def fnSite (h : Nat) : Nat := bits h 223 192
def fnEntry (h : Nat) : Nat := bits h 255 224
def fnBudget (h : Nat) : Nat := bits h 287 256

def State.flowImg (s : State) (d : Desc) (a : Nat) : FlowImg :=
  let h := s.winN d.path a 64
  { h := h, ents := (upTo (fnN h)).map (fun i => s.winN d.path (a + 64 + 144 * i) 144) }

def entSite (e : Nat) : Nat := bits e 7 0
def entPitch (e : Nat) : Nat := bits e 12 8
def entMask (e : Nat) : Nat := bits e 1151 128

/-- The pitches of an image. -/
def FlowImg.pitches (m : FlowImg) : List Nat := (m.ents.map entPitch).eraseDups

/-- Whether two entries of a list share a site number or a channel. -/
def entsClash : List Nat → Bool
  | [] => false
  | e :: r => r.any (fun f => entSite f == entSite e || entMask f &&& entMask e != 0) || entsClash r

/-- Whether another core's program holds a site number, a channel or the pitch of an entry. -/
def State.entHeld (s : State) (c e : Nat) : Bool :=
  ((upTo 16).filter (· != c)).any (fun k => (s.sitesOf k).any (fun z =>
    z.site == entSite e || z.pitch == entPitch e || z.mask &&& entMask e != 0))

/-- Whether an image breaks its form (R370, line 2); `body` are the bytes before the digest. -/
def State.flowBad (s : State) (c : Nat) (m : FlowImg) (body : List Byte) (digest : Nat) : Bool :=
  let h := m.h
  bits h 15 0 != 6 || fnLen h != 64 + 144 * fnN h + fnCode h + fnData h + 32 || Config.shake256 body % 2 ^ 256 != digest ||
    bits h 31 16 != 0 || bits h 127 105 != 0 || bits h 511 288 != 0 || fnN h == 0 || 256 < fnN h || fnBudget h == 0 || 10000 < fnBudget h ||
    fnCode h ≤ fnEntry h || fnCode h % 16 != 0 || fnData h % 16 != 0 || fnSite h % 64 != 0 || bits h 63 32 == 0 ||
    m.ents.any (fun e => bits e 127 13 != 0 || entMask e == 0 || s.entHeld c e ||
      (chansIn (entMask e)).any (fun ch => !(s.members (entPitch e)).contains (groupOf ch))) || entsClash m.ents

/-- The sites of an image, in ascending number. -/
def FlowImg.sites (m : FlowImg) : List Site :=
  let l := m.ents.map (fun e => ({ site := entSite e, pitch := entPitch e, mask := entMask e } : Site))
  (upTo 256).flatMap (fun n => l.filter (fun z => z.site == n))

/-- The pitches of a core's present program. -/
def State.corePitches (s : State) (c : Nat) : List Nat := ((s.sitesOf c).map (·.pitch)).eraseDups

/-- A core takes a program, or none: the keys of the old and new pitches are cancelled, and the digest is entered in the log. -/
def loadCore (c : Nat) (f : Option FlowProg) (pitches : List Nat) (s : State) : State :=
  let s := forAll ((s.corePitches c ++ pitches).eraseDups) cancelKey s
  let s := s.onFc c (fun x => { x with prog := f, hung := none, reload := none })
  let s := (s.w .FC_STATE_HANG 0 0 c).w .FC_STATE_SITES 0 (match f with | some f => f.sites.length | none => 0) c
  let s := s.w .FC_STATE_STATE 0 (if f.isSome then 3 else 0) c
  match f with
  | some f => measure MK_FLOW_PROG c f.progId f.digest s
  | none => measure MK_FLOW_PROG c 0 0 s

/-- Whether a job still loads a core. -/
def Job.loads (c : Nat) : Job → Bool | .flowEntry _ k _ => k == c | _ => false

/-- The checks of SEC.FLOW that a load and an unload share. -/
def flowBusy (s : State) (d : Desc) : List (Bool × Nat) :=
  [((s.corePitches d.a0).any (fun p => !s.idle p), ST_STATE), (s.jobs.any (Job.loads d.a0), ST_BUSY)]

/-- The digest that a flow program image carries. -/
def State.flowDigest (s : State) (d : Desc) : Nat := s.winN d.path (d.a1 + fnLen (s.flowImg d d.a1).h - 32) 32

/-- The program that SEC.FLOW loads. -/
def flowProgOf (s : State) (d : Desc) : FlowProg :=
  let m := s.flowImg d d.a1
  { progId := bits m.h 63 32, budget := fnBudget m.h, sites := m.sites, digest := s.flowDigest d }

/-- The further checks of a load. -/
def flowChecks (s : State) (d : Desc) : List (Bool × Nat) :=
  let m := s.flowImg d d.a1
  let n := fnLen m.h
  let digest := s.flowDigest d
  let blk := blockLen (s.winN d.path (d.a1 + n) 16)
  let sig := s.rb .SEC_STATE_OWNER
  [s.rfault d d.a1 64, reachD d d.a1 n, s.rfault d d.a1 n, (m.pitches.any (fun p => !s.idle p), ST_STATE),
    (s.flowBad d.a0 m (s.winLoad d.path d.a1 (n - 32)) digest, ST_RANGE),
    reachD d (d.a1 + n) (if sig then blk else 0), s.rfault d (d.a1 + n) (if sig then blk else 0),
    (s.ownerFails 6 digest (s.winLoad d.path (d.a1 + n) blk), ST_AUTH),
    (917504 < fnCode m.h + fnData m.h + fnN m.h * fnSite m.h, ST_NOSPACE)]

/-- SEC.FLOW. ARG0 the core, ARG1 the image, or 0 to unload. A core whose ENTRY still runs gives ST_BUSY. -/
def execSecFlow (d : Desc) (s : State) : Out := .next <| runCmd 0x0D20 d [args d 2, unit 16 d.a0, reachD d d.a1 (if d.a1 = 0 then 0 else 64)]
  (fun s => checked (flowBusy s d)
    (if d.a1 = 0 then (loadCore d.a0 none [] s, .done ST_OK)
    else checked (flowChecks s d)
      ({ loadCore d.a0 (some (flowProgOf s d)) (s.flowImg d d.a1).pitches s with jobs := s.jobs ++ [.flowEntry d d.a0 s.now] }, .later) s) s) s

/-- The SEC.FLOW whose ENTRY a core runs. -/
def State.entryJob (s : State) (c : Nat) : Option (Desc × Nat) :=
  s.jobs.findSome? (fun j => match j with | .flowEntry d k t => if k = c then some (d, t) else none | _ => none)

/-- A core is left without a program. -/
def emptyCore (c : Nat) (s : State) : State :=
  ((s.w .FC_STATE_STATE 0 0 c).w .FC_STATE_SITES 0 0 c).onFc c (fun x => { x with prog := none, reload := none })

/-- ENTRY returns (R370), or a reloaded core takes its item again (R373). -/
def execFlowEntryReturn (core : Fin 16) (s : State) : Out := .next <|
  let c := core.val
  match s.entryJob c, (s.fc c).reload with
  | some (d, t), _ =>
    complete 0x0D20 d ST_OK false 0 0 0 { s.w .FC_STATE_STATE 0 1 c with jobs := s.jobs.filter (· != .flowEntry d c t) }
  | none, some _ =>
    let s := (s.w .FC_STATE_STATE 0 2 c).onFc c (fun x => { x with reload := none })
    { s with disp := { s.disp with items := s.disp.items.map (fun x => match x.st with
      | .service v _ => if v = 1 + c then { x with st := .service v s.now } else x
      | _ => x) } }
  | none, none => s

/-- ENTRY does not return within 10 ms (R370). -/
def execFlowEntryTimeout (core : Fin 16) (s : State) : Out := .next <|
  let c := core.val
  match s.entryJob c, (s.fc c).reload with
  | some (d, t), _ =>
    if s.now < t + 10000000 then s
    else complete 0x0D20 d ST_TIMEOUT false 0 0 0 { emptyCore c s with jobs := s.jobs.filter (· != .flowEntry d c t) }
  | none, some t =>
    if s.now < t + 10000000 then s
    else
      let s := emptyCore c s
      { s with disp := { s.disp with items := s.disp.items.map (fun x => match x.st with
        | .service v _ => if v = 1 + c then { x with st := .ready s.now } else x
        | _ => x) } }
  | none, none => s

end Sys2Proof.Machine
end

