-- ==== Sys2Proof/Machine/Rec.lean ====
section
/-! DEFINITION. Record memory, flushes, life records, the calendar and the REC commands (R432 to R442, R457). -/

namespace Sys2Proof.Machine

abbrev EV_REC_WRITE_FAIL : Nat := 0x0E02
abbrev EV_REC_KEY_DUE : Nat := 0x0E03

/-! ## Records (Table REC-1, R433 to R435) -/

/-- Instances and size of each record; none for an unknown RID. -/
def recShape (rid : Nat) : Option (Nat × Nat) :=
  match rid with
  | 1 => some (1, 64) | 2 => some (6, 1601536) | 3 => some (1, 20800) | 4 => some (16, 128) | 5 => some (1, 64) | 6 => some (1, 64)
  | 7 => some (1, 64) | 8 => some (1, 64) | 9 => some (1, 64) | 0xA => some (1, 32776) | 0xB => some (1, 64) | 0xC => some (1, 64)
  | 0x10 => some (1, 1920) | 0x11 => some (1, 328) | 0x12 => some (48, 64) | 0x13 => some (1, 112) | 0x14 => some (1, 40)
  | 0x15 => some (128, 32) | 0x16 => some (1, 40) | 0x17 => some (1, 28) | 0x18 => some (1, 112) | 0x20 => some (16, 64)
  | _ => none

/-- The life records, in ascending RID and instance (R436). -/
def lifeRecs : List (Nat × Nat) :=
  [0x10, 0x11, 0x12, 0x13, 0x14, 0x15, 0x16, 0x17, 0x18].flatMap (fun rid =>
    (upTo (match recShape rid with | some (n, _) => n | none => 0)).map (fun i => (rid, i)))

/-- A slot of record memory as bytes (Tables CAL-4 to CAL-6). -/
def State.slotBytes (s : State) (k : Nat) : List Byte :=
  let z := s.slotSet k
  let point := if k = s.r .CAL_MAP_STAGE then 7 else ((upTo 5).find? (fun p => s.slotOf p == k)).getD 7
  bytesOf 64 (pack [(16, 4), (3, point), (1, 0), (4, if point = 7 then 3 else z.source), (8, 0), (16, unsint 16 z.temp), (16, z.epoch), (64, z.time),
    (128, 0), (256, z.digestNow)]) ++ setBytes z

/-- The UPDSEQ and the content bytes of a record; zeros where no copy is valid (R434). A calibration slot has a single copy without
an UPDSEQ. -/
def State.recBytes (s : State) (rid inst off n : Nat) : Nat × List Byte :=
  if rid = 2 then (0, ((s.slotBytes inst).drop off).take n)
  else match (s.rec' rid inst).valid with
    | some c => (c.upd, c.data.rds off n)
    | none => (0, List.replicate n 0#8)

/-- The delivery of REC.READ: the header of 16 bytes, then the bytes. ARG0 to ARG4 RID, instance, offset, length, address. -/
def recDeliver (d : Desc) (st : Nat) (s : State) : State × Reply :=
  let size := match recShape d.a0 with | some (_, n) => n | none => 0
  let (u, b) := s.recBytes d.a0 d.a1 d.a2 d.a3
  let s := s.winStore d.path d.a4 (bytesOf 16 (pack [(8, d.a0), (8, 0), (16, d.a1), (32, u), (32, size)]) ++ b)
  (if st = ST_STALE then s.inc .REC_STAT_STALE_CNT else s, .done st)

/-- Whether a reader finds the record changing (R435): a life record during a flush, where the record that the flush is writing at
the moment is a free value. -/
def State.changing (s : State) (rid : Nat) : Bool × State :=
  if 0x10 ≤ rid && rid ≤ 0x18 && s.rb .REC_STAT_FLUSHING then (s.fresh.1 % 2 == 1, s.fresh.2) else (false, s)

/-- Whether REC.READ names no part of a record. -/
def recBad (d : Desc) : Bool :=
  d.a3 < 4 || 65536 < d.a3 || d.a3 % 4 != 0 || match recShape d.a0 with | some (n, size) => n ≤ d.a1 || size < d.a2 + d.a3 | none => true

/-- REC.READ (R435). -/
def execRecRead (d : Desc) (s : State) : Out := .next <| runCmd 0x0E01 d
  [args d 5, reachD d d.a4 (16 + d.a3), s.wdown d.a4 (16 + d.a3)]
  (fun s => checked [(recBad d, ST_RANGE)]
    (let (busy, t) := s.changing d.a0
     if busy then ({ t with jobs := t.jobs ++ [.recRead d 1 t.now] }, .later) else recDeliver d ST_OK t) s) s

/-- A reader tries again after 10 µs; after 8 attempts it delivers what it read last, with ST_STALE (R435). -/
def execRecReadRetry (s : State) : Out := .next <|
  match s.jobs.find? (Job.readDue s.now) with
  | some (.recRead d k t) =>
    let (busy, s) := s.changing d.a0
    let s := { s with jobs := s.jobs.filter (· != .recRead d k t) }
    if busy && k + 1 < 8 then { s with jobs := s.jobs ++ [.recRead d (k + 1) s.now] }
    else
      let (s, a) := recDeliver d (if busy then ST_STALE else ST_OK) s
      reply 0x0E01 d a s
  | _ => s

/-- A copy whose verify failed twice leaves service (R434, source 0x0B). -/
def copyFails (rid inst copy : Nat) (s : State) : State :=
  let s := s.onRec rid inst (fun x => if copy = 0 then { x with a := { x.a with out := true } } else { x with b := { x.b with out := true } })
  event EV_REC_WRITE_FAIL [(8, rid), (16, inst)]
    (faultEvent 0xB (rid % 256 + 256 * (inst % 65536) + 2 ^ 24 * (copy % 2)) (fun s => s) (s.setF .REC_STAT_WR_FAULT))

/-! ## Time anchor and calendar (R439, R440) -/

/-- The epoch record with its anchor. -/
def saveEpoch (epoch ptpS ptpNs loc ancEpoch : Nat) (s : State) : State :=
  recWrite 7 0 (fun u => bytesOf 64 (pack [(32, u), (32, 0), (16, epoch), (48, ptpS), (32, ptpNs), (64, loc), (16, ancEpoch)])) s

/-- The anchor is written at a flush while LOCKED. -/
def saveAnchor (s : State) : State :=
  if s.rb .TM_STATUS_LOCKED then
    let s := saveEpoch s.clk.epoch (s.clk.ns / 1000000000) (s.clk.ns % 1000000000) s.clk.ns s.clk.epoch s
    { s with recm := { s.recm with hasAnchor := true, anchorOn := s.recm.onTime } }
  else s

/-- The calendar time in PTP seconds. -/
def State.calendar (s : State) : Option Nat :=
  if s.rb .TM_STATUS_LOCKED then some (s.clk.ns / 1000000000)
  else if !s.recm.hasAnchor then none
  else
    let ptp := s.recN 7 0 10 6
    if s.recN 7 0 28 2 = s.clk.epoch then some (ptp + (s.clk.ns - s.recN 7 0 20 8) / 1000000000)
    else some (ptp + (s.recm.onTime - s.recm.anchorOn))

/-- The dates of the CALENDAR record. -/
def State.calDue (s : State) : Nat := s.recN 0xB 0 8 6
def State.keyDue (s : State) : Nat := s.recN 0xB 0 16 6

abbrev DAY : Nat := 86400000000000

/-- Whether a date x is due at time t and its event is at least a day old. -/
def State.dateDue (s : State) (t x last : Nat) : Bool := x != 0 && x ≤ t && (last == 0 || last + DAY ≤ s.now)

/-- The event of a due calibration date, and that of a due key date. -/
def calDueEvent (t : Nat) (s : State) : State :=
  if s.dateDue t s.calDue s.recm.calDueAt then event EV_CAL_DUE [(48, s.calDue)] { s with recm := { s.recm with calDueAt := s.now } } else s
def keyDueEvent (t : Nat) (s : State) : State :=
  if s.dateDue t s.keyDue s.recm.keyDueAt then event EV_REC_KEY_DUE [(48, s.keyDue)] { s with recm := { s.recm with keyDueAt := s.now } } else s

/-- A due date that has passed is announced once in every 24 hours. -/
def execCalendarCheck (s : State) : Out := .next <|
  match s.calendar with
  | none => s
  | some t => keyDueEvent t (calDueEvent t s)

/-- REC.CALENDAR. ARG0 the choice (0 CAL_DUE, 1 KEY_DUE), ARG1 the PTP seconds. -/
def execRecCalendar (d : Desc) (s : State) : Out := .next <| runCmd 0x0E03 d [args d 2, choice 2 d.a0]
  (fun s => checked [(2 ^ 48 ≤ d.a1, ST_RANGE)]
    (let cal := if d.a0 = 0 then d.a1 else s.calDue
     let key := if d.a0 = 1 then d.a1 else s.keyDue
     (recWrite 0xB 0 (fun u => bytesOf 64 (pack [(32, u), (32, 0), (48, cal), (16, 0), (48, key)])) s, .done ST_OK)) s) s

/-! ## Flushing (R436, R437) -/

/-- A life record's bytes from its shadow. -/
def State.lifeBytes (s : State) (rid inst u : Nat) : List Byte :=
  let size := match recShape rid with | some (_, n) => n | none => 8
  bytesOf 8 (pack [(32, u), (8, rid), (8, 1), (16, inst)]) ++ (s.rec' rid inst).shadow.rds 8 (size - 8)

/-- Every shadow is copied to record memory, in ascending order. -/
def flushLife (s : State) : State := lifeRecs.foldl (fun t (rid, i) => recWrite rid i (t.lifeBytes rid i) t) s

/-- REC.FLUSH: completes when the flush that it asked for completes. -/
def execRecFlush (d : Desc) (s : State) : Out := .next <| runCmd 0x0E02 d [args d 0]
  (fun s => (askFlush { s with jobs := s.jobs ++ [.flush d (s.rb .REC_STAT_FLUSHING)] }, .later)) s

/-- 10 minutes after the last flush. -/
def execFlushTimer (s : State) : Out := .next <|
  if 600 ≤ s.r .REC_AGE_SECONDS && !s.rb .REC_STAT_FLUSHING then askFlush s else s

/-- The waiting REC.FLUSH commands whose flush has completed. -/
def flushJobs (s : State) : State :=
  let done := s.jobs.filter (fun j => match j with | .flush _ false => true | _ => false)
  let s := { s with jobs := (s.jobs.filter (fun j => !done.contains j)).map (fun j => match j with | .flush d _ => .flush d false | j => j) }
  done.foldl (fun t j => complete 0x0E02 j.desc ST_OK false 0 0 0 t) s

/-! ## Life records (R437, R438) -/

/-- The THERM bin of a temperature in 1/16 °C. -/
def thermBin (t : Int) : Nat := min 94 ((t + 640) / 32).toNat

/-- A second in the THERM bin of one source: 225 s make one count of 1/16 h, and the remainder is carried. -/
def thermSecond (src : Nat) (t : Int) (s : State) : State :=
  let k := 95 * src + thermBin t
  let n := tget 0 s.recm.thermRem k + 1
  let s := { s with recm := { s.recm with thermRem := tset 0 s.recm.thermRem k (n % 225) } }
  if n = 225 then lifeAdd 0x10 0 (8 + 4 * k) 4 1 s else s

/-- A second of every sensor's life, of the on-time and of the age of the shadows. -/
def lifeTick (s : State) : State :=
  let s := s.recm.maxNow.foldl (fun t e => thermSecond e.1 e.2 t) s
  let s := { s with recm := { s.recm with maxNow := [], onTime := s.recm.onTime + 1 } }
  (lifeAdd 0x14 0 32 8 1 s).inc .REC_AGE_SECONDS

/-- Each second of on-time. -/
def execLifeSecond (s : State) : Out := .next <|
  if (lifeTick s).rb .TM_STATUS_HOLDOVER then lifeAdd 0x17 0 12 4 1 (lifeTick s) else lifeTick s

/-- One rail's reading: a new lowest or highest value is kept with its time. -/
def railRead (t : State) (i v : Nat) : State :=
  let a := 8 + 16 * i
  let none' := t.life 0x11 0 a 16 == 0
  if 20 ≤ i || 65536 ≤ v then t
  else
    let t := if v < t.life 0x11 0 a 2 || none' then setLife 0x11 0 a 2 v (setLife 0x11 0 (a + 8) 4 t.recm.onTime t) else t
    if t.life 0x11 0 (a + 2) 2 < v || none' then setLife 0x11 0 (a + 2) 2 v (setLife 0x11 0 (a + 12) 4 t.recm.onTime t) else t

/-- The rail monitors' readings in mV, by their row; an entry never written takes both extremes. -/
def execRailSample (mv : List (Nat × Nat)) (s : State) : Out := .next <| mv.foldl (fun t e => railRead t e.1 e.2) s

/-- A full hour of a lane's ACTIVE time, with the bin of its symbol error ratio. -/
def execLaneHour (lane : Fin 48) (bin : Nat) (s : State) : Out := .next <|
  let l := lane.val
  if s.r .LK_LANE_LSTATE (l / 4) (l % 4) != LACTIVE || s.now < (s.ln l).activeAt + 3600000000000 || 10 ≤ bin then s
  else lifeAdd 0x12 l (8 + 4 * bin) 4 1 (s.onLn l (fun x => { x with activeAt := s.now }))

end Sys2Proof.Machine
end

