-- ==== Sys2Proof/Machine/Power.lean ====
section
/-! DEFINITION. Power, start-up and thermal management: sensors, throttle, critical temperature, shutdown, the VCORE regulator,
the supervisory contacts, the start phases, flushes that end, and the THM commands (R379 to R382, R388, R402, R410 to R431). -/

namespace Sys2Proof.Machine

abbrev EV_THM_THROTTLE : Nat := 0x0F01
abbrev EV_THM_REFUSE : Nat := 0x0F02
abbrev EV_THM_CRITICAL : Nat := 0x0F03
abbrev EV_THM_SHUTDOWN : Nat := 0x0F04
abbrev EV_THM_SENSOR_FAIL : Nat := 0x0F05
abbrev EV_THM_AVS_FAIL : Nat := 0x0F06

def onPwr (f : Pwr → Pwr) (s : State) : State := { s with pwr := f s.pwr }
def onRecm (f : RecMem → RecMem) (s : State) : State := { s with recm := f s.recm }

/-! ## Readings (R421, R422) -/

/-- The TLIM and PCAP in force: while ticks run those of the last tick (Table PWR-6). -/
def State.tlim (s : State) : Nat := if s.pwr.ticking then s.pwr.tlim else s.r .THM_CFG_TLIM
def State.pcap (s : State) : Nat := if s.pwr.ticking then s.pwr.pcap else s.r .THM_CFG_PCAP

/-- The groups whose sensors count (R422). -/
def State.onGroups (s : State) : List Nat := maskBits 32 (s.r .SYS_UNITS_G_G_EN)

/-- What a group contributes to Tmax: its highest working sensor, TLIM when all have failed, nothing before its first sample. -/
def State.groupMax (s : State) (g : Nat) : Option Int :=
  match s.working g with
  | x :: r => some (r.foldl max x)
  | [] => if (upTo 3).all (fun i => (tget {} s.pwr.sensors (3 * g + i)).failed) then some (16 * (s.tlim : Nat)) else none

/-- Tmax. -/
def State.tmax (s : State) : Option Int :=
  match s.onGroups.filterMap s.groupMax with
  | x :: r => some (r.foldl max x)
  | [] => none

/-- Whether Tmax is at least a temperature in 1/16 °C. -/
def State.hot (s : State) (t : Int) : Bool := match s.tmax with | some x => decide (t ≤ x) | none => false

/-- The sensor that reads Tmax; 255 where a failed group decides it. -/
def State.hotSensor (s : State) : Nat :=
  ((upTo 96).find? (fun n =>
    let x := tget {} s.pwr.sensors n
    s.onGroups.contains (n / 3) && x.seen && !x.failed && some x.temp == s.tmax)).getD 255

/-- The reading that a stack counts as: a failed readout counts as 95 °C (R253). -/
def State.stackReading (s : State) (v : Nat) : Int := if s.rb .VS_STAT_NOREAD v then 1520 else s.stackTemp v

/-- Whether a source is sampled now: at an instant of the grid of 50 µs, and in the 1 ms regime at every 20th (R421; the grid begins with
the model's time base, log entry 99). -/
def Sensor.due (x : Sensor) (now : Nat) : Bool := (!x.seen || x.at' < now) && now % (if x.fast then 50000 else 1000000) == 0

/-- A die sensor fails (R422). -/
def sensorFail (n : Nat) (s : State) : State :=
  let s := onPwr (fun p => { p with sensors := tset {} p.sensors n { tget {} p.sensors n with failed := true, fast := false } }) s
  let s := s.w .THM_FAILMAP_MAP 0 (s.r .THM_FAILMAP_MAP 0 (n / 32) ||| 2 ^ (n % 32)) (n / 32)
  let s := (s.inc .THM_CNT_FAILED).w .THM_SENSOR_VALUE 0 0x8000 n
  faultEvent 4 0 (fun s => s) (event EV_THM_SENSOR_FAIL [(8, n)] s)

/-- A conversion of a die sensor, or none. -/
def sensorRead (n : Nat) (v : Option Int) (s : State) : State :=
  match v with
  | none => sensorFail n s
  | some t =>
    if t < -640 || 2400 < t then sensorFail n s
    else
      (onPwr (fun p => { p with sensors := tset {} p.sensors n { tget {} p.sensors n with
          temp := t, seen := true, at' := s.now, fast := decide (16 * (s.r .THM_CFG_TLIM : Int) - 128 ≤ t) } }) s).w
        .THM_SENSOR_VALUE 0 (unsint 16 t) n

/-- The median of three readings. -/
def median3 (a b c : Int) : Int := max (min a b) (min (max a b) c)

/-- The 15 °C rule: three samples in a row away from the median of the group's three sensors. -/
def sensorApart (n : Nat) (s : State) : State :=
  let g := n / 3
  let x := tget {} s.pwr.sensors n
  match s.working g with
  | [a, b, c] =>
    let far := decide (240 < (x.temp - median3 a b c).natAbs)
    let k := if far then x.apart + 1 else 0
    let s := onPwr (fun p => { p with sensors := tset {} p.sensors n { x with apart := k } }) s
    if 3 ≤ k then sensorFail n s else s
  | _ => s

/-! ## Life records of temperatures (R438) -/

/-- The bin of a swing in CYCLE; swings below 10 °C are not counted. -/
def swingBin (a : Int) : Option Nat := if a < 160 then none else some (min 4 (if a < 320 then 0 else (a / 320).toNat))

/-- A reading reaches the peak-and-valley detector of a source. -/
def swing (src : Nat) (t : Int) (s : State) : State :=
  let x := tget {} s.recm.swings src
  let put := fun (y : Swing) (s : State) => onRecm (fun r => { r with swings := tset {} r.swings src y }) s
  if !x.seen then put { ext := t, rising := true, peak := t, seen := true } s
  else if x.rising then
    (if x.ext < t then put { x with ext := t } s
     else if t ≤ x.ext - 80 then put { x with rising := false, peak := x.ext, ext := t } s
     else s)
  else if t < x.ext then put { x with ext := t } s
  else if x.ext + 80 ≤ t then
    let s := put { x with rising := true, ext := t } s
    (match swingBin (x.peak - x.ext) with | some b => lifeAdd 0x13 0 (8 + 20 * src + 4 * b) 4 1 s | none => s)
  else s

/-- A sampled temperature of a source (0 the die, 1 to 4 the stacks) reaches the life records. -/
def lifeTemp (src : Nat) (t : Int) (s : State) : State :=
  let x := tget (-10000) s.recm.maxNow src
  let s := onRecm (fun r => { r with maxNow := tset (-10000) r.maxNow src (max x t) }) s
  let s := if sint 16 (s.life 0x10 0 (1908 + 2 * src) 2) < t then setLife 0x10 0 (1908 + 2 * src) 2 (unsint 16 t) s else s
  swing src t s

/-! ## Throttling (R423, R424) -/

/-- The VCORE cap in 10 mW: min(PCAP, 110 W × (1 − 0.05 × k)). -/
def State.vcap (s : State) : Nat := min (100 * s.pcap) (11000 - 550 * s.r .THM_STATE_CAP_STEP)
def State.overCap (s : State) : Bool := s.vcap < s.r .THM_VCORE_PWR

/-- The stage that follows from k, the cap and the critical state (Table PWR-4); background work is shed from SHED on (R84, R363). -/
def restage (s : State) : State :=
  let shed := s.r .THM_STATE_CAP_STEP != 0 || s.overCap
  let st := if s.pwr.critical then 3 else if s.pwr.refuse then 2 else b2n shed
  let s := (s.w .THM_STATE_STAGE 0 st).w .DU_STAT_SHED 0 (b2n (st != 0))
  if st = 0 then s else releaseBorrowed s

/-- REFUSE begins or ends at a tick; as it begins, it applies to the starts of its core cycle (R424). -/
def setRefuse (b : Bool) (s : State) : State :=
  if b == s.pwr.refuse then s
  else
    let t := event EV_THM_REFUSE [(8, b2n b)] (onPwr (fun p => { p with refuse := b }) (if b then s.setF .THM_SEEN_REFUSE_SEEN else s))
    if b then refuseStarts (fun _ => true) t else t

/-- A change of k. -/
def setK (k : Nat) (s : State) : State :=
  if s.r .THM_STATE_CAP_STEP = k then s
  else event EV_THM_THROTTLE [(5, k), (16, s.r .THM_STATE_TMAX)] (s.w .THM_STATE_CAP_STEP 0 k)

/-- k leaves 0: the ticks begin. -/
def beginTicks (k : Nat) (s : State) : State :=
  let tl := s.r .THM_CFG_TLIM
  let pc := s.r .THM_CFG_PCAP
  let s := (s.setF .THM_SEEN_THROTTLE_SEEN).inc .THM_CNT_THROTTLE_CNT
  setK k (onPwr (fun p => { p with ticking := true, tickAt := s.now + 10000000, tlim := tl, pcap := pc }) s)

/-! ## Critical temperature (R425) -/

/-- The device becomes critical: starts of this core cycle are refused, k, the event, running pitches stop at a boundary, armed ones
return to IDLE. -/
def goCritical (s : State) : State :=
  let s := refuseStarts (fun _ => true) s
  let s := if s.pwr.ticking then setK 16 s else beginTicks 16 s
  let s := event EV_THM_CRITICAL [(16, s.r .THM_STATE_TMAX), (8, s.hotSensor)]
    ((onPwr (fun p => { p with critical := true }) (s.setF .THM_SEEN_CRIT_SEEN)).inc .THM_CNT_CRIT_CNT)
  forAll (upTo 32) (fun p t =>
    if t.pstate p == RUNNING then planStop p { cause := 0xB, when' := .boundary (t.now + 24) } t
    else if t.pstate p == ARMED then abandon p 0xB t
    else t) s

/-! ## Shutdown (R426, R427) -/

/-- The Ridge ports go to electrical idle. -/
def portsOff (s : State) : State := forAll (upTo 12) (fun n t => shutPort n POFF t) s

/-- The shutdown record (Table PWR-5). -/
def State.shutRecord (s : State) (cause source temp run id upd : Nat) : List Byte :=
  bytesOf 64 (pack [(8, 1), (8, cause), (8, source), (8, 0), (32, id), (16, temp), (16, 0), (64, s.clk.ns), (16, s.clk.epoch),
    (5, s.r .THM_STATE_CAP_STEP), (11, 0), (32, upd), (32, run)])

/-- SHUT_PEND in record memory and in THM_STATE. -/
def setShutPend (b : Bool) (s : State) : State :=
  recWrite 9 0 (fun u => bytesOf 64 (pack [(32, u), (32, 0), (1, b2n b)])) (s.w .THM_STATE_SHUT_PEND 0 (b2n b))

/-- Shutdown: every channel parks, THERMTRIP_N goes low, the record, the flush and the event, and the clocks stop. -/
def shutdown (cause source temp : Nat) (s : State) : State :=
  if s.pwr.shut then s
  else
    let run := maskOf ((upTo 32).filter (fun p => s.pstate p == RUNNING || s.pstate p == STOPPING))
    let id := s.recN 8 0 4 4 + 1
    let s := parkAll 7 s
    let s := recWrite 8 0 (s.shutRecord cause source temp run id) s
    let s := saveChain (setShutPend true (s.w .THM_SHUT_ID_SHUT_ID 0 id))
    let s := lifeAdd 0x14 0 20 4 1 s
    let s := event EV_THM_SHUTDOWN [(8, cause), (8, source), (32, id)] s
    onPwr (fun p => { p with shut := true, thermTrip := true, phase := 0 }) (portsOff (s.w .SYS_STATE_READY 0 0))

/-! ## Samples (R235, R421 to R426) -/

/-- The state in which firmware and sampling are stopped: a held reset, PWRFAIL_N, or shutdown. -/
def State.stopped (s : State) : Bool := s.pwr.porstLow || s.pwr.warmLow || s.pwr.warmFlush || s.pwr.dead || s.pwr.shut

/-- Readings of the stacks that are due. -/
def stacksRead (l : List (Nat × Option Int)) (s : State) : State :=
  let s := stackSamples l s
  l.foldl (fun t (v, r) =>
    let x : Sensor := { temp := r.getD 1520, seen := true, at' := t.now, fast := decide (1232 ≤ r.getD 1520) }
    let t := onPwr (fun p => { p with stackTemps := tset {} p.stackTemps v x }) t
    match r with | some c => lifeTemp (1 + v) c t | none => t) s

/-- Readings of the die sensors that are due, and the targets of their groups. -/
def dieRead (l : List (Nat × Option Int)) (s : State) : State :=
  let s := l.foldl (fun t (n, v) => sensorRead n v t) s
  let s := l.foldl (fun t (n, _) => if (tget {} t.pwr.sensors n).failed then t else sensorApart n t) s
  let s := forAll ((l.map (fun e => e.1 / 3)).eraseDups) (fun g t => takeTemp g { t.onGp g (fun z => { z with sampled := true }) with cal := { t.cal with due := t.cal.due ++ [g] } }) s
  match s.tmax with
  | some t => if l.isEmpty then s else lifeTemp 0 t s
  | none => s

/-- The throttle and the critical state after a sample. -/
def throttle (s : State) : State :=
  let s := match s.tmax with | some t => s.w .THM_STATE_TMAX 0 (unsint 16 t) | none => s
  let fast := s.pwr.sensors.any (fun e => e.2.fast && s.onGroups.contains (e.1 / 3)) || s.pwr.stackTemps.any (fun e => e.2.fast)
  let s := s.w .THM_STATE_FAST 0 (b2n fast)
  let s :=
    if s.hot 1760 && !s.pwr.critical then goCritical s
    else if s.pwr.critical && !s.hot 1680 then onPwr (fun p => { p with critical := false }) s
    else if !s.pwr.ticking && s.hot (16 * (s.tlim : Nat)) then beginTicks 1 s
    else s
  restage s

/-- The shutdown limits after a sample. -/
def shutLimits (die hbm : List (Nat × Option Int)) (s : State) : State :=
  match die.find? (fun e => match e.2 with | some t => decide (1840 ≤ t) && !(tget {} s.pwr.sensors e.1).failed | none => false) with
  | some e => shutdown 1 e.1 (unsint 16 (e.2.getD 0)) s
  | none =>
    match hbm.find? (fun e => match e.2 with | some t => decide (1680 ≤ t) | none => false) with
    | some e => shutdown 3 e.1 (unsint 16 (e.2.getD 0)) s
    | none => s

/-- The readings that a sample takes: of sensors of enabled groups and of stacks that are due and have not failed. -/
def State.dieTaken (s : State) (die : List (Nat × Option Int)) : List (Nat × Option Int) := die.filter (fun e =>
  let x := tget {} s.pwr.sensors e.1
  decide (e.1 < 96) && s.onGroups.contains (e.1 / 3) && !x.failed && x.due s.now)
def State.stacksTaken (s : State) (hbm : List (Nat × Option Int)) : List (Nat × Option Int) :=
  hbm.filter (fun e => decide (e.1 < 4) && (tget {} s.pwr.stackTemps e.1).due s.now)

/-- A grid instant: the readings of the sources that it samples; none is a source without a conversion. -/
def execThermalSample (die hbm : List (Nat × Option Int)) (s : State) : Out := .next <|
  if s.stopped then s
  else
    let l := s.dieTaken die
    let m := s.stacksTaken hbm
    settle (shutLimits l m (throttle (dieRead l (stacksRead m s))))

/-- The analog comparator of a die sensor at 115 °C (R426). -/
def execDieTrip (sensor : Fin 96) (s : State) : Out := .next <|
  if s.pwr.porstLow || s.pwr.dead then s else settle (shutdown 2 sensor.val 0x7FFF s)

/-- A throttle tick: the step goes up while a sensor is hot and down below the hysteresis, and the caps follow it. -/
def throttleStep (s : State) : State :=
  let tl := s.r .THM_CFG_TLIM
  let pc := s.r .THM_CFG_PCAP
  let s := onPwr (fun p => { p with tickAt := s.now + 10000000, tlim := tl, pcap := pc }) s
  let k := s.r .THM_STATE_CAP_STEP
  let k' := if s.hot (16 * (tl : Nat)) then min 16 (k + 1) else if s.hot (16 * (tl : Nat) - 48) then k else k - 1
  let s := setK k' s
  let s := if k' = 0 then onPwr (fun p => { p with ticking := false }) s else s
  restage (setRefuse (k' != 0 && s.overCap) s)

/-- A tick of 10 ms (R423, R424): THM_CFG applies, k moves by at most 1, REFUSE is decided, and the ticks end at k = 0. -/
def execThrottleTick (s : State) : Out := .next <|
  if s.stopped || !s.pwr.ticking || s.now < s.pwr.tickAt then s
  else throttleStep s

/-! ## VCORE (R413, R414) -/

/-- The regulator no longer regulates: AVS_HOLD until the next start. -/
def avsFail (s : State) : State :=
  if s.rb .THM_STATE_AVS_HOLD then s
  else event EV_THM_AVS_FAIL [(10, s.r .THM_VCORE_VSET)] (s.setF .THM_STATE_AVS_HOLD)

/-- An attempt without acknowledge (source 0x05). -/
def avsNack (s : State) : State := faultEvent 5 0 avsFail s

/-- The margin rules, in force from the end of VCM training: more VSET below 2 steps, less after 100 ms above 4. -/
def avsMargin (margin : Nat) (s : State) : State :=
  let v := s.r .THM_VCORE_VSET
  let hold := s.rb .THM_STATE_AVS_HOLD
  if s.pwr.phase < 5 then s
  else
    let ms := if 4 < margin then s.pwr.marginMs + 1 else 0
    let s :=
      if margin < 2 then onPwr (fun p => { p with marginMs := 0 }) (s.w .THM_VCORE_VSET 0 (min 800 (v + 10)))
      else if 100 ≤ ms then onPwr (fun p => { p with marginMs := 0 }) (if hold then s else s.w .THM_VCORE_VSET 0 (max 600 (v - 5)))
      else onPwr (fun p => { p with marginMs := ms }) s
    if hold && margin = 0 then parkAll 6 s else s

/-- A reading of the core supply: the deviation from VSET, the power and the margin. -/
def avsReading (ack : Bool) (mv ma margin : Nat) (s : State) : State :=
  let s := onPwr (fun p => { p with avsAt := s.now }) s
  let v := s.r .THM_VCORE_VSET
  let mv := if s.rb .THM_STATE_AVS_HOLD then v else mv
  let s := if ack then s else avsNack s
  let off := ack && (v + 15 < mv || mv + 15 < v)
  let dev := if off then s.pwr.devMs + 1 else 0
  let s := onPwr (fun p => { p with devMs := dev }) s
  let s := if 10 ≤ dev then avsFail s else s
  let s :=
    if ack || s.rb .THM_STATE_AVS_HOLD then
      let l := (s.pwr.samples ++ [mv * ma / 10000]).drop (s.pwr.samples.length - 9)
      onPwr (fun p => { p with samples := l }) (s.w .THM_VCORE_PWR 0 (min 65535 (l.foldl (· + ·) 0 / l.length)))
    else s
  settle (restage (avsMargin margin s))

/-- The 1 ms control step: whether the regulator acknowledged, READ_VOUT in mV and READ_IOUT in mA (on-die monitors while
AVS_HOLD is set), and the margin in steps. -/
def execAvsTick (ack : Bool) (mv ma margin : Nat) (s : State) : Out := .next <|
  if s.stopped || s.pwr.phase = 0 || s.now < s.pwr.avsAt + 1000000 then s
  else avsReading ack mv ma margin s

/-- A PMBus attempt without acknowledge within 1 ms. -/
def execPmbusTimeout (s : State) : Out := .next <| if s.stopped then s else avsNack s

/-! ## Reset (R415 to R418) -/

/-- Record memory as MRAM alone keeps it: shadows from the valid copies, histories and detectors empty. -/
def RecMem.reload (r : RecMem) : RecMem :=
  let recs := (r.recs.map (fun e =>
    let x := e.2
    (e.1, if 0x10 ≤ e.1 / 65536 && e.1 / 65536 ≤ 0x18 then { x with shadow := match x.valid with | some c => c.data | none => [] } else x))).filter
      (fun e => e.2 != {})
  { recs := recs, hasAnchor := r.hasAnchor, anchorOn := r.anchorOn }

/-- What leaves a reset of every domain but VAUX: record memory, the OTP fields, the keys, boot flash and the deep stores, with the
registers that record memory feeds. -/
def domainReset (r : RecMem) (s : State) : State :=
  let t : State := {
    pending := s.pending, now := s.now, free := s.free
    mem := { flash := s.mem.flash, cx0 := s.mem.cx0, cx1 := s.mem.cx1, cx0Bad := s.mem.cx0Bad, cx1Bad := s.mem.cx1Bad }
    vcm := { list := s.vcm.list }
    sec := { rootHash0 := s.sec.rootHash0, rootHash1 := s.sec.rootHash1, kekFw := s.sec.kekFw, dwk := s.sec.dwk, minrel := s.sec.minrel, ident := s.sec.ident
             sess := s.sec.sess, ownerHash := s.sec.ownerHash, ownerSeq := s.sec.ownerSeq, skeyDue := s.sec.skeyDue
             skeyRec := s.sec.skeyRec }
    pwr := { porstLow := s.pwr.porstLow, warmLow := s.pwr.warmLow, warmFlush := s.pwr.warmFlush
             parkNLow := s.pwr.parkNLow, parkNRel := s.pwr.parkNRel }
    recm := r, cal := { slots := s.cal.slots, trim := s.cal.trim }, bus := s.bus }
  let t := onRecm (fun r => { r with onTime := t.life 0x14 0 32 8 }) t
  let t := (t.w .SEC_STATE_REVOKED 0 (s.r .SEC_STATE_REVOKED)).w .SEC_STATE_OWNER 0 (b2n (s.sec.ownerHash != 0))
  let t := if (t.rec' 1 0).valid.isSome then
      (t.w .CAL_MAP_SLOT 0 (t.recN 1 0 8 4)).w .CAL_MAP_STAGE 0 (t.recN 1 0 8 4 / 2 ^ 15)
    else t
  let t := (t.w .THM_SHUT_ID_SHUT_ID 0 (t.recN 8 0 4 4)).w .THM_STATE_SHUT_PEND 0 (t.recN 9 0 8 1)
  showKeys t

/-- A low level shorter than 1 µs on a supervisory input (Table PWR-2). -/
def glitch (s : State) : State := s.inc .THM_SEEN_RST_GLITCH

/-- The start sequence begins (R419). -/
def beginStart (s : State) : State := onPwr (fun p => { p with phase := 1, porstLow := false, warmLow := false, warmFlush := false }) s

/-- PORST_N goes low for a time in ns (R415): nothing is flushed. -/
def execPorstNAssert (lowNs : Nat) (s : State) : Out := .next <|
  if lowNs < 1000 then glitch s
  else domainReset s.recm.reload (onPwr (fun p => { p with porstLow := true, warmLow := false, warmFlush := false }) s)

def execPorstNRelease (s : State) : Out := .next <|
  if s.pwr.porstLow then beginStart (lifeAdd 0x14 0 8 4 1 (domainReset s.recm.reload s)) else s

/-- The common actions of PWRFAIL_N and WARMRST_N (R416, R417): park, no signature, the chain position, the flush. -/
def failPark (s : State) : State :=
  let s := parkAll 6 s
  saveChain { s.w .SYS_STATE_READY 0 0 with sec := { s.sec with sigs := [], resWrite := false } }

def execWarmrstNAssert (lowNs : Nat) (s : State) : Out := .next <|
  if lowNs < 1000 then glitch s
  else if s.stopped then s
  else
    let s := saveAnchor (failPark (lifeAdd 0x14 0 12 4 1 s))
    (domainReset s.recm (onPwr (fun p => { p with warmLow := true, warmFlush := true }) s)).setF .REC_STAT_FLUSHING

/-- WARMRST_N is high again; the start waits for the flush. -/
def execWarmrstNRelease (s : State) : Out := .next <|
  if !s.pwr.warmLow then s
  else if s.pwr.warmFlush then onPwr (fun p => { p with warmLow := false }) s
  else beginStart s

/-- PWRFAIL_N goes low: final until PORST_N (R417). During a shutdown nothing is written again (R426). -/
def execPwrfailNAssert (lowNs : Nat) (s : State) : Out := .next <|
  if lowNs < 1000 then glitch s
  else if s.pwr.porstLow || s.pwr.dead then s
  else if s.pwr.shut || s.pwr.warmLow || s.pwr.warmFlush then onPwr (fun p => { p with dead := true }) s
  else onPwr (fun p => { p with dead := true, phase := 0 }) (portsOff (settle (failPark (lifeAdd 0x14 0 16 4 1 s))))

/-- The end of a flush: its records are written, another one that was asked for begins, and its commands complete. -/
def flushed (badCopies : List Nat) (s : State) : State :=
  let s := saveAnchor (flushLife s)
  let s := badCopies.foldl (fun t b => copyFails (b / 131072) (b / 2 % 65536) (b % 2) t) s
  let pend := s.r .REC_STAT_FLUSH_PEND
  let s := ((s.w .REC_STAT_FLUSHING 0 pend).w .REC_STAT_FLUSH_PEND 0 0).w .REC_AGE_SECONDS 0 0
  let s := if s.stopped then s else flushJobs s
  if s.pwr.warmFlush && pend = 0 then
    (if s.pwr.warmLow || s.pwr.dead then onPwr (fun p => { p with warmFlush := false }) s else beginStart s)
  else s

/-- A flush completes (R436): the shadows and the anchor are in record memory, copies that failed leave service, and a pending
request starts one further flush. `badCopies` holds 2 × (RID × 65,536 + instance) + copy. A warm reset may then end (R416). -/
def execFlushDone (badCopies : List Nat) (s : State) : Out := .next <|
  if !s.rb .REC_STAT_FLUSHING then s
  else flushed badCopies s

/-! ## Boot flash (R381) -/

/-- The offset and length of a directory entry of a type and copy. -/
def State.dirEntry (s : State) (ptype copy : Nat) : Option (Nat × Nat) :=
  ((upTo 32).find? (fun i => s.loadN 4 (16 * i) 1 == ptype && s.loadN 4 (16 * i + 1) 1 == copy)).map (fun i =>
    (s.loadN 4 (16 * i + 4) 4, s.loadN 4 (16 * i + 8) 4))

/-- A package copy with the BSTAT code of its checks (Table TRU-4); a copy whose read failed counts as failing line 2 (R474). -/
def State.bootCopy (s : State) (ptype copy : Nat) : Nat × List Byte :=
  match s.dirEntry ptype copy with
  | none => (1, [])
  | some (a, n) =>
    let p := s.load 4 a n
    if s.pwr.flashFail.contains (ptype + 256 * copy) then (2, p) else (s.pkgFails ptype p, p)

/-- The first copy that passes, with its number, or the code of the last failure. -/
def State.bootPkg (s : State) (ptype : Nat) : Except Nat (Nat × List Byte) :=
  let a := s.bootCopy ptype 0
  let b := s.bootCopy ptype 1
  if a.1 = 0 then .ok (0, a.2) else if b.1 = 0 then .ok (1, b.2) else .error (if b.1 = 1 then a.1 else b.1)

/-- BOOTFAIL (R381). -/
def bootFail (ptype st : Nat) (s : State) : State :=
  onPwr (fun p => { p with bootFail := true, phase := 0 }) ((s.w .SEC_BOOT_BSTAT 0 st).w .SEC_BOOT_BPTYPE 0 ptype)

/-- One package of the boot chain: it enters the log, or the device halts. -/
def bootStep (ptype : Nat) (s : State) : State :=
  if s.pwr.bootFail then s
  else
    match s.bootPkg ptype with
    | .ok (copy, p) =>
      let s := if copy = 1 then s.setF .SEC_BOOT_COPYB else s
      let s := if ptype = 1 then s.w .SEC_STATE_ROOT_SLOT 0 (bits (pkgHdr p) 24 24) else s
      measure ptype 0 (pkgRelease p) (Config.shake256 (s.plain p) % 2 ^ 256) s
    | .error st => bootFail ptype st s

/-- The read of a package or coat from boot flash times out (R474): it is retried once, then the copy counts as failed. -/
def execXspiTimeout (ptype copy : Nat) (s : State) : Out := .next <|
  let k := ptype + 256 * copy
  if s.stopped || s.pwr.phase = 0 || 7 ≤ s.pwr.phase then s
  else if s.pwr.xspiRetried.contains k then
    (if s.pwr.flashFail.contains k then s else onPwr (fun p => { p with flashFail := p.flashFail ++ [k] }) s)
  else onPwr (fun p => { p with xspiRetried := p.xspiRetried ++ [k] }) s

/-! ## Phase 1: masks, record memory, STAGE1 (R348, R381, R434) -/

/-- The base coat of boot flash by its directory entry. -/
def State.bootCoat (s : State) (copy : Nat) : Option CoatAt :=
  if s.pwr.flashFail.contains (0x10 + 256 * copy) then none else (s.dirEntry 0x10 copy).map (fun e => { path := .flash, a := e.1 })

/-- The masks of a start. -/
def fixUnits (s : State) : State :=
  let put := fun (g p x : Nat) => ((s.w .SYS_UNITS_G_G_EN 0 g).w .SYS_UNITS_P_P_EN 0 p).w .SYS_UNITS_P_X_EN 0 x
  if (s.rec' 0x0C 0).valid.isSome then put (s.recN 0x0C 0 8 4) (s.recN 0x0C 0 12 2 % 4096) (s.recN 0x0C 0 13 1 / 16)
  else match s.bootCoat 0 <|> s.bootCoat 1 with
    | some c => let h := s.coatHdr c; put (hG h) (hP h) (hX h)
    | none => put (2 ^ 32 - 1) 4095 3

/-- Every record that has no valid copy is announced. -/
def checkRecords (s : State) : State :=
  ([1, 3, 4, 5, 6, 7, 8, 9, 0xA, 0xB, 0xC, 0x10, 0x11, 0x12, 0x13, 0x14, 0x15, 0x16, 0x17, 0x18, 0x20].flatMap (fun rid =>
    (upTo (match recShape rid with | some (n, _) => n | none => 0)).map (fun i => (rid, i)))).foldl (fun t (rid, i) =>
      if (t.rec' rid i).valid.isNone then event EV_REC_WRITE_FAIL [(8, rid), (16, i)] t else t) s

/-! ## Phase 2: firmware, the patch bundle, OTP (R148 to R150, R381, R382) -/

/-- The patch word that a NEXT names, from 0x3C00 on (R137). -/
def patchInside (a : Nat) : Option Nat := if 0x3C00 ≤ a then some (a - 0x3C00) else none

/-- The ROM addresses to which a patch word can send control. -/
def romExits (img : List Nat) (a : Nat) : List Nat := match img[a]? with | some v => (wordTargets v).filter (· < 0x3C00) | none => []

/-- Line 7 for a bundle: no TEST either, a patch-RAM NEXT beyond the last word, or a successor beyond it on a path from an enabled entry. -/
def patchLine7 (img : List Nat) (starts : List Nat) : Bool :=
  let n := img.length
  let nexts := wordNexts patchInside img
  img.any (fun v => wordBad v || bits v 20 16 == 0x1B) ||
    img.any (fun v => match usedNext v with | some a => decide (0x3C00 ≤ a && n ≤ a - 0x3C00) | none => false) ||
    (reachWords nexts n starts starts).any (fun a => a + 1 == n && wordFalls (img.getD a 0))

/-- The returns of a path from patch word p, each with its n: the words without INT before the first INT word of the path (line 8). -/
def patchReturns (img : List Nat) (p : Nat) : List (Nat × Nat) :=
  let nexts := wordNexts patchInside img
  (upTo 16).flatMap (fun k =>
    let l := walkWords nexts (noInt img) k [p]
    let int := (if k = 0 then [p] else (walkWords nexts (noInt img) (k - 1) [p]).flatMap nexts).filter (fun a => a < img.length && !noInt img a)
    (l.flatMap (romExits img)).map (fun r => (k + 1, r)) ++
      ((reachWords nexts img.length int int).flatMap (romExits img)).map (fun r => (k, r)))

/-- Line 8 for a bundle. -/
def patchLine8 (img : List Nat) (on : List Nat) : Bool :=
  on.any (fun e => (patchReturns img (bits e 25 16)).any (fun x =>
    15 < Config.romDin (bits e 13 0) + x.1 + Config.romDout x.2)) ||
    (upTo img.length).any (gapFrom (wordNexts patchInside img) img)

/-- Whether a patched path from an enabled entry takes more words than its routine has left: k words in patch RAM and, where it returns
into the routine, the words that the map leaves from there (lines 9 and 10). -/
def patchLong (img : List Nat) (e : Nat) : Bool :=
  let a := bits e 13 0
  let left := Config.romBudget a
  let at' := fun k => walkWords (wordNexts patchInside img) (· < img.length) k [bits e 25 16]
  !(at' left).isEmpty ||
    (upTo left).any (fun k => (at' k).any (fun w => (romExits img w).any (fun r =>
      Config.romOwner r == Config.romOwner a && left < k + 1 + Config.romBudget r)))

/-- Whether RETI can be reached in patch RAM from an enabled entry. -/
def patchReti (img : List Nat) (e : Nat) : Bool :=
  (reachWords (wordNexts patchInside img) img.length [bits e 25 16] [bits e 25 16]).any (fun a => bits (img.getD a 0) 20 16 == 0x1C)

/-- The handlers stand in ROM from 0x3C00 on (R137). -/
def forHandler (e : Nat) : Bool := 0x3C00 ≤ bits e 13 0

/-- The header fields, match entries and words of a bundle (Tables MIC-7, MIC-8). -/
def bundleHdr (b : List Byte) : Nat := ofBytes (b.take 64)
def bundleN (b : List Byte) : Nat := bits (bundleHdr b) 58 48
def bundleMatch (b : List Byte) : List Nat := (upTo 64).map (fun i => ofBytes ((b.drop (64 + 4 * i)).take 4))
def bundleWords (b : List Byte) : List Nat := (upTo (bundleN b)).map (fun i => ofBytes ((b.drop (320 + 8 * i)).take 8))

/-- Whether two of a list of numbers are equal. -/
def twice : List Nat → Bool
  | [] => false
  | x :: r => r.contains x || twice r

/-- The code of the first failing line of Table MIC-9, or 0. -/
def State.patchCode (s : State) (b : List Byte) : Nat :=
  let h := bundleHdr b
  let n := bundleN b
  let m := bundleMatch b
  let on := m.filter (fun e => bit e 31)
  let w := bundleWords b
  if bits h 15 0 != 2 || bits h 127 96 != 352 + 8 * n || bits h 127 96 != b.length then 1
  else if Config.shake256 (b.take (320 + 8 * n)) % 2 ^ 256 != ofBytes (b.drop (320 + 8 * n)) then 2
  else if bits h 39 32 != 0x21 || bits h 95 64 != Config.romId then 3
  else if bits h 31 16 < s.sec.minrel.getD 3 0 then 4
  else if bit h 47 || bits h 63 59 != 0 || bits h 511 128 != 0 || m.any (fun e => bits e 15 14 != 0 || bits e 30 26 != 0) ||
      w.any (fun v => bits v 63 40 != 0) || 1024 < n || on.length != bits h 46 40 then 5
  else if twice (on.map (fun e => bits e 13 0)) || on.any (fun e => n ≤ bits e 25 16) then 6
  else if patchLine7 w (on.map (fun e => bits e 25 16)) then 7
  else if patchLine8 w on then 8
  else if on.any (fun e => if forHandler e then patchLong w e else patchReti w e) then 9
  else if on.any (patchLong w) then 10
  else 0

/-- The same patch words and match registers in all 32 sequencers (R148). -/
def loadPatch (b : List Byte) (s : State) : State :=
  let w := bundleWords b
  forAll (upTo 32) (fun g t =>
    let t := t.onSq g (fun x => { x with patch := (w.zipIdx.map (fun e => (e.2, e.1))).filter (fun e => e.2 != 0) })
    let t := ((bundleMatch b).zipIdx).foldl (fun u e => u.w .SQ_MATCH_WORD g e.1 e.2) t
    (t.w .SQ_PATCH_RELEASE g (bits (bundleHdr b) 31 16)).w .SQ_PATCH_NWORDS g (bundleN b)) s

/-- UC_PATCH: the bundle loads and UC_LOAD and the log take its code; without a bundle UC_LOAD is L_NONE, and a package that fails
is treated as failing line 2. -/
def patchStep (s : State) : State :=
  let code (c rel dig : Nat) (s : State) := measure MK_UC_PATCH c rel dig (s.w .UC_LOAD_LSTAT 0 c)
  let failed (s : State) := onPwr (fun p => { p with patchFail := true }) s
  if s.pwr.bootFail then s
  else if (s.dirEntry 4 0).isNone && (s.dirEntry 4 1).isNone then code 0xF 0 0 s
  else
    match s.bootPkg 4 with
    | .error _ => failed (code 2 0 0 s)
    | .ok (copy, p) =>
      let b := s.plain p
      let s := if copy = 1 then s.setF .SEC_BOOT_COPYB else s
      let c := s.patchCode b
      let s := code c (pkgRelease p) (Config.shake256 b % 2 ^ 256) s
      if c = 0 then loadPatch b s else failed s

/-- OTP is raised once every package of the boot has passed (R382). -/
def raiseOtp (s : State) : State :=
  if s.pwr.bootFail || s.pwr.patchFail then s
  else
    let raise (ptype : Nat) (s : State) : State := match s.bootPkg ptype with
      | .ok (_, p) => { s with sec := { s.sec with minrel := s.sec.minrel.set (ptype - 1) (max (s.sec.minrel.getD (ptype - 1) 0) (pkgMinrel p)) } }
      | .error _ => s
    let s := forAll [1, 2, 3, 4] raise s
    match s.bootPkg 1 with
    | .ok (_, p) =>
      let own := 2 ^ bits (pkgHdr p) 24 24
      let ask := bits (pkgHdr p) 27 26
      let old := s.r .SEC_STATE_REVOKED
      let blown := (upTo 2).filter (fun k => ask.testBit k && !own.testBit k && !old.testBit k)
      if blown.isEmpty then s
      else measure MK_ROOT_REVOKE (maskOf blown) 0 0 (s.w .SEC_STATE_REVOKED 0 (old ||| maskOf blown))
    | .error _ => s

/-! ## Phase 3: the primer images (R154, R420) -/

/-- The PRIMER packages of boot flash that pass the checks, with MFG 0 and a program that keeps Table MIC-9, in directory order (R154,
R383). -/
def State.primerPkgs (s : State) : List (List Byte) :=
  (upTo 32).filterMap (fun i =>
    let e := 16 * i
    if s.loadN 4 e 1 != 5 || s.pwr.flashFail.contains (5 + 256 * s.loadN 4 (e + 1) 1) then none
    else
      let p := s.load 4 (s.loadN 4 (e + 4) 4) (s.loadN 4 (e + 8) 4)
      if s.pkgFails 5 p != 0 || pkgMfg p || s.primerBad (s.plain p) 0 then none else some p)

/-- The result word of a group's self-test: 0 for one that passes, and an open value that is not 0 for one that fails. -/
def selfTested (fail : Nat) (g : Nat) (s : State) : State :=
  let res := if fail.testBit g then max 1 (s.fresh.1 % 2 ^ 32) else 0
  toService g (primerDone g res s.fresh.2)

/-- Phase 3 (R154, R420): every enabled sequencer runs the self-test image of boot flash, which ends with its result, and goes back to
service; a nonzero result keeps its group out. After a failed patch load each runs the recovery image in its place. The directory does
not tell the two images apart, and gives no entry: the model takes the first PRIMER package as the self-test, the last as the recovery
image, and word 0 as the entry (log entry 58). -/
def primerPhase (selfTestFail : Nat) (s : State) : State :=
  let run := fun (p : List Byte) (s : State) => forAll s.onGroups (prime (s.plain p) (pkgRelease p) 0 250) s
  if s.pwr.patchFail then
    match s.primerPkgs.getLast? with
    | some p => run p s
    | none => s
  else
    match s.primerPkgs.head? with
    | some p =>
      let s := forAll s.onGroups (selfTested selfTestFail) (run p s)
      onPwr (fun x => { x with groupFail := maskOf (s.onGroups.filter (fun g => selfTestFail.testBit g)) }) s
    | none => s

/-! ## Phase 5: calibration sets, keys, the epoch, the first lot (R234, R318, R388, R395, R402) -/

/-- The DIGEST of each point's slot is checked, and that of a factory set is the one it was written with (R231); those that pass enter
the log. -/
def checkSets (s : State) : State :=
  forAll (upTo 5) (fun p t =>
    let z := t.slotSet (t.slotOf p)
    if (match z.digest with | some d => Config.shake256 (setBytes z) % 2 ^ 256 == d | none => z.base.isSome) then
      measure MK_CAL_SET p 0 z.digestNow (t.w .CAL_MAP_VALID 0 (t.r .CAL_MAP_VALID ||| 2 ^ p))
    else event EV_CAL_SET_BAD [(3, p)] (t.w .CAL_MAP_VALID 0 (t.r .CAL_MAP_VALID - (t.r .CAL_MAP_VALID &&& 2 ^ p)))) s

/-- A key starts at RES_END; the indices between are burned. -/
def Key.start (k : Key) : Key :=
  { k with next := k.resEnd, state := if (k.state = 2 || k.state = 3) && keySize k.oid ≤ k.resEnd then 5 else k.state }
def startKeys (s : State) : State :=
  let id := s.sec.ident
  let burned := (s.sec.sess.map (fun k => k.resEnd - k.next)).foldl (· + ·) 0
  let s := lifeAdd 0x16 0 32 8 burned (lifeAdd 0x16 0 12 4 (id.resEnd - id.next) s)
  let s := { s with sec := { s.sec with ident := id.start } }
  let s := if id.start.state = id.state then s else putIdent id.start s
  let s := s.sec.sess.foldl (fun t k =>
    if k.start.state = k.state then { t with sec := { t.sec with sess := t.sec.sess.map (fun x => if x.keyId = k.keyId then k.start else x) } }
    else putKey k.start t) s
  let s :=
    if s.activeKey.isSome then s
    else match s.keyIn 2 with | some k => { putKey { k with state := 3 } s with sec := { (putKey { k with state := 3 } s).sec with skeyDue := true } } | none => s
  showKeys s

/-- The epoch advances in record memory, and the clock starts in it at 0; a saturated epoch starts it at the anchor time. -/
def startEpoch (s : State) : State :=
  let old := s.recN 7 0 8 2
  let e := min 65535 (old + 1)
  let s := { s with clk := { s.clk with epoch := e, ns := if old = 65535 then s.recN 7 0 20 8 else 0, frac := 0 } }
  let s := lifeAdd 0x17 0 16 4 1 s
  saveEpoch e (s.recN 7 0 10 6) (s.recN 7 0 16 4) (s.recN 7 0 20 8) (s.recN 7 0 28 2) s

/-- Lot 0 opens with the position that record memory holds. -/
def startLot (s : State) : State :=
  appendAll (openLot 0 1 { lot := s.recN 6 0 8 4, seq := s.recN 6 0 12 8, head := s.recN 6 0 20 32 } s)

def phase5 (td0 : CalRaw) (s : State) : State :=
  let s := if s.guy.mult then calTdcx00 td0 s else s.setF .GY_STATUS_CALPEND
  checkGen (startLot (startEpoch (startKeys (checkSets s))))

/-! ## Phases 6 and 7 (R344, R419, R420) -/

/-- Whether the sequence ends without READY. -/
def State.withheld (s : State) : Bool := s.pwr.patchFail || s.onGroups.all (fun g => s.pwr.groupFail.testBit g)

/-- A base coat of boot flash as it would leave the state, or none where a check fails. -/
def State.baseTry (s : State) (copy : Nat) : Option State :=
  match s.bootCoat copy with
  | none => none
  | some c =>
    if baseRange (s.coatHdr c) then none
    else match coatCheck c s with | .ok t => some (applyBase c (s.coatHdr c) t) | .error _ => none

def phase6 (s : State) : State := if s.withheld then s else ((s.baseTry 0 <|> s.baseTry 1).getD s)

def phase7 (s : State) : State :=
  let s := forAll (upTo 12) enablePort s
  let s := onPwr (fun p => { p with phase := 8 }) s
  if s.withheld then s else lifeAdd 0x14 0 24 4 1 (s.setF .SYS_STATE_READY)

/-- The end of a phase of the start: what the phase leaves, and the next one unless the start has failed. -/
def nextPhase (s : State) : State := if s.pwr.bootFail then s else onPwr (fun p => { p with phase := p.phase + 1 }) s
def endPhase (die : List (Nat × Option Int)) (selfTestFail : Nat) (vcmFail : Option (Fin 128 × Nat)) (td0 : CalRaw) (phase : Nat) (s : State) : State :=
  match phase with
  | 1 => nextPhase (bootStep 1 (checkRecords (fixUnits s)))
  | 2 => nextPhase (raiseOtp (patchStep (bootStep 3 (bootStep 2 s))))
  | 3 => nextPhase (primerPhase selfTestFail (sampleDue (dieRead (s.dieTaken die) s)))
  | 4 => nextPhase (trainVcm (vcmFail.map (fun x => (x.1.val, x.2))) s)
  | 5 => nextPhase (phase5 td0 s)
  | 6 => nextPhase (phase6 s)
  | 7 => phase7 s
  | _ => s

/-- A start phase ends (R419): its work is done, and the next begins. `die` is the first sample of the sensors, whose targets apply before
the self-test of phase 3 (R237), `selfTestFail` is the mask of the groups whose self-test
failed, `vcmFail` the port and step of a failed training, `td0` the statistics of TDCX00 (R234). -/
def execStartPhaseEnd (die : List (Nat × Option Int)) (selfTestFail : Nat) (vcmFail : Option (Fin 128 × Nat)) (td0 : CalRaw) (s : State) : Out := .next <|
  if s.halted then s
  else endPhase die selfTestFail vcmFail td0 s.pwr.phase s

/-! ## THM commands (R428, R429) -/

/-- THM.CONFIG. ARG0 TLIM in °C, ARG1 PCAP in W. -/
def execThmConfig (d : Desc) (s : State) : Out := .next <| runCmd 0x0F01 d [args d 2]
  (fun s => checked [(d.a0 < 70 || 100 < d.a0, ST_RANGE), (d.a1 < 40 || 110 < d.a1, ST_RANGE)]
    (restage ((s.w .THM_CFG_TLIM 0 d.a0).w .THM_CFG_PCAP 0 d.a1), .done ST_OK) s) s

/-- THM.READ. ARG0 the address of 53 words. -/
def State.thmWords (s : State) : List Nat :=
  [s.show .THM_STATE 0 0, s.show .THM_VCORE 0 0] ++ (upTo 3).map (fun i => s.show .THM_FAILMAP 0 i) ++
    (upTo 48).map (fun i => s.show .THM_SENSOR 0 i)
def execThmRead (d : Desc) (s : State) : Out := .next <| runCmd 0x0F02 d [args d 1, reachD d d.a0 212, s.wdown d.a0 212]
  (fun s => (s.winStore d.path d.a0 (s.thmWords.flatMap (bytesOf 4)), .done ST_OK)) s

/-- THM.SHUTREC. ARG0 the address of 64 bytes. -/
def execThmShutrec (d : Desc) (s : State) : Out := .next <| runCmd 0x0F03 d [args d 1, reachD d d.a0 64, s.wdown d.a0 64]
  (fun s => (s.winStore d.path d.a0 (s.recBytes 8 0 0 64).2, .done ST_OK)) s

/-- The checks of SYS.ACK_SHUTDOWN. -/
def ackChecks (d : Desc) (s : State) : List (Bool × Nat) := [
  (!s.rb .THM_STATE_SHUT_PEND, ST_STATE), (d.a0 != s.recN 8 0 4 4, ST_RANGE),
  (s.hot (16 * (s.tlim : Nat)) || (upTo 4).any (fun v => decide (1520 ≤ s.stackReading v)), ST_REFUSED)]

/-- SYS.ACK_SHUTDOWN (R428). ARG0 the SHUT_ID. -/
def execSysAckShutdown (d : Desc) (s : State) : Out := .next <| runCmd 0x0103 d [args d 1]
  (fun s => checked (ackChecks d s)
    (setShutPend false s, .done ST_OK) s) s

end Sys2Proof.Machine
end

