-- ==== Sys2Proof/Machine/Twin.lean ====
section
/-! DEFINITION. Flysheet pairing: TWIN commands, mirroring, heartbeats, TWIN_ALIVE and takeover (R443 to R456). The layouts of the
TWIN messages and of TWIN.STATUS are the model's (log entry 36). -/

namespace Sys2Proof.Machine

abbrev EV_TWIN_PAIRED : Nat := 0x1001
abbrev EV_TWIN_SEPARATED : Nat := 0x1002
abbrev EV_TWIN_TAKEOVER : Nat := 0x1003
abbrev EV_TWIN_SIDEBAND : Nat := 0x1004

/-- The pairing states of Table REC-5 beside PAIRED, SUSPECT and TAKEN_OVER. -/
abbrev TW_UNPAIRED : Nat := 0
abbrev TW_PAIRING : Nat := 1
abbrev TW_SEPARATED : Nat := 4
abbrev TW_RESYNC : Nat := 5

/-- The port of the pair, RP11. -/
abbrev RP11 : Nat := 11

def onTwin (f : Twin → Twin) (s : State) : State := { s with twin := f s.twin }
def setTw (v : Nat) (s : State) : State := s.w .TW_STATE_STATE 0 v
def State.tw (s : State) : Nat := s.r .TW_STATE_STATE
def State.partnerId (s : State) : Nat := s.r .TW_PARTNER_LO_ID + 2 ^ 32 * s.r .TW_PARTNER_HI_ID

/-! ## Messages (R446) -/

/-- Bytes in messages of at most 256 bytes (Table RDG-7). -/
def chunks : Nat → List Byte → List (List Byte)
  | 0, _ => []
  | n + 1, b => if b.length ≤ 256 then [b] else b.take 256 :: chunks n (b.drop 256)
def sendTwin (code : Nat) (b : List Byte) (s : State) : State :=
  (chunks (b.length / 256 + 1) b).foldl (fun t c => t.send RP11 (msgPkt code c)) s

abbrev M_HEARTBEAT : Nat := 0x0301
abbrev M_MIRROR : Nat := 0x0302
abbrev M_MIRROR_ACK : Nat := 0x0303
abbrev M_FAILING : Nat := 0x0304
abbrev M_PAIR : Nat := 0x0305
abbrev M_SYNC_DONE : Nat := 0x0306

/-- A mirrored item as bytes. -/
def itemBytes : MirrorItem → List Byte
  | .journal mb ix cmd tag nt => bytesOf 16 (pack [(8, 1), (8, mb), (16, ix), (16, cmd), (16, tag), (8, b2n nt)])
  | .completion mb ix e => bytesOf 8 (pack [(8, 2), (8, mb), (16, ix)]) ++ bytesOf 32 e
  | .mailbox mb cfg cpl prod cons cp cc => bytesOf 32 (pack [(8, 3), (24, mb), (32, cfg), (32, cpl), (32, prod), (32, cons), (32, cp), (32, cc)])
  | .result lot seq n data => bytesOf 16 (pack [(8, 4), (24, n), (32, lot), (64, seq)]) ++ data
  | .head lot seq h => bytesOf 48 (pack [(8, 5), (24, 0), (32, lot), (64, seq), (256, h)])
  | .site z p c prog st seq bin pass fail aft =>
    bytesOf 40 (pack [(8, 6), (8, z), (8, p), (8, c), (32, prog), (64, st), (64, seq), (16, bin), (16, b2n aft), (48, pass), (48, fail)])
  | .coats b l => bytesOf 16 (pack [(8, 7), (24, l.length), (32, b)]) ++ l.flatMap (bytesOf 8)
  | .calib m => bytesOf 64 (8 + 256 * m)
  | .ptp st cfg m e => bytesOf 32 (pack [(8, 9), (24, e), (32, st), (32, cfg), (64, m)])
  | .identity r => bytesOf 8 10 ++ bytesOf 64 r

/-- The PAIR message: identity, HALF, SENIOR, whether the partner's full image is confirmed, and the ring pages, those of the event
ring first, 0 pages where it is disabled. -/
def State.pairPages (s : State) : List (Nat × Nat) :=
  (s.evrTaken.headD (0, 0) :: s.mbTaken 64).map (fun e => (e.1 / 4096, ceilDiv e.2 4096))
def sendPair (ident : Nat) (confirm : Bool) (s : State) : State :=
  let l := s.pairPages
  sendTwin M_PAIR (bytesOf 16 (pack [(64, ident), (1, s.r .TW_STATE_HALF), (1, s.r .TW_STATE_SENIOR), (1, b2n confirm), (29, 0), (32, l.length)]) ++
    l.flatMap (fun e => bytesOf 4 (pack [(16, e.1), (16, e.2)]))) s

/-! ## The own image (Table REC-6) -/

/-- The slot map with the SOURCE and TIME of each point as one number. -/
def State.calibView (s : State) : Nat :=
  pack ((18, s.r .CAL_MAP_SLOT + 2 ^ 15 * s.r .CAL_MAP_STAGE) :: (upTo 5).flatMap (fun p =>
    let z := s.slotSet (s.slotOf p)
    [(4, z.source), (64, z.time)]))

/-- The site table of the flow programs. -/
def State.siteViews (s : State) : List MirrorItem :=
  (upTo 16).flatMap (fun c => (s.sitesOf c).map (fun z =>
    let r := tget {} s.sec.sites z.site
    let n := (s.pt z.pitch).starts
    let prog := match (s.fc c).prog with | some f => f.progId | none => 0
    MirrorItem.site z.site z.pitch c prog n r.lastSeq r.bin r.pass r.fail (n == r.starts)))

/-- The items that go to the twin on change and are derived from the rest of the state. -/
def State.views (s : State) : List MirrorItem :=
  [.coats s.mbox.baseId (s.mbox.skims.map (·.1)), .calib s.calibView,
    .ptp (s.img .TM_STATUS 0) (s.img .TM_CFG 0) s.clk.master s.clk.epoch,
    .identity s.identity] ++ s.siteViews

/-- Queue every item that has changed since it was queued last (R446). -/
def viewChanges (s : State) : State :=
  if !s.twinOn then s
  else
    let l := s.views
    let s' := (l.filter (fun m => !s.twin.views.contains m)).foldl (fun t m => mirror m t) s
    onTwin (fun w => { w with views := l }) s'

/-- Send up to 32 items when none is in flight. -/
def sendMirror (s : State) : State :=
  let l := s.twin.queued.take 32
  if l.isEmpty || s.twin.inFlight != 0 || !(s.tw == TW_PAIRING || s.tw == TW_PAIRED || s.tw == TW_RESYNC) || s.pst RP11 != PUP then s
  else sendTwin M_MIRROR (l.flatMap itemBytes) (onTwin (fun w => { w with inFlight := l.length, waitSince := s.now }) s)

/-! ## Leaving and ending the wait (R447, R456) -/

/-- Firmware stops waiting: queued completions are written, and records are appended; the items stay queued for RESYNC. -/
def stopWaiting (s : State) : State :=
  let s := s.twin.queued.foldl (fun t m => match m with | .completion mb _ e => mirrorMb mb (writeCpl mb e t) | _ => t) s
  appendAll (onTwin (fun w => { w with inFlight := 0, imageSent := false, confirmed := false }) s)

/-- UNPAIRED, with RP11 OFF. -/
def unpair (s : State) : State :=
  let wait := s.twinWaits
  let s := setTw TW_UNPAIRED s
  let s := if wait then stopWaiting s else s
  shutPort RP11 POFF (onTwin (fun w => { aliveOut := w.aliveOut, badSince := w.badSince }) s)

/-- The waiting TWIN.PAIR. -/
def State.pairJob (s : State) : Option (Desc × Nat) :=
  match s.jobs.find? Job.isPair with | some (.pair d t) => some (d, t) | _ => none
def pairFails (st r : Nat) (s : State) : State :=
  match s.pairJob with
  | some (d, t) => complete 0x1001 d st false r 0 0 (unpair { s with jobs := s.jobs.filter (· != .pair d t) })
  | none => s

/-- The end of PAIRING and of RESYNC (R444, R445): this side says when its items are all acknowledged, and both must have said so. -/
def twinGo (s : State) : State :=
  if !(s.tw == TW_PAIRING || s.tw == TW_RESYNC) || !s.twin.queued.isEmpty then s
  else
    let s := if s.twin.imageSent then s
      else onTwin (fun w => { w with imageSent := true })
        (if s.tw = TW_PAIRING then sendPair s.devId true s else sendTwin M_SYNC_DONE (bytesOf 4 0) s)
    if !s.twin.confirmed then s
    else
      let first := s.tw == TW_PAIRING
      let s := onTwin (fun w => { w with imageSent := false, confirmed := false, missed := 0, hbAt := s.now, skeyDue := w.skeyDue || first }) (setTw TW_PAIRED s)
      if first then
        let s := event EV_TWIN_PAIRED [(64, s.partnerId)] s
        match s.pairJob with
        | some (d, t) => complete 0x1001 d ST_OK false 0 0 0 { s with jobs := s.jobs.filter (· != .pair d t) }
        | none => s
      else s

/-! ## TWIN commands (R444, R456, R457) -/

/-- Every item of the full image enters the queue. -/
def queueImage (s : State) : State :=
  let s := forAll (upTo 64) mirrorMb s
  viewChanges (mirror (.head s.sec.chain.lot s.sec.chain.seq s.sec.chain.head) s)

/-- The checks of TWIN.PAIR, and pairing as it begins: the twin port is enabled, and the pair notice and the image go out. -/
def pairChecks (d : Desc) (s : State) : List (Bool × Nat) := [
  (s.tw != TW_UNPAIRED || (s.pst RP11 != POFF && s.pst RP11 != PDOWN) || !s.pEn RP11 ||
    (upTo 64).any (fun n => s.rb .MB_CFG_EN n && n / 32 != d.a1), ST_STATE),
  (d.a0 == 0 || d.a0 == s.devId || s.resRingBad d.a3 d.a4 false || d.a5 == 0 || 60000 < d.a5, ST_RANGE)]
def beginPair (d : Desc) (s : State) : State :=
  let s := (((setTw TW_PAIRING s).w .TW_STATE_HALF 0 d.a1).w .TW_STATE_SENIOR 0 d.a2)
  let s := (s.w .TW_PARTNER_LO_ID 0 d.a0).w .TW_PARTNER_HI_ID 0 (d.a0 / 2 ^ 32)
  let s := (((s.w .TW_MRES_BASE_BASE 0 d.a3).w .TW_MRES_SIZE_PAGES 0 d.a4).w .TW_MRES_PROD_COUNT 0 0).w .TW_MRES_CONS_COUNT 0 0
  let s := onTwin (fun w => { aliveOut := w.aliveOut, badSince := w.badSince }) s
  let s := enablePort RP11 ((s.w .LK_CFG_ROLE RP11 3).w .LK_CFG_MODE RP11 0)
  queueImage (sendPair s.devId false { s with jobs := s.jobs ++ [.pair d (s.now + 1000000 * d.a5)] })

/-- TWIN.PAIR. ARG0 the partner, ARG1 HALF, ARG2 SENIOR, ARG3 and ARG4 the mirror ring, ARG5 the timeout in ms. -/
def execTwinPair (d : Desc) (s : State) : Out := .next <| runCmd 0x1001 d
  [args d 6, choice 2 d.a1, choice 2 d.a2]
  (fun s => checked (pairChecks d s) (beginPair d s, .later) s) s

/-- The timeout of TWIN.PAIR. -/
def execTwinPairTimeout (s : State) : Out := .next <|
  match s.pairJob with
  | some (_, t) => if s.tw == TW_PAIRING && t ≤ s.now then pairFails ST_TIMEOUT 0 s else s
  | none => s

/-- The partner half after a takeover. -/
def State.partnerMbs (s : State) : List Nat := (upTo 64).filter (fun n => n / 32 != s.r .TW_STATE_HALF)

/-- TWIN.UNPAIR. -/
def execTwinUnpair (d : Desc) (s : State) : Out := .next <| runCmd 0x1002 d [args d 0]
  (fun s =>
    if s.tw = TW_UNPAIRED then (s, .done ST_OK)
    else if s.tw = TW_TAKEN_OVER then
      checked [(s.twin.open' || s.partnerMbs.any (fun n => s.r .MB_STAT_OUTSTANDING n != 0), ST_STATE)]
        (unpair (forAll s.partnerMbs (fun n t => t.w .MB_CFG_EN n 0) s), .done ST_OK) s
    else (unpair (pairFails ST_STATE 0 (sendPair 0 false s)), .done ST_OK)) s

/-- TWIN.STATUS. ARG0 the address: the TWIN registers in table order, the partner's identity record, and its site table as a count and
entries of 40 bytes. -/
def State.twinBytes (s : State) : List Byte :=
  [Reg.TW_STATE, .TW_PARTNER_LO, .TW_PARTNER_HI, .TW_LAG].flatMap (fun r => bytesOf 4 (s.show r 0 0)) ++
    bytesOf 8 (s.show .TW_MRES_BASE 0 0) ++ bytesOf 4 (s.show .TW_MRES_SIZE 0 0) ++ bytesOf 8 (s.show .TW_MRES_PROD 0 0) ++
    bytesOf 8 (s.show .TW_MRES_CONS 0 0) ++ bytesOf 64 s.twin.ident ++ bytesOf 8 s.twin.sites.length ++
    s.twin.sites.flatMap (fun z => itemBytes (.site z.site z.pitch z.core z.progId z.starts z.lastSeq z.bin z.pass z.fail z.after))
def execTwinStatus (d : Desc) (s : State) : Out :=
  let n := 116 + 40 * s.twin.sites.length
  .next <| runCmd 0x1003 d [args d 1, reachD d d.a0 n, s.wdown d.a0 n] (fun s => (s.winStore d.path d.a0 s.twinBytes, .done ST_OK)) s

/-! ## Mirroring (R446, R447) -/

/-- What the partner's records make of its chain. -/
def chainAdd (c : Chain) (lot seq : Nat) (data : List Byte) : Chain :=
  let kind := (ofBytes (data.take 1))
  let c : Chain := if kind = 2 then { lot := lot } else { c with lot := lot }
  { c with seq := seq, head := Config.shake256 (bytesOf 32 c.head ++ data) % 2 ^ 256, results := c.results + b2n (kind == 1) }

def State.mresFree (s : State) : Nat := 4096 * s.r .TW_MRES_SIZE_PAGES - (s.r .TW_MRES_PROD_COUNT - s.r .TW_MRES_CONS_COUNT)

/-- Store one item of the partner; none where a full mirror ring withholds its acknowledgement. -/
def storeItem (m : MirrorItem) (s : State) : Option State :=
  match m with
  | .journal mb ix cmd tag nt => some (onTwin (fun w => { w with journal := w.journal ++ [{ mb := mb, index := ix, cmd := cmd, tag := tag, notify := nt }] }) s)
  | .completion mb ix e =>
    let x := tget {} s.twin.mbs mb
    let size := 2 ^ (6 + bits x.cfg 27 25)
    let e' := e + (if x.cplProd / size % 2 = 0 then 2 ^ 41 else 0)
    let s := s.storeN 3 (pageAt (bits x.cplcfg 15 0) + 32 * (x.cplProd % size)) 32 e'
    some (onTwin (fun w => { w with
      mbs := tset {} w.mbs mb { x with cplProd := (x.cplProd + 1) % 2 ^ 32 }
      journal := if bit e 40 then w.journal else w.journal.filter (fun j => !(j.mb == mb && j.index == ix)) }) s)
  | .mailbox mb cfg cpl prod cons cp cc =>
    some (onTwin (fun w => { w with mbs := tset {} w.mbs mb { cfg := cfg, cplcfg := cpl, prod := prod, cons := cons, cplProd := cp, cplCons := cc } }) s)
  | .result lot seq _ data =>
    let size := 4096 * s.r .TW_MRES_SIZE_PAGES
    if s.mresFree < padOf size (s.r .TW_MRES_PROD_COUNT) data.length + data.length then none
    else
      let c := chainAdd s.twin.chain lot seq data
      let (s, prod) := s.ringPut c s.partnerId (s.r .TW_MRES_BASE_BASE) size (s.r .TW_MRES_PROD_COUNT) data
      some (onTwin (fun w => { w with chain := c }) (s.w .TW_MRES_PROD_COUNT 0 prod))
  | .head lot seq h => some (onTwin (fun w => { w with chain := { lot := lot, seq := seq, head := h } }) s)
  | .site z p c prog st seq bin pass fail aft =>
    some (onTwin (fun w => { w with sites := w.sites.filter (fun x => x.site != z) ++
      [{ site := z, pitch := p, core := c, progId := prog, starts := st, lastSeq := seq, bin := bin, pass := pass, fail := fail, after := aft }] }) s)
  | .coats b l => some (onTwin (fun w => { w with baseId := b, skimIds := l }) s)
  | .calib m => some (onTwin (fun w => { w with slotMap := m }) s)
  | .ptp st cfg m e => some (onTwin (fun w => { w with ptpStatus := pack [(32, st), (32, cfg), (64, m), (16, e)] }) s)
  | .identity r => some (onTwin (fun w => { w with ident := r }) s)

/-- Store items in order until one must wait; the number stored and those that wait. -/
def storeItems : List MirrorItem → State → Nat → State × Nat × List MirrorItem
  | [], s, n => (s, n, [])
  | m :: r, s, n => match storeItem m s with | some t => storeItems r t (n + 1) | none => (s, n, m :: r)

/-- Take the items that wait and new ones, and acknowledge those stored. -/
def takeItems (l : List MirrorItem) (s : State) : State :=
  let (s, n, rest) := storeItems (s.twin.blocked ++ l) s 0
  let s := onTwin (fun w => { w with blocked := rest }) s
  if n = 0 then s else sendTwin M_MIRROR_ACK (bytesOf 4 n) s

/-- Whether mirroring goes on. -/
def State.mirrors (s : State) : Bool := s.tw == TW_PAIRING || s.tw == TW_PAIRED || s.tw == TW_RESYNC

/-- A MIRROR message of up to 32 items (R446). -/
def execMirror (items : List MirrorItem) (s : State) : Out := .next <|
  if !s.mirrors || 32 < items.length then s else takeItems items s

/-- The partner has taken the oldest k items: what waited for it goes on, and the next items go out. -/
def ackItems (k : Nat) (s : State) : State :=
  let l := s.twin.queued.take k
  let s := s.hi .TW_LAG_ACK_MAX 0 (min 65535 ((s.now - s.twin.waitSince) / 1000))
  let s := onTwin (fun w => { w with queued := w.queued.drop k, inFlight := w.inFlight - k }) s
  let s := if s.twinWaits then
      l.foldl (fun t m => match m with | .completion mb _ e => mirrorMb mb (writeCpl mb e t) | _ => t) s
    else s
  twinGo (sendMirror (appendAll s))

/-- The twin has acknowledged the oldest n items in flight (R447): their completions are written and their records appended. -/
def execMirrorAck (n : Nat) (s : State) : Out := .next <|
  let k := min n s.twin.inFlight
  if !(s.mirrors || s.tw == TW_SUSPECT) || k = 0 then s
  else ackItems k s

/-- A PAIR message (R444): identity 0 tells that the twin has unpaired. -/
def execPair (ident : Nat) (half senior : Bool) (pages : List (Nat × Nat)) (complete : Bool) (s : State) : Out := .next <|
  if ident = 0 then (if s.twinOn && s.tw != TW_TAKEN_OVER then unpair (pairFails ST_STATE 0 s) else s)
  else if s.tw != TW_PAIRING then s
  else if ident != s.partnerId then pairFails ST_RANGE 1 s
  else if b2n half == s.r .TW_STATE_HALF || b2n senior == s.r .TW_STATE_SENIOR then pairFails ST_RANGE 2 s
  else if pages.any (fun e => (s.mbTaken 64 ++ s.evrTaken).any (clash (pageAt e.1, 4096 * e.2))) then pairFails ST_RANGE 3 s
  else twinGo (onTwin (fun w => { w with confirmed := w.confirmed || complete, evr := pages.headD (0, 0) }) s)

/-- The twin's catch-up is done (R447). -/
def execSyncDone (s : State) : Out := .next <|
  if s.tw == TW_RESYNC then twinGo (onTwin (fun w => { w with confirmed := true }) s) else s

/-! ## Takeover (R453, R455) -/

/-- The TAKEOVER record (Table REC-3) in a ring of 16. -/
def takeRecord (role trigger sites first : Nat) (s : State) : State :=
  let id := listMax 0 ((upTo 16).map (fun i => s.recN 0x20 i 4 4)) + 1
  recWrite 0x20 ((id - 1) % 16) (fun u => bytesOf 64 (pack [(8, 2), (8, role), (8, trigger), (8, 0), (32, id), (64, s.partnerId), (64, s.clk.ns),
    (16, s.clk.epoch), (16, sites), (32, u), (32, s.twin.chain.lot), (64, first)])) s

/-- The body of an XREF. -/
def xref (dev : Nat) (c : Chain) (role : Nat) : List Byte :=
  bytesOf 64 (pack [(64, dev), (32, c.lot), (64, c.seq), (256, c.head), (8, role)])

/-- Step 3: the partner's open chain. -/
def State.openSites (s : State) : List MirSite := s.twin.sites.filter (fun z => z.starts != 0 && !z.after)
def takeChain (s : State) : State :=
  let l := s.openSites
  let done := (s.twin.sites.map (fun z => z.pass + z.fail)).foldl (· + ·) 0
  let s := onTwin (fun w => { w with chain := { w.chain with results := done } }) s
  let s := partnerAppend 6 128 (xref s.devId s.sec.chain 1) s
  let s := if s.activeKey.isSome then partnerAppend 5 3040 s.skeyBody (onTwin (fun w => { w with skeyDue := false }) s) else s
  l.foldl (fun t z => partnerAppend 1 256 (bytesOf 192 (pack [(8, z.site), (5, z.pitch), (3, 0), (4, 2), (4, 0), (5, 0), (3, 0), (16, 0xFFFF),
    (4, z.core), (12, 0), (32, z.progId), (32, s.twin.baseId)])) t) s

/-- Step 5: a partner-half mailbox that the partner had enabled. -/
def takeMailbox (n : Nat) (s : State) : State :=
  let x := tget {} s.twin.mbs n
  if !bit x.cfg 31 then s
  else
    let s := (s.wImg .MB_CFG n x.cfg).w .MB_CPLCFG_CPL_PAGE n x.cplcfg
    let s := (((s.w .MB_CONS_COUNT n x.cons).w .MB_PROD_COUNT n x.cons).w .MB_CPL_PROD_COUNT n x.cplProd).w .MB_CPL_CONS_COUNT n x.cplCons
    s.w .MB_STAT_OUTSTANDING n ((s.twin.journal.filter (fun j => j.mb == n)).length)

/-- Step 6: a journaled descriptor without a final completion; the message goes to the host ports, since no path is mirrored. -/
def takeJournal (j : Journal) (s : State) : State :=
  let d : Desc := { mb := j.mb, index := j.index, tag := j.tag }
  let s := complete j.cmd d ST_FAULT false 1 0 0 s
  if j.notify then forAll s.hostPorts (fun n t => t.send n (msgPkt 0x0001 (bytesOf 32 (cplEntry j.cmd ST_FAULT false d 1 0 0)))) s else s

/-- The survivor's steps 1 to 7, then the seal of the partner chain. -/
def takeover (trigger : Nat) (s : State) : State :=
  let s := stopWaiting (setTw TW_TAKEN_OVER s)
  let lot := s.twin.chain.lot
  let first := s.twin.chain.seq + 1
  let n := s.openSites.length
  let s := onTwin (fun w => { w with open' := true }) (takeChain s)
  let s := appendAll (take s.tip 6 128 (xref s.partnerId s.twin.chain 2) none s)
  let s := forAll s.partnerMbs takeMailbox s
  let l := s.twin.journal
  let s := l.foldl (fun t j => takeJournal j t) (onTwin (fun w => { w with journal := [] }) s)
  let s := takeRecord 1 trigger n first s
  let s := event EV_TWIN_TAKEOVER [(8, trigger), (32, lot), (16, n)] (s.setF .TW_STATE_TAKEOVER_SEEN)
  askPartnerSeal none (askFlush s)

/-- SEPARATED (R451). -/
def separate (s : State) : State :=
  let s := stopWaiting (setTw TW_SEPARATED s)
  askFlush (event EV_TWIN_SEPARATED [(32, s.twin.hbRx)] (s.setF .TW_STATE_SEPARATED_SEEN))

/-- TWIN_ALIVE_I as it counts: 0 DEAD, 1 ALIVE, 2 FAILING (R451). -/
def State.line (s : State) : Nat := if s.rb .TW_STATE_SIDEBAND_FAULT then 1 else s.r .TW_STATE_LINE

/-- SUSPECT is decided in the same core cycle (Table REC-7). -/
def suspect (s : State) : State :=
  let s := setTw TW_SUSPECT s
  match s.line with
  | 0 => takeover 1 s
  | 1 => separate s
  | _ => takeover 2 s

/-! ## Heartbeats and TWIN_ALIVE (R448 to R452) -/

/-- The next heartbeat goes out with its number and the twin's state. -/
def sendBeat (s : State) : State :=
  let n := (s.twin.hbTx + 1) % 2 ^ 32
  sendTwin M_HEARTBEAT (bytesOf 8 (pack [(32, n), (32, s.tw)])) (onTwin (fun w => { w with hbTx := n, hbSentAt := s.now }) s)

/-- Every 50 µs, until an internal fault. -/
def execHeartbeatSend (s : State) : Out := .next <|
  if !(s.tw == TW_PAIRED || s.tw == TW_SUSPECT || s.tw == TW_SEPARATED || s.tw == TW_RESYNC) || s.twin.aliveOut == 2 ||
      s.now < s.twin.hbSentAt + 50000 then s
  else sendBeat s

/-- A heartbeat of the twin. -/
def execHeartbeat (seq _pstate : Nat) (s : State) : Out := .next <|
  let got := onTwin (fun w => { w with hbRx := seq % 2 ^ 32, hbAt := s.now, missed := 0 })
  if s.tw == TW_SEPARATED then
    (if s.pst RP11 == PUP then twinGo (sendMirror (setTw TW_RESYNC (got s))) else s)
  else if s.tw == TW_PAIRED || s.tw == TW_RESYNC then got s
  else s

/-- None arrived within 10 µs of its expected instant. -/
def execHeartbeatMiss (s : State) : Out := .next <|
  if s.tw != TW_PAIRED || s.now < s.twin.hbAt + 50000 * (s.twin.missed + 1) + 10000 then s
  else faultEvent 0xC 0 suspect (onTwin (fun w => { w with missed := w.missed + 1 }) (s.inc .TW_STATE_HB_MISS))

/-- A FAILING message. -/
def execFailing (s : State) : Out := .next <| if s.tw == TW_PAIRED || s.tw == TW_SUSPECT then takeover 2 s else s

/-- The sideband line shows no edges: its level, and since when. -/
def lineLost (high : Bool) (s : State) : State :=
  let was := s.r .TW_STATE_LINE
  let s := s.w .TW_STATE_LINE 0 (2 * b2n high)
  if was = 1 || s.twin.badSince.isNone then onTwin (fun w => { w with badSince := some s.now }) s else s

/-- No edge of TWIN_ALIVE_I for 10 µs. -/
def execTwinAliveTimeout (high : Bool) (s : State) : Out := .next <|
  let s := lineLost high s
  if high && s.line == 2 && (s.tw == TW_PAIRED || s.tw == TW_SUSPECT) then takeover 2 s else s

/-- An event of source 0x0D; a lasting one sets SIDEBAND_FAULT. -/
def sideEvent (s : State) : State := faultEvent 0xD 0 (fun s => s.setF .TW_STATE_SIDEBAND_FAULT) s
def execTwinAliveRange (s : State) : Out := .next <| if s.twinOn then sideEvent s else s

/-- Edges within range for 100 µs. -/
def execTwinAliveReturn (s : State) : Out := .next <|
  onTwin (fun w => { w with badSince := none, sideRaised := false }) (s.w .TW_STATE_LINE 0 1)

/-- DEAD or FAILING for 1 ms while heartbeats arrive. -/
def execSidebandTimeout (s : State) : Out := .next <|
  match s.twin.badSince with
  | some t =>
    if s.tw == TW_PAIRED && s.line != 1 && t + 1000000 ≤ s.now && s.twin.missed == 0 && !s.twin.sideRaised then
      event EV_TWIN_SIDEBAND [(2, s.r .TW_STATE_LINE)] (sideEvent (onTwin (fun w => { w with sideRaised := true }) s))
    else s
  | none => s

/-- TWIN_ALIVE_O: 0 DEAD, 1 ALIVE, 2 FAILING (R449). -/
def State.aliveOut (s : State) : Nat := if s.halted then 0 else if s.twin.aliveOut = 2 then 2 else 1

/-- An internal fault that reaches the channels of a mask of groups: they park; a device of a pair says that it fails (R63, R452). -/
def execInternalFault (groups : Nat) (s : State) : Out := .next <|
  let s := settle (parkChans 6 ((maskBits 32 groups).flatMap chansOf) s)
  if !s.twinOn || s.tw == TW_TAKEN_OVER || s.twin.aliveOut == 2 then s
  else takeRecord 2 3 0 0 (sendTwin M_FAILING (bytesOf 4 0) (onTwin (fun w => { w with aliveOut := 2 }) s))

end Sys2Proof.Machine
end

