-- ==== Sys2Proof/Machine/Access.lean ====
section
/-! DEFINITION. Accesses from outside: requests and messages on Ridge ports, system starts at a peg, the I3C port and JTAG
(R79, R286 to R292, R313, R314, R350, R405, R473, R474). -/

namespace Sys2Proof.Machine

/-! ## Packets (R286, R290) -/

/-- The roles of Table RDG-6. -/
abbrev HOST : Nat := 0
abbrev MESH : Nat := 1
abbrev STREAM : Nat := 2
abbrev TWIN : Nat := 3
def State.role (s : State) (n : Nat) : Nat := s.r .LK_CFG_ROLE n

/-- The code of CAPSTREAM (Table RDG-9). -/
abbrev CAPSTREAM : Nat := 0x0200

/-- Whether the header of a packet of type t is malformed (R290): a reserved or other TTYPE, LEN out of range, CST in a request, or a
field that must be 0. -/
def Malformed (t : Nat) (h : Txn) : Bool :=
  let cpl := t == 3 || t == 4
  let cap := t == 5 && h.mcode == CAPSTREAM
  h.ttype != t || (if t = 4 then h.len != 0 else h.len == 0 || 64 < h.len) || (!cpl && h.cst != 0) || h.rsv != 0 ||
    (t != 5 && h.mcode != 0) || (!cap && h.group != 0) || (!(cpl || t == 1) && h.tag != 0) || (!(cap || t == 1 || t == 2) && h.addr != 0)

/-- The bytes that LEN gives a packet. -/
def packetData (h : Txn) (data : List Byte) : List Byte := (List.range (4 * h.len)).map (fun i => data.getD i 0)

/-- Whether a request breaks R287 and is refused for it. -/
def breaksR287 (a n : Nat) : Bool :=
  a % 4 != 0 || 2 ^ 36 ≤ a || 4096 < a % 4096 + n || (a < 0x10000 && !csrAccess a n)

/-- Whether a request lies in a region of Table RDG-8 that is not reserved. -/
def inRegion (a n : Nat) : Bool := a + n ≤ 0x10000 || winOk a n

/-- The ring in use that holds a pool page. -/
def State.ringOf (s : State) (page : Nat) : Option Nat :=
  (upTo 48).find? (fun r => s.r .SR_CFG_USE r != 0 && (s.rg r).page ≤ page && page < (s.rg r).page + s.r .SR_CFG_PAGES r)

/-- The pool page of a window address. -/
def winPage (a : Nat) : Nat := (a - 0x04000000) / 4096
def inPool (a : Nat) : Bool := 0x04000000 ≤ a && a < 0x10000000

/-- Whether the role of a port accepts a request (Table RDG-6). -/
def State.accepts (s : State) (n a : Nat) (write : Bool) : Bool :=
  match s.role n with
  | 0 => true
  | 1 => !write || (inPool a && (s.ringOf (winPage a)).isSome)
  | _ => false

/-- Whether a request is refused (R290). -/
def State.refuses (s : State) (n : Nat) (h : Txn) (write : Bool) : Bool :=
  breaksR287 h.addr (4 * h.len) || !inRegion h.addr (4 * h.len) || !s.accepts n h.addr write

/-! ## Reads (R287, R291) -/

/-- A completion of a read. -/
def cplPkt (h : Txn) (cst : Nat) (data : List Byte) : Pkt :=
  { h := { ttype := if data.isEmpty then 4 else 3, cst := cst, len := data.length / 4, tag := h.tag, addr := 0 }, data := data }

/-- Complete a read and return its header credit. -/
def finishMrd (n : Nat) (h : Txn) (cst : Nat) (data : List Byte) (s : State) : State := (releaseCr n 0 0 1 s).send n (cplPkt h cst data)

/-- The granules of an extent that cannot be read. -/
def State.badIn (s : State) (sp a n : Nat) : List Nat := (granules a n).filter (fun g => (s.bad sp).contains g)

/-- Bytes with zeros in place of those of the given granules. -/
def zeroed (l : List Nat) : Nat → List Byte → List Byte
  | _, [] => []
  | a, b :: r => (if l.contains (a / 64) then 0 else b) :: zeroed l (a + 1) r

/-- A read of the pool or the aperture: CST POISON and zeros where a granule cannot be read; each such pool granule counts under source
0x07 (R85, R291). -/
def readMem (n : Nat) (port : Fin 12) (h : Txn) (s : State) : State :=
  let (sp, x) := s.winAt (.port port) h.addr
  let l := s.badIn sp x (4 * h.len)
  let s := if sp = 3 then forAll l (fun g t => poolFault (g / 64) t) s else s
  finishMrd n h (if l.isEmpty then 0 else 2) (zeroed l x (s.load sp x (4 * h.len))) s

/-- A memory read request. One of VCM that is not UP waits for its timeout (R287). `corrected` is how many granules of the pool it meets
with a single-bit error, which are corrected and counted (R85). -/
def mrdIn (port : Fin 12) (h : Txn) (corrected : Nat) (s : State) : State :=
  let n := port.val
  if s.refuses n h false then finishMrd n h 1 [] (s.inc .LK_TXN_UR_CNT n)
  else if h.addr < 0x10000 then
    let x := csrRead (.port port) h.addr (4 * h.len) s
    finishMrd n h 0 (bytesOf (4 * h.len) x.1) x.2
  else if 0x800000000 ≤ h.addr && !s.vcmUp then s.onLp n (fun x => { x with mrds := x.mrds ++ [(h, s.now)] })
  else readMem n port h (if inPool h.addr then s.inc .POOL_ERR_CORR 0 0 corrected else s)
def execMrd (port : Fin 12) (h : Txn) (corrected : Nat) (s : State) : Out := .next <|
  if s.pst port.val != PUP then s else if Malformed 1 h then endStream port.val s else mrdIn port h corrected s

/-- A read has waited for 10 µs: ABORT (R287). -/
def execMrdTimeout (port : Fin 12) (tag : Nat) (s : State) : Out := .next <|
  let n := port.val
  match (s.lp n).mrds.find? (fun e => e.1.tag == tag && decide (e.2 + 10000 ≤ s.now)) with
  | some e => finishMrd n e.1 3 [] (s.onLp n (fun x => { x with mrds := x.mrds.erase e }))
  | none => s

/-- A completion: the device asks for no reads of its own through a port, so a well-formed one has no effect. -/
def execCpl (port : Fin 12) (h : Txn) (_data : List Byte) (s : State) : Out := .next <|
  if s.pst port.val == PUP && Malformed (if h.ttype = 4 then 4 else 3) h then endStream port.val s else s

/-! ## Writes (R79, R290) -/

/-- Whether bytes of a pool page lie among those of a ring that are committed and not yet consumed: at some count of bytes from TAIL up
to the accepted end. -/
def State.unread (s : State) (r a n : Nat) : Bool :=
  let t := s.r .SR_TAIL_TAIL r
  let x := s.rg r
  let size := max 1 (s.ringSize r)
  (upTo n).any (fun i => decide ((a + i + size - (pageAt x.page + t % size) % size) % size < x.accepted - t))

/-- Whether an accepted write of n bytes is discarded: a pool page that is neither a ring page in use nor in the host area, or the table,
capture area or ring of a pitch that is not idle. Of a stream ring in play these are the bytes between TAIL and HEAD, which R97 tells the
host not to write; beyond them it writes the rows that it commits next (log entry 45). Bound arrays are the window store's own check. -/
def State.discards (s : State) (port : Fin 12) (a n : Nat) : Bool :=
  if inPool a then
    match s.ringOf (winPage a) with
    | some r => s.r .SR_CFG_USE r == 1 && !s.idle (s.r .SR_CFG_PITCH r) && s.unread r (s.winAt (.port port) a).2 n
    | none => !(HOST_PAGE ≤ winPage a && winPage a < HOST_END)
  else
    let e : Extent := ((s.winAt (.port port) a).2, n)
    (upTo 32).any (fun p => !s.idle p && (clash (s.tableAt p) e ||
      (s.members p).any (fun g => clash (u64 (s.r .CU_AREA_BASE_BASE g), u64 (s.r .CU_AREA_SIZE_SIZE g)) e)))

/-- The effect of a well-formed write: refused, on a register, discarded, or on memory. -/
def writeIn (port : Fin 12) (h : Txn) (b : List Byte) (s : State) : State :=
  if s.refuses port h true then s.inc .LK_TXN_UR_CNT port
  else if h.addr < 0x10000 then csrWrite (.port port) h.addr b.length (ofBytes b) s
  else if s.discards port h.addr b.length then s.inc .POOL_ERR_WIN_REJECT_CNT
  else s.winStore (.port port) h.addr b

/-- A memory write request. -/
def mwrIn (port : Fin 12) (h : Txn) (data : List Byte) (s : State) : State :=
  let b := packetData h data
  releaseCr port.val 1 (ceilDiv b.length 32) 0 (writeIn port h b s)
def execMwr (port : Fin 12) (h : Txn) (data : List Byte) (s : State) : Out := .next <|
  if s.pst port.val != PUP then s else if Malformed 2 h then endStream port.val s else mwrIn port h data s

/-! ## Messages (R292) -/

/-- Whether a role carries a message code that Table RDG-9 assigns. -/
def carries (role code : Nat) : Bool :=
  match role with
  | 0 => (1 ≤ code && code ≤ 0xFF) || (0x400 ≤ code && code ≤ 0x4FF)
  | 1 => 0x400 ≤ code && code ≤ 0x4FF
  | 2 => code == CAPSTREAM
  | _ => 0x300 ≤ code && code ≤ 0x3FF

/-- A message becomes a work item of its port, or of the twin. -/
def postMsg (n : Nat) (h : Txn) (s : State) : State :=
  let body := pack [(16, h.mcode), (8, h.len)]
  if s.role n = TWIN then post 6 0 6 0x200 body false s else post 3 n 5 (0x100 + n) body false s

/-- A received message: a work item of its port, or of the twin (Table DSP-2). Its credits return when the dispatch unit has taken it. -/
def msgIn (n : Nat) (h : Txn) (data : List Byte) (s : State) : State :=
  let cr := ceilDiv (packetData h data).length 32
  if !carries (s.role n) h.mcode then releaseCr n 1 cr 0 (s.inc .LK_TXN_UR_CNT n)
  else
    let t := postMsg n h s
    if t.disp.refused.any (fun x => x.id == s.disp.nextId) then t else releaseCr n 1 cr 0 t
def execMsg (port : Fin 12) (h : Txn) (data : List Byte) (s : State) : Out := .next <|
  if s.pst port.val != PUP then s else if Malformed 5 h then endStream port.val s else msgIn port.val h data s

/-! ## System starts (R313, R314) -/

/-- START_AT as it is forwarded. -/
def startAtBytes (id mask peg seg report : Nat) : List Byte :=
  bytesOf 20 (pack [(32, id), (32, mask), (40, peg), (21, if seg < 2 ^ 20 then seg else 2 ^ 20), (4, report)])

/-- START_REPORT. -/
def State.reportBytes (s : State) (id st armed : Nat) : List Byte :=
  bytesOf 20 (pack [(32, id), (64, s.devId), (8, st), (24, 0), (32, armed)])

/-- START_REPORT to its port, if that is one. -/
def sendReport (port id st armed : Nat) (s : State) : State :=
  if port < 12 then s.send port (msgPkt 0x0402 (s.reportBytes id st armed)) else s

/-- A start of a core cycle that ends: it stands and its command or its report says so, or it was refused (R129, R308). -/
def confirmStart (x : StartNow) (s : State) : State :=
  let st := if x.refused then ST_REFUSED else ST_OK
  let s := if x.refused then s else confirmPitches x.mask x.resume s
  let s := match x.d with
    | some d => complete 0x0605 d st false 0 0 0 { s with jobs := s.jobs.filter (· != .start d) }
    | none => s
  match x.report with
  | some r => sendReport r.1 r.2 st (if x.refused then 0 else x.mask) s
  | none => s

/-- A START_AT not seen before: forwarded, carried out as SEQ.START at its peg, and reported. -/
def startAt (n id mask peg seg report : Nat) (s : State) : State :=
  let s := { s with guy := { s.guy with startIds := lastN 64 (s.guy.startIds ++ [id]) } }
  let s := (maskBits 12 (s.r .TM_FWD_FWD)).foldl (fun t m =>
    if m = n then t else t.send m (msgPkt 0x0401 (startAtBytes id mask peg seg report))) s
  let x := if (s.psOff mask).1 then (s, some (s.psOff mask).2)
    else startPitches (mask % 2 ^ 32) (some (peg % 2 ^ 40)) (if seg < 2 ^ 20 then some seg else none) { report := some (report, id) } s
  match x with
  | (s, some st) => sendReport report id st 0 s
  | (s, none) => s

/-- A START_AT message: `seg` is the start segment, or 2^20 and above for RESUME. -/
def execStartAt (port : Fin 12) (id mask peg seg report : Nat) (s : State) : Out := .next <|
  let n := port.val
  if s.pst n != PUP || !(s.role n == HOST || s.role n == MESH) || s.guy.startIds.contains id then s
  else startAt n id mask peg seg report s

/-! ## The I3C port and JTAG (R405, R473, R474) -/

/-- A private write of an offset and data. -/
def execI3cWrite (off : Nat) (data : List Byte) (s : State) : Out := .next <|
  if csrAccess off data.length then csrWrite .i3c off data.length (ofBytes data) s else s

/-- A private write of an offset alone. -/
def execI3cPointer (off : Nat) (s : State) : Out := .next <|
  if off < 65536 then { s with bus := { s.bus with i3cPtr := off } } else s

/-- Emergency park, in every phase. -/
def execEmergencyPark (s : State) : Out := .next (settle (parkAll 3 s))

/-- A private transfer without an end for 10 ms is abandoned: none of its bytes has reached a register. -/
def execI3cTimeout (s : State) : Out := .next s

/-- Whether the debug level and the pitches allow an instruction. -/
def State.jtagOk (s : State) (op : Jtag) : Bool :=
  match op with
  | .bypass | .idcode => true
  | .sample | .extest | .extestPulse | .extestTrain => (upTo 32).all s.idle
  | .mpHalt | .mpMemory | .scan => s.r .SEC_STATE_DBG == 2
  | .keyUnit => false

/-- The facility that the JTAG port offers now: the instruction, or BYPASS while the debug level or the pitches do not allow it. -/
def State.jtagActs (s : State) : Jtag := if s.jtagOk s.bus.jtag then s.bus.jtag else .bypass

/-- What IDCODE reads (Table PKG-10). -/
def jtagIdcode : Nat := pack [(1, 1), (11, Config.makerCode.toNat), (16, 0x1024), (4, 2)]

/-- The JTAG port takes an instruction (R405, Table TRU-12). -/
def execJtagInstruction (op : Jtag) (s : State) : Out := .next { s with bus := { s.bus with jtag := op } }

end Sys2Proof.Machine
end

