-- ==== Sys2Proof/Machine/Wire.lean ====
section
/-! DEFINITION. What a Ridge lane carries: scrambled codewords, frames with their CRC, control words, and the transaction stream
(R267 to R273, R286, R290, R295). -/

namespace Sys2Proof.Machine

/-! ## Frames (R269) -/

/-- One step of the CRC-32 of IEEE 802.3, least significant bit first. -/
def crcBit (c : Nat) : Nat := if c % 2 = 1 then (c / 2) ^^^ 0xEDB88320 else c / 2

/-- The CRC-32 of IEEE 802.3 over bytes. -/
def crc32 (b : List Byte) : Nat :=
  (b.foldl (fun c x => (List.range 8).foldl (fun c _ => crcBit c) (c ^^^ x.toNat)) 0xFFFFFFFF) ^^^ 0xFFFFFFFF

/-- The head, the body and the CRC of a frame (Table RDG-3). -/
def frameHead (f : Frame) : Nat := ofBytes (f.bytes.take 4)
def frameType (f : Frame) : Nat := bits (frameHead f) 3 0
def frameSeq (f : Frame) : Nat := bits (frameHead f) 15 4
def frameAck (f : Frame) : Nat := bits (frameHead f) 27 16
def frameBody (f : Frame) : List Byte := (f.bytes.drop 4).take 120
def frameCrc (f : Frame) : Nat := ofBytes (f.bytes.drop 124)

/-- A frame that is not discarded: of a codeword that was corrected, with its CRC and an assigned FTYPE (R269). -/
def frameGood (f : Frame) : Bool := f.bytes.length == 128 && frameCrc f == crc32 (f.bytes.take 124) && decide (frameType f < 3)

/-! ## Control words (R270) -/

/-- Bytes as words of 8 B. -/
def wordsOf : Nat → List Byte → List (List Byte)
  | 0, _ => []
  | k + 1, b => b.take 8 :: wordsOf k (b.drop 8)

/-- The control words of a body, as numbers: up to 15, and the code 0x00 ends the list. -/
def ctrlWords (b : List Byte) : List Nat := ((wordsOf 15 b).map ofBytes).takeWhile (fun w => w % 256 != 0)

/-- Whether a control word has a code of Table RDG-4, and a NAK a number in the replay span (R295). -/
def State.knows (s : State) (n w : Nat) : Bool :=
  decide (w % 256 < 10) && (w % 256 != 1 || (s.lp n).spans (bits w 19 8))

/-- A control word takes its effect (Table RDG-4; where its content lies in bytes 1 to 7 is log entry 30). -/
def ctrlIn (n w : Nat) (s : State) : State :=
  match w % 256 with
  | 1 => nakIn n (bits w 19 8) s
  | 2 => creditIn n (bits w 15 8) (bits w 31 16) s
  | 3 => restripeIn n (bits w 11 8) (bits w 19 16) s
  | 4 => restripeAckIn n (bits w 11 8) (bits w 19 16) s
  | 5 => idleReqIn n s
  | 6 => idleAckIn n s
  | 7 => idleNakIn n s
  | 8 => soakIn (bits w 15 8) (bit w 16) s
  | 9 => wakeTxIn n s
  | _ => s

/-! ## The transaction stream (R286) -/

/-- The header that 16 bytes spell (Table RDG-7). -/
def readTxn (b : List Byte) : Txn :=
  let w := ofBytes (b.take 8)
  { ttype := bits w 3 0, cst := bits w 7 4, len := bits w 15 8, tag := bits w 27 16, mcode := bits w 47 32, group := bits w 52 48
    addr := ofBytes ((b.drop 8).take 8), rsv := bits w 31 28 + 16 * bits w 63 53 }

/-- The bytes that follow a header: its data, padded to a multiple of 8 B; a read and a completion without data have none. -/
def txnPadded (h : Txn) : Nat := if h.ttype = 1 || h.ttype = 4 then 0 else 8 * ceilDiv (4 * h.len) 8

/-- A packet takes its effect. PTP is left to its row, whose time stamps no byte carries (log entry 30). -/
def packetIn (port : Fin 12) (h : Txn) (data : List Byte) (s : State) : State :=
  match h.ttype with
  | 1 => mrdIn port h 0 s
  | 2 => mwrIn port h data s
  | 5 => msgIn port.val h data s
  | _ => s

/-- Take the packets that the received stream holds whole; words of zeros are padding, and a malformed header ends the stream (R290). -/
def streamIn (port : Fin 12) : Nat → State → State
  | 0, s => s
  | k + 1, s =>
    let n := port.val
    let b := (s.lp n).rx
    let h := readTxn b
    if b.length < 8 then s
    else if (b.take 8).all (· == 0) then streamIn port k (s.onLp n (fun x => { x with rx := b.drop 8 }))
    else if b.length < 16 then s
    else if h.ttype == 0 || 6 < h.ttype || Malformed h.ttype h then endStream n s
    else if b.length < 16 + txnPadded h then s
    else streamIn port k (packetIn port h (b.drop 16) (s.onLp n (fun x => { x with rx := b.drop (16 + txnPadded h) })))

/-! ## Receiving (R269, R271) -/

/-- A DATA frame in FSEQ order: it is owed an ACK, which wakes a sleeping transmitter at 64 frames, and its bytes join the stream. -/
def acceptFrame (port : Fin 12) (f : Frame) (s : State) : State :=
  let n := port.val
  let s := dropWord n 1 (s.onLp n (fun x =>
    let k := x.rxUnacked + 1
    { (if 64 ≤ k then x.wake else x) with
      fseqRx := (x.fseqRx + 1) % 4096, nakSent := false
      rxAt := if x.rxUnacked = 0 then s.now else x.rxAt
      rxUnacked := if 64 ≤ k then 0 else k
      rx := x.rx ++ frameBody f }))
  streamIn port ((s.lp n).rx.length / 8 + 1) s

/-- A DATA frame: accepted in order, NAKed at a gap, and acknowledged again where it came before. -/
def dataIn (port : Fin 12) (f : Frame) (s : State) : State :=
  let n := port.val
  let e := (s.lp n).fseqRx
  if frameSeq f = e then acceptFrame port f s
  else if (frameSeq f + 4096 - e) % 4096 < 2048 then (if (s.lp n).nakSent then s else sendNak n s)
  else s.onLp n (fun x => { x with rxUnacked := 0 })

/-- A frame that a port receives (R269, R271). The ACK applies before a NAK of the same frame; a CTRL frame with a word that R295 does not
admit is discarded whole. -/
def frameIn (port : Fin 12) (f : Frame) (s : State) : State :=
  let n := port.val
  let w := ctrlWords (frameBody f)
  if s.pst n != PUP then s
  else if !frameGood f || (frameType f == 2 && !w.all (s.knows n)) then badFrame n s
  else
    let s := ackBefore n ((frameAck f + 1) % 4096) (s.onLp n (fun x => { x with asleepRx := f.marker && s.rb .LK_STATE_COMPAT n }))
    match frameType f with
    | 1 => dataIn port f s
    | 2 => w.foldl (fun t v => ctrlIn n v t) s
    | _ => s
def execFrameReceive (port : Fin 12) (f : Frame) (s : State) : Out := .next <| frameIn port f s

/-! ## Codewords (R267, R268, R273, R274) -/

/-- The next eight bits of the scrambler x^58 + x^39 + 1, the first of them the most significant. -/
def scrByte (r : Nat) : Nat := ((r >>> 50) ^^^ (r >>> 31)) % 256

/-- A byte with its bits reversed. -/
def revByte (k : Nat) : Byte := BitVec.ofNat 8 (maskOf ((upTo 8).filter (fun i => k.testBit (7 - i))))

/-- Descramble bytes: the scrambler's state after them, and the bytes (the least significant bit is on the line first, log entry 30). -/
def descramble : Nat → List Byte → Nat × List Byte
  | r, [] => (r, [])
  | r, b :: l =>
    let k := scrByte r
    let x := descramble ((r * 256 + k) % 2 ^ 58) l
    (x.1, (b ^^^ revByte k) :: x.2)

/-- The five frames of a codeword. -/
def framesOf (marker : Bool) (b : List Byte) : List Frame :=
  (upTo 5).map (fun i => { bytes := (b.drop (128 * i)).take 128, marker := marker && i == 4 })

/-- Deliver the held codewords in CW_SEQ order while the next one is there. -/
def deliver (port : Fin 12) : Nat → State → State
  | 0, s => s
  | k + 1, s =>
    let n := port.val
    match (s.lp n).cwNext with
    | none => s
    | some q =>
      match (s.lp n).cwHold.find? (fun e => e.1 == q) with
      | none => s
      | some e =>
        deliver port k (e.2.foldl (fun t f => frameIn port f t)
          (s.onLp n (fun x => { x with cwNext := some ((q + 1) % 65536), cwHold := x.cwHold.filter (fun y => y.1 != q) })))

/-- The lane's own part of a codeword: its counts, and the descrambler, which starts anew after a comma (R267, R268). -/
def Lane.codeword (x : Lane) (scr : Nat) (uncorrectable commaMissed : Bool) : Lane :=
  let comma := x.cw + 1 == 16384
  { x with
    scr := if comma then 2 ^ 58 - 1 else scr
    cw := if comma then 0 else x.cw + 1
    commaMiss := if comma then (if commaMissed then x.commaMiss + 1 else 0) else x.commaMiss
    ucRun := if uncorrectable then x.ucRun + 1 else 0 }

/-- Whether a port accepts a stripe generation: the present one, and both while a re-stripe is under way (R275). -/
def LPort.takesGen (x : LPort) (g : Nat) : Bool := g == x.genRx || x.oldGen || (match x.pend with | some q => g == q.2 | none => false)

/-- A codeword on a lane that carries traffic: its counts, and its frames once the codewords before it are there. -/
def codewordIn (lane : Fin 48) (tag : Nat) (line : List Byte) (uncorrectable commaMissed marker : Bool) (s : State) : State :=
  let l := lane.val
  let port : Fin 12 := ⟨l / 4, by omega⟩
  let n := port.val
  let d := descramble (s.ln l).scr ((List.range 640).map (fun i => line.getD i 0))
  let s := s.onLn l (fun x => x.codeword d.1 uncorrectable commaMissed)
  let s := if uncorrectable then s.inc .LK_LANE_UCW_CNT n (l % 4) else s
  let fs := if uncorrectable then List.replicate 5 ({} : Frame) else framesOf marker d.2
  let q := bits tag 15 0
  let s :=
    if (s.lp n).takesGen (bits tag 19 16) then
      let s := s.onLp n (fun x => { x with cwNext := some (x.cwNext.getD q), cwHold := x.cwHold ++ [(q, fs)] })
      deliver port ((s.lp n).cwHold.length + 1) s
    else s
  if 3 ≤ (s.ln l).ucRun || 2 ≤ (s.ln l).commaMiss then laneLost l s else s

/-- A codeword of a lane: its tag (Table RDG-2) and the 640 bytes of its frames as the line carries them. At every 16,384th boundary the
comma is expected; two misses, or three uncorrectable codewords in a row, lose the lane. -/
def execCodewordReceive (lane : Fin 48) (tag : Nat) (line : List Byte) (uncorrectable commaMissed marker : Bool) (s : State) : Out := .next <|
  if s.lst lane != LACTIVE || s.pst (lane / 4) != PUP then s
  else codewordIn lane tag line uncorrectable commaMissed marker s

end Sys2Proof.Machine
end

