-- ==== Sys2Proof/Machine/Dispatch.lean ====
section
/-! DEFINITION. One arm per command: each calls its meaning. -/

namespace Sys2Proof.Machine

/-- The effect of a command on everything but the queue. -/
def exec (i : Instr) (s : State) : Host.Outcome State Fault Refusal :=
  match i with
  | .unsupportedCommand d cmd => Sys2Proof.Machine.execUnsupportedCommand d cmd s
  | .sysInfo d => Sys2Proof.Machine.execSysInfo d s
  | .sysNop d => Sys2Proof.Machine.execSysNop d s
  | .sysAckShutdown d => Sys2Proof.Machine.execSysAckShutdown d s
  | .coatLoad d => Sys2Proof.Machine.execCoatLoad d s
  | .coatApply d => Sys2Proof.Machine.execCoatApply d s
  | .coatList d => Sys2Proof.Machine.execCoatList d s
  | .chConfig d => Sys2Proof.Machine.execChConfig d s
  | .chPark d => Sys2Proof.Machine.execChPark d s
  | .tsetWrite d => Sys2Proof.Machine.execTsetWrite d s
  | .tsetRead d => Sys2Proof.Machine.execTsetRead d s
  | .tsetInvalidate d => Sys2Proof.Machine.execTsetInvalidate d s
  | .patBind d portFail => Sys2Proof.Machine.execPatBind d portFail s
  | .patStage d portFail => Sys2Proof.Machine.execPatStage d portFail s
  | .patQuota d => Sys2Proof.Machine.execPatQuota d s
  | .patRing d => Sys2Proof.Machine.execPatRing d s
  | .patPrepare d => Sys2Proof.Machine.execPatPrepare d s
  | .patRelease d => Sys2Proof.Machine.execPatRelease d s
  | .seqForm d => Sys2Proof.Machine.execSeqForm d s
  | .seqFollow d => Sys2Proof.Machine.execSeqFollow d s
  | .seqLoad d => Sys2Proof.Machine.execSeqLoad d s
  | .seqProg d => Sys2Proof.Machine.execSeqProg d s
  | .seqStart d => Sys2Proof.Machine.execSeqStart d s
  | .seqStop d => Sys2Proof.Machine.execSeqStop d s
  | .seqHalt d => Sys2Proof.Machine.execSeqHalt d s
  | .seqFlag d => Sys2Proof.Machine.execSeqFlag d s
  | .seqCounter d => Sys2Proof.Machine.execSeqCounter d s
  | .seqMark d => Sys2Proof.Machine.execSeqMark d s
  | .seqPrime d => Sys2Proof.Machine.execSeqPrime d s
  | .seqService d => Sys2Proof.Machine.execSeqService d s
  | .capConfig d => Sys2Proof.Machine.execCapConfig d s
  | .capTrigset d => Sys2Proof.Machine.execCapTrigset d s
  | .capBus d => Sys2Proof.Machine.execCapBus d s
  | .capArm d => Sys2Proof.Machine.execCapArm d s
  | .capTrig d => Sys2Proof.Machine.execCapTrig d s
  | .capDisarm d => Sys2Proof.Machine.execCapDisarm d s
  | .capClear d => Sys2Proof.Machine.execCapClear d s
  | .capFirstfail d => Sys2Proof.Machine.execCapFirstfail d s
  | .tdcSetup d => Sys2Proof.Machine.execTdcSetup d s
  | .tdcArm d => Sys2Proof.Machine.execTdcArm d s
  | .tdcResult d => Sys2Proof.Machine.execTdcResult d s
  | .tdcAbort d => Sys2Proof.Machine.execTdcAbort d s
  | .tdcRelease d => Sys2Proof.Machine.execTdcRelease d s
  | .tdcStrip d => Sys2Proof.Machine.execTdcStrip d s
  | .calRun d => Sys2Proof.Machine.execCalRun d s
  | .calCommit d => Sys2Proof.Machine.execCalCommit d s
  | .calDiscard d => Sys2Proof.Machine.execCalDiscard d s
  | .calSysoff d => Sys2Proof.Machine.execCalSysoff d s
  | .vcmInfo d => Sys2Proof.Machine.execVcmInfo d s
  | .vcmErrlog d => Sys2Proof.Machine.execVcmErrlog d s
  | .vcmFill d => Sys2Proof.Machine.execVcmFill d s
  | .vcmRetrain d => Sys2Proof.Machine.execVcmRetrain d s
  | .vcmScrub d => Sys2Proof.Machine.execVcmScrub d s
  | .linkConfig d => Sys2Proof.Machine.execLinkConfig d s
  | .linkEnable d => Sys2Proof.Machine.execLinkEnable d s
  | .linkDisable d => Sys2Proof.Machine.execLinkDisable d s
  | .linkLane d => Sys2Proof.Machine.execLinkLane d s
  | .linkAperture d => Sys2Proof.Machine.execLinkAperture d s
  | .linkStatus d => Sys2Proof.Machine.execLinkStatus d s
  | .timeGuycfg d => Sys2Proof.Machine.execTimeGuycfg d s
  | .timeAlign d => Sys2Proof.Machine.execTimeAlign d s
  | .timeAccept d => Sys2Proof.Machine.execTimeAccept d s
  | .timePtpcfg d => Sys2Proof.Machine.execTimePtpcfg d s
  | .timeSet d => Sys2Proof.Machine.execTimeSet d s
  | .timeRead d => Sys2Proof.Machine.execTimeRead d s
  | .timeFwd d => Sys2Proof.Machine.execTimeFwd d s
  | .secQuote d => Sys2Proof.Machine.execSecQuote d s
  | .secLog d => Sys2Proof.Machine.execSecLog d s
  | .secCert d => Sys2Proof.Machine.execSecCert d s
  | .secKeystate d => Sys2Proof.Machine.execSecKeystate d s
  | .secOwner d => Sys2Proof.Machine.execSecOwner d s
  | .secDebug d => Sys2Proof.Machine.execSecDebug d s
  | .secSeal d => Sys2Proof.Machine.execSecSeal d s
  | .secLot d => Sys2Proof.Machine.execSecLot d s
  | .secRing d => Sys2Proof.Machine.execSecRing d s
  | .secFlow d => Sys2Proof.Machine.execSecFlow d s
  | .thmConfig d => Sys2Proof.Machine.execThmConfig d s
  | .thmRead d => Sys2Proof.Machine.execThmRead d s
  | .thmShutrec d => Sys2Proof.Machine.execThmShutrec d s
  | .recRead d => Sys2Proof.Machine.execRecRead d s
  | .recFlush d => Sys2Proof.Machine.execRecFlush d s
  | .recCalendar d => Sys2Proof.Machine.execRecCalendar d s
  | .twinPair d => Sys2Proof.Machine.execTwinPair d s
  | .twinUnpair d => Sys2Proof.Machine.execTwinUnpair d s
  | .twinStatus d => Sys2Proof.Machine.execTwinStatus d s
  | .patBindDone g => Sys2Proof.Machine.execPatBindDone g s
  | .patStageDone g portFailAt => Sys2Proof.Machine.execPatStageDone g portFailAt s
  | .patPrepareDone p => Sys2Proof.Machine.execPatPrepareDone p s
  | .seqLoadDone p portFail => Sys2Proof.Machine.execSeqLoadDone p portFail s
  | .calRunDone units phases => Sys2Proof.Machine.execCalRunDone units phases s
  | .calCommitDone => Sys2Proof.Machine.execCalCommitDone  s
  | .vcmFillDone k => Sys2Proof.Machine.execVcmFillDone k s
  | .vcmRetrainDone fail => Sys2Proof.Machine.execVcmRetrainDone fail s
  | .groupRamp => Sys2Proof.Machine.execGroupRamp  s
  | .descriptorTake mb => Sys2Proof.Machine.execDescriptorTake mb s
  | .mbDb path mb v => Sys2Proof.Machine.execMbDb path mb v s
  | .mbCplConsWrite mb v => Sys2Proof.Machine.execMbCplConsWrite mb v s
  | .mbEnable mb cfg => Sys2Proof.Machine.execMbEnable mb cfg s
  | .mbDisable mb => Sys2Proof.Machine.execMbDisable mb s
  | .evrEnable cfg => Sys2Proof.Machine.execEvrEnable cfg s
  | .evrConsWrite v => Sys2Proof.Machine.execEvrConsWrite v s
  | .sqCmdArm g seg => Sys2Proof.Machine.execSqCmdArm g seg s
  | .sqCmdResume g => Sys2Proof.Machine.execSqCmdResume g s
  | .sqCmdSnap g => Sys2Proof.Machine.execSqCmdSnap g s
  | .phRegisterWrite p r v => Sys2Proof.Machine.execPhRegisterWrite p r v s
  | .srCommit r v => Sys2Proof.Machine.execSrCommit r v s
  | .cuStailWrite g v => Sys2Proof.Machine.execCuStailWrite g v s
  | .resConsWrite v => Sys2Proof.Machine.execResConsWrite v s
  | .twMresConsWrite v => Sys2Proof.Machine.execTwMresConsWrite v s
  | .duQuotaWrite c quota v => Sys2Proof.Machine.execDuQuotaWrite c quota v s
  | .rcRead path off => Sys2Proof.Machine.execRcRead path off s
  | .latchedPairRead path off => Sys2Proof.Machine.execLatchedPairRead path off s
  | .registerWrite path off wide v => Sys2Proof.Machine.execRegisterWrite path off wide v s
  | .nop g w => Sys2Proof.Machine.execNop g w s
  | .mov g w => Sys2Proof.Machine.execMov g w s
  | .ldi g w => Sys2Proof.Machine.execLdi g w s
  | .add g w => Sys2Proof.Machine.execAdd g w s
  | .addi g w => Sys2Proof.Machine.execAddi g w s
  | .sub g w => Sys2Proof.Machine.execSub g w s
  | .and g w => Sys2Proof.Machine.execAnd g w s
  | .or g w => Sys2Proof.Machine.execOr g w s
  | .xor g w => Sys2Proof.Machine.execXor g w s
  | .shl g w => Sys2Proof.Machine.execShl g w s
  | .shr g w => Sys2Proof.Machine.execShr g w s
  | .cmp g w => Sys2Proof.Machine.execCmp g w s
  | .cmpi g w => Sys2Proof.Machine.execCmpi g w s
  | .ldent g w => Sys2Proof.Machine.execLdent g w s
  | .fld g w => Sys2Proof.Machine.execFld g w s
  | .issue g w => Sys2Proof.Machine.execIssue g w s
  | .push g w => Sys2Proof.Machine.execPush g w s
  | .pop g w => Sys2Proof.Machine.execPop g w s
  | .topw g w => Sys2Proof.Machine.execTopw g w s
  | .ldins g w => Sys2Proof.Machine.execLdins g w s
  | .disp g w => Sys2Proof.Machine.execDisp g w s
  | .setf g w => Sys2Proof.Machine.execSetf g w s
  | .clrl g w => Sys2Proof.Machine.execClrl g w s
  | .armc g w => Sys2Proof.Machine.execArmc g w s
  | .pndg g w => Sys2Proof.Machine.execPndg g w s
  | .setstop g w => Sys2Proof.Machine.execSetstop g w s
  | .post g w => Sys2Proof.Machine.execPost g w s
  | .test g w result => Sys2Proof.Machine.execTest g w result s
  | .reti g w => Sys2Proof.Machine.execReti g w s
  | .csrr g w => Sys2Proof.Machine.execCsrr g w s
  | .csrw g w => Sys2Proof.Machine.execCsrw g w s
  | .reservedOpcode g w => Sys2Proof.Machine.execReservedOpcode g w s
  | .interruptTake g => Sys2Proof.Machine.execInterruptTake g s
  | .primerTimeout g => Sys2Proof.Machine.execPrimerTimeout g s
  | .loopBegin p => Sys2Proof.Machine.execLoopBegin p s
  | .loopEnd p => Sys2Proof.Machine.execLoopEnd p s
  | .call p => Sys2Proof.Machine.execCall p s
  | .ret p => Sys2Proof.Machine.execRet p s
  | .wait p => Sys2Proof.Machine.execWait p s
  | .setflag p => Sys2Proof.Machine.execSetflag p s
  | .startInstant p => Sys2Proof.Machine.execStartInstant p s
  | .startDeadline d => Sys2Proof.Machine.execStartDeadline d s
  | .vectorStart p reads => Sys2Proof.Machine.execVectorStart p reads s
  | .underrun p g => Sys2Proof.Machine.execUnderrun p g s
  | .boundary p => Sys2Proof.Machine.execBoundary p s
  | .mapSegmentPublish p => Sys2Proof.Machine.execMapSegmentPublish p s
  | .edgePlacement c sig => Sys2Proof.Machine.execEdgePlacement c sig s
  | .markPulseEnd n => Sys2Proof.Machine.execMarkPulseEnd n s
  | .strobeSample c cmh cml => Sys2Proof.Machine.execStrobeSample c cmh cml s
  | .judgementResolve c => Sys2Proof.Machine.execJudgementResolve c s
  | .evaluation p => Sys2Proof.Machine.execEvaluation p s
  | .triggerTimeout p => Sys2Proof.Machine.execTriggerTimeout p s
  | .busLineEnd n => Sys2Proof.Machine.execBusLineEnd n s
  | .acquisitionOpen p => Sys2Proof.Machine.execAcquisitionOpen p s
  | .rearm p => Sys2Proof.Machine.execRearm p s
  | .disarmEnd p => Sys2Proof.Machine.execDisarmEnd p s
  | .recordRelease g => Sys2Proof.Machine.execRecordRelease g s
  | .stopInstant p => Sys2Proof.Machine.execStopInstant p s
  | .stoppingComplete p => Sys2Proof.Machine.execStoppingComplete p s
  | .coatWaitTimeout k => Sys2Proof.Machine.execCoatWaitTimeout k s
  | .refStamp src rising coarse fine => Sys2Proof.Machine.execRefStamp src rising coarse fine s
  | .refMissingTimeout p => Sys2Proof.Machine.execRefMissingTimeout p s
  | .acqTimeout p => Sys2Proof.Machine.execAcqTimeout p s
  | .holdLimit p => Sys2Proof.Machine.execHoldLimit p s
  | .grefTimeout => Sys2Proof.Machine.execGrefTimeout  s
  | .grefFreqCheck ppm => Sys2Proof.Machine.execGrefFreqCheck ppm s
  | .grefReturn => Sys2Proof.Machine.execGrefReturn  s
  | .multiplierLock => Sys2Proof.Machine.execMultiplierLock  s
  | .tdcx00CalDone x => Sys2Proof.Machine.execTdcx00CalDone x s
  | .gpegPulse coarse fine width64 => Sys2Proof.Machine.execGpegPulse coarse fine width64 s
  | .echoDrive => Sys2Proof.Machine.execEchoDrive  s
  | .reflectionTimeout => Sys2Proof.Machine.execReflectionTimeout  s
  | .pegWindowMiss => Sys2Proof.Machine.execPegWindowMiss  s
  | .timeAlignTimeout => Sys2Proof.Machine.execTimeAlignTimeout  s
  | .xtrigEdge n rising tPs durPs => Sys2Proof.Machine.execXtrigEdge n rising tPs durPs s
  | .parkNAssert lowNs => Sys2Proof.Machine.execParkNAssert lowNs s
  | .parkNRelease highNs => Sys2Proof.Machine.execParkNRelease highNs s
  | .tdcArmInstant code => Sys2Proof.Machine.execTdcArmInstant code s
  | .tdcStamp code cml rising coarse fine => Sys2Proof.Machine.execTdcStamp code cml rising coarse fine s
  | .freqGateWindow code => Sys2Proof.Machine.execFreqGateWindow code s
  | .measurementTimeout code => Sys2Proof.Machine.execMeasurementTimeout code s
  | .vcmReadDone a err => Sys2Proof.Machine.execVcmReadDone a err s
  | .rowRepair vp => Sys2Proof.Machine.execRowRepair vp s
  | .refreshInterval vp => Sys2Proof.Machine.execRefreshInterval vp s
  | .thermalSample die hbm => Sys2Proof.Machine.execThermalSample die hbm s
  | .dieTrip sensor => Sys2Proof.Machine.execDieTrip sensor s
  | .throttleTick => Sys2Proof.Machine.execThrottleTick  s
  | .avsTick ack mv ma margin => Sys2Proof.Machine.execAvsTick ack mv ma margin s
  | .pmbusTimeout => Sys2Proof.Machine.execPmbusTimeout  s
  | .porstNAssert lowNs => Sys2Proof.Machine.execPorstNAssert lowNs s
  | .porstNRelease => Sys2Proof.Machine.execPorstNRelease  s
  | .warmrstNAssert lowNs => Sys2Proof.Machine.execWarmrstNAssert lowNs s
  | .warmrstNRelease => Sys2Proof.Machine.execWarmrstNRelease  s
  | .pwrfailNAssert lowNs => Sys2Proof.Machine.execPwrfailNAssert lowNs s
  | .startPhaseEnd die selfTestFail vcmFail td0 => Sys2Proof.Machine.execStartPhaseEnd die selfTestFail vcmFail td0 s
  | .xspiTimeout ptype copy => Sys2Proof.Machine.execXspiTimeout ptype copy s
  | .i3cWrite off data => Sys2Proof.Machine.execI3cWrite off data s
  | .i3cPointer off => Sys2Proof.Machine.execI3cPointer off s
  | .emergencyPark => Sys2Proof.Machine.execEmergencyPark  s
  | .i3cTimeout => Sys2Proof.Machine.execI3cTimeout  s
  | .jtagInstruction op => Sys2Proof.Machine.execJtagInstruction op s
  | .codewordReceive lane tag line uncorrectable commaMissed marker => Sys2Proof.Machine.execCodewordReceive lane tag line uncorrectable commaMissed marker s
  | .laneLockTimeout lane => Sys2Proof.Machine.execLaneLockTimeout lane s
  | .frameReceive port f => Sys2Proof.Machine.execFrameReceive port f s
  | .nak port fseq => Sys2Proof.Machine.execNak port fseq s
  | .ackTimeout port => Sys2Proof.Machine.execAckTimeout port s
  | .ackSendTimer port => Sys2Proof.Machine.execAckSendTimer port s
  | .credit port kind count => Sys2Proof.Machine.execCredit port kind count s
  | .restripe port map gen => Sys2Proof.Machine.execRestripe port map gen s
  | .restripeAck port map gen => Sys2Proof.Machine.execRestripeAck port map gen s
  | .idleReq port => Sys2Proof.Machine.execIdleReq port s
  | .idleAck port => Sys2Proof.Machine.execIdleAck port s
  | .idleNak port => Sys2Proof.Machine.execIdleNak port s
  | .idleDelayTimeout port => Sys2Proof.Machine.execIdleDelayTimeout port s
  | .exitBurst port => Sys2Proof.Machine.execExitBurst port s
  | .wakeTx port => Sys2Proof.Machine.execWakeTx port s
  | .soak lane pass => Sys2Proof.Machine.execSoak lane pass s
  | .soakEnd lane uncorrectable serHigh => Sys2Proof.Machine.execSoakEnd lane uncorrectable serHigh s
  | .laneTrainDone lane pre post => Sys2Proof.Machine.execLaneTrainDone lane pre post s
  | .slowLaneCheck port counts => Sys2Proof.Machine.execSlowLaneCheck port counts s
  | .signalDetect port => Sys2Proof.Machine.execSignalDetect port s
  | .signalLoss port lanes => Sys2Proof.Machine.execSignalLoss port lanes s
  | .capabilityBlock port cap => Sys2Proof.Machine.execCapabilityBlock port cap s
  | .equalizeDone port fir => Sys2Proof.Machine.execEqualizeDone port fir s
  | .alignDone port => Sys2Proof.Machine.execAlignDone port s
  | .trainingTimeout port => Sys2Proof.Machine.execTrainingTimeout port s
  | .backoffEnd port => Sys2Proof.Machine.execBackoffEnd port s
  | .mrd port h corrected => Sys2Proof.Machine.execMrd port h corrected s
  | .mwr port h data => Sys2Proof.Machine.execMwr port h data s
  | .cpl port h data => Sys2Proof.Machine.execCpl port h data s
  | .mrdTimeout port tag => Sys2Proof.Machine.execMrdTimeout port tag s
  | .creditStall port => Sys2Proof.Machine.execCreditStall port s
  | .msg port h data => Sys2Proof.Machine.execMsg port h data s
  | .startAt port id mask peg seg report => Sys2Proof.Machine.execStartAt port id mask peg seg report s
  | .ptp port m => Sys2Proof.Machine.execPtp port m s
  | .announceTimeout => Sys2Proof.Machine.execAnnounceTimeout  s
  | .tsqEntryTimeout port => Sys2Proof.Machine.execTsqEntryTimeout port s
  | .tsqHoldTimeout port => Sys2Proof.Machine.execTsqHoldTimeout port s
  | .workItemPost cls producer type key payload held => Sys2Proof.Machine.execWorkItemPost cls producer type key payload held s
  | .workItemReady id => Sys2Proof.Machine.execWorkItemReady id s
  | .workItemDispatch server => Sys2Proof.Machine.execWorkItemDispatch server s
  | .workItemDone server results => Sys2Proof.Machine.execWorkItemDone server results s
  | .duLoadWindow => Sys2Proof.Machine.execDuLoadWindow  s
  | .flowBudgetTimer core site => Sys2Proof.Machine.execFlowBudgetTimer core site s
  | .flowHangTimer core => Sys2Proof.Machine.execFlowHangTimer core s
  | .flowEntryReturn core => Sys2Proof.Machine.execFlowEntryReturn core s
  | .flowEntryTimeout core => Sys2Proof.Machine.execFlowEntryTimeout core s
  | .signatureDone => Sys2Proof.Machine.execSignatureDone  s
  | .reservationWriteDone ok => Sys2Proof.Machine.execReservationWriteDone ok s
  | .sessionKeyGenerated => Sys2Proof.Machine.execSessionKeyGenerated  s
  | .sealTimer => Sys2Proof.Machine.execSealTimer  s
  | .challengeExpiry => Sys2Proof.Machine.execChallengeExpiry  s
  | .flushTimer => Sys2Proof.Machine.execFlushTimer  s
  | .flushDone badCopies => Sys2Proof.Machine.execFlushDone badCopies s
  | .recReadRetry => Sys2Proof.Machine.execRecReadRetry  s
  | .lifeSecond => Sys2Proof.Machine.execLifeSecond  s
  | .railSample mv => Sys2Proof.Machine.execRailSample mv s
  | .laneHour lane bin => Sys2Proof.Machine.execLaneHour lane bin s
  | .calendarCheck => Sys2Proof.Machine.execCalendarCheck  s
  | .heartbeatSend => Sys2Proof.Machine.execHeartbeatSend  s
  | .heartbeat seq pstate => Sys2Proof.Machine.execHeartbeat seq pstate s
  | .heartbeatMiss => Sys2Proof.Machine.execHeartbeatMiss  s
  | .failing => Sys2Proof.Machine.execFailing  s
  | .mirror items => Sys2Proof.Machine.execMirror items s
  | .mirrorAck n => Sys2Proof.Machine.execMirrorAck n s
  | .pair ident half senior pages complete => Sys2Proof.Machine.execPair ident half senior pages complete s
  | .syncDone => Sys2Proof.Machine.execSyncDone  s
  | .twinPairTimeout => Sys2Proof.Machine.execTwinPairTimeout  s
  | .twinAliveTimeout high => Sys2Proof.Machine.execTwinAliveTimeout high s
  | .twinAliveRange => Sys2Proof.Machine.execTwinAliveRange  s
  | .twinAliveReturn => Sys2Proof.Machine.execTwinAliveReturn  s
  | .sidebandTimeout => Sys2Proof.Machine.execSidebandTimeout  s
  | .internalFault groups => Sys2Proof.Machine.execInternalFault groups s
  | .stageChunkTimeout g => Sys2Proof.Machine.execStageChunkTimeout g s
  | .deepStoreRowFeed r rows => Sys2Proof.Machine.execDeepStoreRowFeed r rows s
  | .refreshIssue vp allBank => Sys2Proof.Machine.execRefreshIssue vp allBank s
  | .vcmWriteDrain vp => Sys2Proof.Machine.execVcmWriteDrain vp s
  | .ptpMessageInterval port kind => Sys2Proof.Machine.execPtpMessageInterval port kind s

end Sys2Proof.Machine
end

