-- ==== Sys2Proof/Machine/Tick.lean ====
section
/-! DEFINITION. The passing of one core cycle: what the hardware and the firmware do without a command (log entry 1). -/

namespace Sys2Proof.Machine

/-- The beat counter counts a beat of 8 core cycles (R298); without GREF it goes on with the held edge clock (R37). -/
def beatTick (s : State) : State :=
  if !(s.guy.gref || s.guy.everLocked) then s
  else if s.guy.sub = 7 then { s with guy := { s.guy with sub := 0, beat := (s.guy.beat + 1) % 2 ^ 48 } }
  else { s with guy := { s.guy with sub := s.guy.sub + 1 } }

/-- The core cycles of a scrub pass: 12 hours (R256). -/
abbrev SCRUB_PASS : Nat := 43200000000000

/-- Scrub goes on while it is enabled, VCM is UP, background work is not shed, and no stack is throttled; a pass that ends is counted (R253,
R256, Table PWR-4). -/
def scrubTick (s : State) : State :=
  if !s.rb .VCM_SCRUB_EN || !s.vcmUp || s.shedding || (upTo 4).any (fun v => s.r .VS_STAT_TMODE v == 2) then s
  else if s.vcm.scrub + 1 = SCRUB_PASS then { s.inc .VCM_SCRUB_PASSES with vcm := { s.vcm with scrub := 0 } }
  else { s with vcm := { s.vcm with scrub := s.vcm.scrub + 1 } }

/-- The firmware's standing work: records that may now be appended, a closing lot, and mirroring (R399, R401, R446). -/
def serviceTick (s : State) : State :=
  let s := partnerGo (lotGo (appendAll s))
  let s := if s.twin.blocked.isEmpty then s else takeItems [] s
  sendMirror (viewChanges s)

/-- The W1C bits that a lasting condition holds set read 1 again in the cycle after a clear (R365): those of Tables CAL-8, VCM-3, PWR-8
and REC-11 that show a condition, not an event (log entry 96). -/
def lastingBits (s : State) : State :=
  let s := forAll ((upTo 32).filter (fun g => s.rb .CAL_GSTAT_DRIFT g)) (fun g t => t.w .CAL_GSTAT_DRIFT_SEEN g 1) s
  let s := forAll ((upTo 4).filter (fun v => s.r .VS_STAT_TMODE v == 2)) (fun v t => t.w .VS_STAT_THROTTLE_SEEN v 1) s
  let s := if s.pwr.refuse then s.w .THM_SEEN_REFUSE_SEEN 0 1 else s
  let s := if s.pwr.critical then s.w .THM_SEEN_CRIT_SEEN 0 1 else s
  if s.r .TW_STATE_STATE == TW_SEPARATED then s.w .TW_STATE_SEPARATED_SEEN 0 1 else s

/-- The dispatch unit at the end of a core cycle: refused items try again, and what stays refused is counted (R358, R360). -/
def settleDispatch (s : State) : State :=
  let s := settleRefused (readmit s)
  s.cyc.mbRefused.foldl (fun t n => settleMailbox n t) s

/-- A new core cycle begins: its starts stand, what it still had to report is reported, and its events are forgotten (R129, R134, R365, R366); the
targets of its thermal samples apply (R237). -/
def newCycle (s : State) : State :=
  let s := settleDispatch <| closeMeasures <| reportEnded <|
    (if s.halted then [] else s.cyc.starts).foldl (fun t x => confirmStart x t) s
  sampleDue <| lastingBits { s with now := s.now + 1, cyc := { regs := s.regs } }

/-- The clocks have advanced, and stand so as the core cycle begins (R366). -/
def noteClocks (s : State) : State := onCyc (fun c => { c with clocks := some s.clocks }) s

/-- One core cycle of the model's time base. While the domains outside VAUX are held, only time passes. -/
def tick (s : State) : State :=
  let s := newCycle s
  if s.halted then s else serviceTick (scrubTick (forAll (upTo 8) settleMark (finalTick (measTick (latchAll (xtrigTick (noteClocks (clockTick (beatTick (reclaim (supplyAll (blockTick s))))))))))))

end Sys2Proof.Machine
end

