-- ==== Sys2Proof/Machine/Package.lean ====
section
/-! DEFINITION. The contact map of the package (R461 to R465): which contact stands at which site of the land grid. -/

namespace Sys2Proof.Machine

/-- A site of the 131 × 131 grid (R461): its row and its column, each from 1 to 131. -/
structure GridSite where
  row : Nat
  col : Nat
  deriving DecidableEq, Repr

/-- The centre of a site from the body centre, in tenths of a millimetre (R461). -/
def GridSite.centre (t : GridSite) : Int × Int := (((t.col : Int) - 66) * 8, (66 - (t.row : Int)) * 8)

/-- The pairs of a channel. -/
inductive ChanPair where
  | drv | den | cmh | cml
  deriving DecidableEq, Repr

/-- The pairs of the core's signal regions (S1, S2). -/
inductive CorePair where
  | refclk (cx : Nat) | cxTx (cx lane : Nat) | cxRx (cx lane : Nat)
  | gref | gpeg | gpegRet | auxt (n : Nat) | xtrig (n : Nat) | mark (n : Nat) | vcoreSense
  deriving DecidableEq, Repr

/-- The single-ended signals of the core's signal regions. -/
inductive CoreSingle where
  | perst (cx : Nat) | wake (cx : Nat) | twinAliveO | twinAliveI
  | porst | warmrst | pwrfail | thermtrip | park | i3cScl | i3cSda | pmbScl | pmbSda | pmbAlert
  | xspiClk | xspiCs | xspiDqs | xspiDq (n : Nat) | xspiReset | tck | tms | tdi | tdo | trst
  deriving DecidableEq, Repr

/-- The rails. The rails of a stack carry its number. -/
inductive Rail where
  | vcore | vsram | vch | vpll | vser | vserh | vcxl | vaux | vcmp (n : Nat) | vcmc (n : Nat) | vcmq (n : Nat)
  deriving DecidableEq, Repr

/-- A contact. `neg` is the second contact, n, of a pair. -/
inductive Contact where
  | chan (c : Nat) (pair : ChanPair) (neg : Bool)
  | lane (l : Nat) (tx neg : Bool)
  | pair (x : CorePair) (neg : Bool)
  | single (x : CoreSingle)
  | rail (x : Rail)
  | vss
  deriving DecidableEq, Repr

/-! ## Bands and gap strips (R462, R463) -/

/-- A place of the local frame of side s: x along the edge, y inward. -/
def place (s x y : Nat) : GridSite :=
  match s with
  | 0 => ⟨1 + y, 1 + x⟩
  | 1 => ⟨1 + x, 131 - y⟩
  | 2 => ⟨131 - y, 131 - x⟩
  | _ => ⟨131 - x, 1 + y⟩

/-- Footprint column i, position k of channel c (R462). -/
def channelSite (c i k : Nat) : GridSite :=
  let g := c / 32
  let p := c % 32
  let j := g % 8
  place (g / 8) (24 * (j % 4) + 3 * (p % 8) + i) (16 * (j / 4) + 4 * (p / 8) + k)

/-- Column i, position n (0 or 1) of lane l in its gap strip (R463). -/
def laneSite (l i n : Nat) : GridSite := place (l / 12) (96 + i) (2 * (l % 12) + n)

/-- The side and the local place of a site outside the core. -/
def localPlace (t : GridSite) : Nat × Nat × Nat :=
  if t.row ≤ 32 && t.col ≤ 99 then (0, t.col - 1, t.row - 1)
  else if t.row ≤ 99 && 100 ≤ t.col then (1, t.row - 1, 131 - t.col)
  else if 100 ≤ t.row && 33 ≤ t.col then (2, 131 - t.col, 131 - t.row)
  else (3, 131 - t.row, t.col - 1)

/-- A contact of the four positions of one footprint column: two pairs. -/
def fourOf (c k : Nat) (a b : ChanPair) : Contact := .chan c (if k < 2 then a else b) (k % 2 == 1)

/-- The contact of a channel band (R462). -/
def bandContact (s x y : Nat) : Contact :=
  let c := 32 * (8 * s + (x / 24 + 4 * (y / 16))) + (x % 24 / 3 + 8 * (y % 16 / 4))
  match x % 3 with
  | 0 => fourOf c (y % 4) .drv .den
  | 1 => .vss
  | _ => fourOf c (y % 4) .cmh .cml

/-- The contact of a gap strip (R463). -/
def stripContact (s i y : Nat) : Contact :=
  if y < 24 then
    match i with
    | 0 => .lane (12 * s + y / 2) true (y % 2 == 1)
    | 1 => .vss
    | _ => .lane (12 * s + y / 2) false (y % 2 == 1)
  else if y < 26 then .rail .vserh
  else .vss

/-! ## The core (R464) -/

/-- A contact list's entry for a signal region. -/
inductive CoreItem where
  | pair (x : CorePair)
  | single (x : CoreSingle)
  deriving DecidableEq, Repr

/-- Numbers below n. -/
abbrev below (n : Nat) : List Nat := List.range n

/-- One row of a signal region: the items in order, a VSS after each pair, and VSS to the row's end where a pair does not fit. -/
def signalRow : List GridSite → List CoreItem → List (GridSite × Contact) × List CoreItem
  | [], l => ([], l)
  | a :: r, [] => let (x, l) := signalRow r []; ((a, .vss) :: x, l)
  | a :: r, .single n :: l => let (x, l) := signalRow r l; ((a, .single n) :: x, l)
  | [a], .pair n :: l => ([(a, .vss)], .pair n :: l)
  | [a, b], .pair n :: l => ([(a, .pair n false), (b, .pair n true)], l)
  | a :: b :: c :: r, .pair n :: l => let (x, l) := signalRow r l; ((a, .pair n false) :: (b, .pair n true) :: (c, .vss) :: x, l)

/-- A signal region, row by row. -/
def signalFill : List (List GridSite) → List CoreItem → List (GridSite × Contact)
  | [], _ => []
  | row :: r, l => let (x, l) := signalRow row l; x ++ signalFill r l

/-- A power region: the rail contacts at the odd-numbered sites until they are used up. -/
def powerFill : List GridSite → List Rail → List (GridSite × Contact)
  | [], _ => []
  | a :: r, [] => (a, .vss) :: powerFill r []
  | [a], n :: _ => [(a, .rail n)]
  | a :: b :: r, n :: l => (a, .rail n) :: (b, .vss) :: powerFill r l

/-- Rows a to b and columns c to d, without the empty site 039-033. -/
def rowsOf (a b c d : Nat) : List (List GridSite) :=
  (List.range' a (b + 1 - a)).map (fun r =>
    ((List.range' c (d + 1 - c)).map (fun k => (⟨r, k⟩ : GridSite))).filter (· != ⟨39, 33⟩))

/-- The contacts of regions S1, S2 and S3 in fill order (Table PKG-3). -/
def s1Items : List CoreItem :=
  (below 2).flatMap (fun x => .pair (.refclk x) ::
    (below 16).flatMap (fun l => [.pair (.cxTx x l), .pair (.cxRx x l)]) ++ [.single (.perst x), .single (.wake x)])
def s2Items : List CoreItem :=
  [.pair .gref, .pair .gpeg, .pair .gpegRet] ++ (below 16).map (fun n => .pair (.auxt n)) ++
    (below 8).map (fun n => .pair (.xtrig n)) ++ (below 8).map (fun n => .pair (.mark n)) ++
    [.pair .vcoreSense, .single .twinAliveO, .single .twinAliveI]
def s3Items : List CoreItem :=
  ([CoreSingle.porst, .warmrst, .pwrfail, .thermtrip, .park, .i3cScl, .i3cSda, .pmbScl, .pmbSda, .pmbAlert, .xspiClk, .xspiCs, .xspiDqs] ++
    (below 8).map CoreSingle.xspiDq ++ [CoreSingle.xspiReset, .tck, .tms, .tdi, .tdo, .trst]).map CoreItem.single

/-- The rails of two stacks in fill order. -/
def stackRails (a b : Nat) : List Rail :=
  [a, b].flatMap (fun n => List.replicate 4 (Rail.vcmp n) ++ List.replicate 28 (Rail.vcmc n) ++ List.replicate 24 (Rail.vcmq n))

/-- The regions of the core that hold contacts (Table PKG-3). -/
inductive Region where
  | s1 | s2 | s3 | pa | pb | pc | pd | pe | pf | pg | ph
  deriving DecidableEq, Repr

def Region.fill : Region → List (GridSite × Contact)
  | .s1 => signalFill (rowsOf 33 38 42 90) s1Items
  | .s2 => signalFill (rowsOf 94 99 42 90) s2Items
  | .s3 => signalFill (rowsOf 39 93 33 35) s3Items
  | .pa => powerFill (rowsOf 39 93 36 43).flatten (List.replicate 208 .vch)
  | .pb => powerFill (rowsOf 39 93 44 48).flatten (stackRails 0 1)
  | .pc => powerFill (rowsOf 39 93 49 58).flatten []
  | .pd => powerFill (rowsOf 39 93 59 73).flatten (List.replicate 400 .vcore)
  | .pe => powerFill (rowsOf 39 93 74 77).flatten (List.replicate 72 .vsram ++ List.replicate 24 .vpll ++ List.replicate 8 .vaux)
  | .pf => powerFill (rowsOf 39 93 78 82).flatten (List.replicate 80 .vser ++ List.replicate 32 .vcxl)
  | .pg => powerFill (rowsOf 39 93 83 94).flatten []
  | .ph => powerFill (rowsOf 39 93 95 99).flatten (stackRails 2 3)

/-- The region of a site of the core; none in a keep-out. -/
def regionOf (t : GridSite) : Option Region :=
  if t.row ≤ 38 then (if 42 ≤ t.col && t.col ≤ 90 then some .s1 else none)
  else if 94 ≤ t.row then (if 42 ≤ t.col && t.col ≤ 90 then some .s2 else none)
  else if t.col ≤ 35 then some .s3
  else if t.col ≤ 43 then some .pa
  else if t.col ≤ 48 then some .pb
  else if t.col ≤ 58 then some .pc
  else if t.col ≤ 73 then some .pd
  else if t.col ≤ 77 then some .pe
  else if t.col ≤ 82 then some .pf
  else if t.col ≤ 94 then some .pg
  else some .ph

def GridSite.inCore (t : GridSite) : Bool := 33 ≤ t.row && t.row ≤ 99 && 33 ≤ t.col && t.col ≤ 99
def GridSite.onGrid (t : GridSite) : Bool := 1 ≤ t.row && t.row ≤ 131 && 1 ≤ t.col && t.col ≤ 131

/-- The contact at a site; none at an empty one (R461 to R464). -/
def contactAt (t : GridSite) : Option Contact :=
  if !t.onGrid then none
  else if t.inCore then
    match regionOf t with
    | some g => (g.fill.find? (fun e => e.1 == t)).map (·.2)
    | none => none
  else
    let (s, x, y) := localPlace t
    some (if x < 96 then bandContact s x y else stripContact s (x - 96) y)

/-- How many contacts of the core a test holds for (Table PKG-4). -/
def coreCount (f : Contact → Bool) : Nat :=
  ([Region.s1, .s2, .s3, .pa, .pb, .pc, .pd, .pe, .pf, .pg, .ph].map (fun g => (g.fill.filter (fun e => f e.2)).length)).foldl (· + ·) 0

end Sys2Proof.Machine
end

