-- ==== Sys2Proof/Safety.lean ====
section
/-! DEFINITION. What a safe run is: every step answers a next state, and every state keeps its memories and its register file in
canonical form, each register field within its width. -/

namespace Sys2Proof.Machine

/-- A step that answers a next state. -/
def Completes (c : Instr) (s : State) : Prop := ∃ t, exec c s = .next t

/-- Every memory of the device is in canonical form. -/
def Mems.wf (m : Mems) : Bool := m.pool.wf && m.vcm.wf && m.cx0.wf && m.cx1.wf && m.flash.wf

/-- The register file lists its keys in strictly rising order, and every entry fits its field and differs from its reset value. -/
def regsWf (t : Regs) : Prop :=
  (t.map (·.1)).Pairwise (fun a b => a.lt b = true) ∧
    ∀ e ∈ t, e.2 < 2 ^ e.1.fld.width ∧ e.2 ≠ e.1.fld.resetAt e.1.unit e.1.idx

/-- The invariant of the device: memories and registers in canonical form, and every register field within its width. -/
def State.Good (s : State) : Prop := s.mem.wf = true ∧ regsWf s.regs

/-- A state that keeps the invariant, with a given queue and a given time. -/
def State.Ok (q : List Instr) (n : Nat) (s : State) : Prop := s.Good ∧ s.pending = q ∧ s.now = n

/-- A host command that may start and passes the checks every command shares (R331, R332, R420, R454, R480): its mailbox is enabled and
it is next in its order, the device is READY, its mailbox is not one taken over, and its reserved bits are zero. -/
abbrev Admitted (cmd : Nat) (d : Desc) (s : State) : Prop :=
  s.startable cmd d = true ∧ s.ready = true ∧ (s.taken' d.mb && !takenCmd cmd d) = false ∧ d.rsv = 0

/-- No check of a list fails. -/
abbrev Passes (l : List (Bool × Nat)) : Prop := ∀ c ∈ l, c.1 = false

/-! ## Conditions and classes that the statements name -/

/-- The place in the pool of the record with count x of the event ring. -/
abbrev evrSlot (s : State) (x : Nat) : Nat := pageAt (s.r .EVR_CFG_EVR_PAGE) + 32 * (x % s.evrSize)

/-- Where the next completion of a mailbox goes. -/
abbrev cplSlot (s : State) (mb : Nat) : Nat := pageAt (s.r .MB_CPLCFG_CPL_PAGE mb) + 32 * (s.r .MB_CPL_PROD_COUNT mb % s.mbSize mb)

/-- The items of a list that a producer of a class holds, and the entries the reservations leave. -/
abbrev shareLeft (s : State) : Int :=
  8192 - (((upTo 8).map (fun c => ((upTo (duN c)).map (fun p => max (s.duHp c p) (s.duR c))).sum)).sum : Nat)

/-- The items have numbers of their own, and no two in service share an order key, but for the key that means no order. -/
def oneInService (s : State) : Prop :=
  (s.disp.items.map (·.id)).Nodup ∧
  ∀ x ∈ s.disp.items, ∀ y ∈ s.disp.items, ∀ v t w u, x.st = .service v t → y.st = .service w u → x.key = y.key → x.key ≠ 0xFFFF →
    x.id = y.id

/-- The host commands of Tables MBX-4 and the later chapters, with the code that their descriptors carry; the other rows are no
commands of a mailbox. -/
def hostCmd (c : Instr) : Option (Nat × Desc) :=
  match c with
  | .sysInfo d => some (0x0101, d)
  | .sysNop d => some (0x0102, d)
  | .sysAckShutdown d => some (0x0103, d)
  | .coatLoad d => some (0x0201, d)
  | .coatApply d => some (0x0202, d)
  | .coatList d => some (0x0203, d)
  | .chConfig d => some (0x0301, d)
  | .chPark d => some (0x0302, d)
  | .tsetWrite d => some (0x0401, d)
  | .tsetRead d => some (0x0402, d)
  | .tsetInvalidate d => some (0x0403, d)
  | .patBind d _ => some (0x0501, d)
  | .patStage d _ => some (0x0502, d)
  | .patQuota d => some (0x0503, d)
  | .patRing d => some (0x0504, d)
  | .patPrepare d => some (0x0505, d)
  | .patRelease d => some (0x0506, d)
  | .seqForm d => some (0x0601, d)
  | .seqFollow d => some (0x0602, d)
  | .seqLoad d => some (0x0603, d)
  | .seqProg d => some (0x0604, d)
  | .seqStart d => some (0x0605, d)
  | .seqStop d => some (0x0606, d)
  | .seqHalt d => some (0x0607, d)
  | .seqFlag d => some (0x0608, d)
  | .seqCounter d => some (0x0609, d)
  | .seqMark d => some (0x060A, d)
  | .seqPrime d => some (0x060B, d)
  | .seqService d => some (0x060C, d)
  | .capConfig d => some (0x0701, d)
  | .capTrigset d => some (0x0702, d)
  | .capBus d => some (0x0703, d)
  | .capArm d => some (0x0704, d)
  | .capTrig d => some (0x0705, d)
  | .capDisarm d => some (0x0706, d)
  | .capClear d => some (0x0707, d)
  | .capFirstfail d => some (0x0708, d)
  | .tdcSetup d => some (0x0801, d)
  | .tdcArm d => some (0x0802, d)
  | .tdcResult d => some (0x0803, d)
  | .tdcAbort d => some (0x0804, d)
  | .tdcRelease d => some (0x0805, d)
  | .tdcStrip d => some (0x0806, d)
  | .calRun d => some (0x0901, d)
  | .calCommit d => some (0x0902, d)
  | .calDiscard d => some (0x0903, d)
  | .calSysoff d => some (0x0904, d)
  | .vcmInfo d => some (0x0A01, d)
  | .vcmErrlog d => some (0x0A02, d)
  | .vcmFill d => some (0x0A03, d)
  | .vcmRetrain d => some (0x0A04, d)
  | .vcmScrub d => some (0x0A05, d)
  | .linkConfig d => some (0x0B01, d)
  | .linkEnable d => some (0x0B02, d)
  | .linkDisable d => some (0x0B03, d)
  | .linkLane d => some (0x0B04, d)
  | .linkAperture d => some (0x0B05, d)
  | .linkStatus d => some (0x0B06, d)
  | .timeGuycfg d => some (0x0C01, d)
  | .timeAlign d => some (0x0C02, d)
  | .timeAccept d => some (0x0C03, d)
  | .timePtpcfg d => some (0x0C04, d)
  | .timeSet d => some (0x0C05, d)
  | .timeRead d => some (0x0C06, d)
  | .timeFwd d => some (0x0C07, d)
  | .secQuote d => some (0x0D01, d)
  | .secLog d => some (0x0D02, d)
  | .secCert d => some (0x0D03, d)
  | .secKeystate d => some (0x0D04, d)
  | .secOwner d => some (0x0D05, d)
  | .secDebug d => some (0x0D06, d)
  | .secSeal d => some (0x0D07, d)
  | .secLot d => some (0x0D08, d)
  | .secRing d => some (0x0D09, d)
  | .secFlow d => some (0x0D20, d)
  | .recRead d => some (0x0E01, d)
  | .recFlush d => some (0x0E02, d)
  | .recCalendar d => some (0x0E03, d)
  | .thmConfig d => some (0x0F01, d)
  | .thmRead d => some (0x0F02, d)
  | .thmShutrec d => some (0x0F03, d)
  | .twinPair d => some (0x1001, d)
  | .twinUnpair d => some (0x1002, d)
  | .twinStatus d => some (0x1003, d)
  | _ => none

/-- The two commands that run before READY as after it (R339). -/
abbrev beforeReady (cmd : Nat) : Prop := cmd = 0x0101 ∨ cmd = 0x0102

/-- The registers of a Ridge port that its link layer moves. -/
def linkFields : List Fld :=
  [.LK_STATE_STATE, .LK_STATE_ATTEMPT, .LK_STATE_LMAP, .LK_STATE_GEN, .LK_STATE_SIGDET, .LK_LANE_LSTATE, .LK_CNT_RETRAIN_CNT,
    .LK_CNT_REPLAY_CNT, .LK_CNT_RESTRIPE_CNT, .LK_ERR_NAK_CNT, .LK_ERR_CRC_CNT, .LK_TXN_DROP_MSG, .LK_TXN_UR_CNT]

/-- The rows of the Ridge link layer that raise no event. -/
def linkQuiet (c : Instr) : Bool :=
  match c with
  | .nak .. | .idleDelayTimeout .. | .alignDone .. | .restripeAck .. | .ackSendTimer .. | .idleNak .. | .credit ..
  | .ackTimeout .. | .cpl .. | .idleReq .. | .laneTrainDone .. | .mrdTimeout .. | .backoffEnd .. | .wakeTx .. | .idleAck ..
  | .restripe .. | .equalizeDone .. | .signalDetect .. | .exitBurst .. | .soakEnd .. | .soak .. | .laneHour .. => true
  | _ => false

/-- The registers of a pitch that its flow program moves. -/
def flowFields : List Fld :=
  [.PT_POS_SEG, .PT_POS_IP, .PT_POS_IMODE, .PT_PASS_PASS, .PT_STACK_LOOP_DEPTH, .PT_STACK_CALL_DEPTH, .PT_STACK_PEND_TARGET,
      .PT_RUN_PEND,
    .PT_RUN_STATE, .PT_RUN_STOP_CAUSE, .PT_RUN_DROP, .PT_RUN_DEFER, .PT_RUN_DEFER_CNT, .PT_FLAGS_FLAG, .SQ_INTP_PEND]

/-- The flow instruction that a row runs, and its pitch. -/
def flowPitch (c : Instr) : Option (Fin 32) :=
  match c with
  | .loopBegin p | .loopEnd p | .call p | .ret p | .wait p | .setflag p => some p
  | _ => none

/-- The rows whose effect lies in no register and no memory. -/
def inner (c : Instr) : Bool :=
  match c with
  | .echoDrive .. | .busLineEnd .. | .jtagInstruction .. | .parkNRelease .. | .railSample .. | .mapSegmentPublish ..
  | .xspiTimeout .. | .warmrstNRelease .. | .challengeExpiry .. | .i3cPointer .. | .acquisitionOpen .. | .markPulseEnd .. | .i3cTimeout .. => true
  | _ => false

/-- The plain microwords: their group, OPC and word, and whether they write DST. -/
def plainMicro (c : Instr) : Option (Fin 32 × Nat × Micro × Bool) :=
  match c with
  | .nop g w => some (g, 0x00, w, false)
  | .mov g w => some (g, 0x01, w, true)
  | .ldi g w => some (g, 0x02, w, true)
  | .add g w => some (g, 0x03, w, true)
  | .addi g w => some (g, 0x04, w, true)
  | .sub g w => some (g, 0x05, w, true)
  | .and g w => some (g, 0x06, w, true)
  | .or g w => some (g, 0x07, w, true)
  | .xor g w => some (g, 0x08, w, true)
  | .shl g w => some (g, 0x09, w, true)
  | .shr g w => some (g, 0x0A, w, true)
  | .cmp g w => some (g, 0x0B, w, false)
  | .cmpi g w => some (g, 0x0C, w, false)
  | _ => none

/-- The consumer counts: the register each row writes, and its unit. -/
def consumer (c : Instr) : Option (Fld × Nat × Nat) :=
  match c with
  | .cuStailWrite g v => some (.CU_STAIL_TAIL, g.val, v)
  | .resConsWrite v => some (.RES_CONS_COUNT, 0, v)
  | .twMresConsWrite v => some (.TW_MRES_CONS_COUNT, 0, v)
  | .evrConsWrite v => some (.EVR_CONS_COUNT, 0, v)
  | _ => none

/-- The rows that ask for or take an interrupt of a sequencer, and their group. -/
def interruptRow (c : Instr) : Option (Fin 32) :=
  match c with
  | .sqCmdArm g _ | .sqCmdResume g | .sqCmdSnap g | .interruptTake g => some g
  | _ => none

/-! ## When each command has its own effect -/

/-! ### Packets, messages and the service buses take effect -/

/-- A well-formed read of memory that is ready answers with its bytes, and a refused one with status 1 (R290, R287, R85). -/
abbrev whenMrd (port : Fin 12) (h : Txn) (corrected : Nat) (s : State) : Prop :=
  s.pst port = PUP ∧ Malformed 1 h = false ∧ 0x10000 ≤ h.addr ∧ (0x800000000 ≤ h.addr → s.vcmUp = true)

/-- A read that waits 10 µs for the VCM ends with status 3 (R287). -/
abbrev whenMrdTimeout (port : Fin 12) (tag : Nat) (e : Txn × Nat) (s : State) : Prop :=
  (s.lp port).mrds.find? (fun e => e.1.tag == tag && decide (e.2 + 10000 ≤ s.now)) = some e

/-- A malformed completion ends the stream of its port, and any other has no effect (R287). -/
abbrev whenCpl (port : Fin 12) (h : Txn) (data : List Byte) (s : State) : Prop :=
  s.pst port = PUP

/-- A well-formed write has its effect and returns its credit (R290). -/
abbrev whenMwr (port : Fin 12) (h : Txn) (data : List Byte) (s : State) : Prop :=
  s.pst port = PUP ∧ Malformed 2 h = false

/-- A message that its port's role carries becomes a work item, and returns its credit when it is admitted (R292). -/
abbrev whenMsg (port : Fin 12) (h : Txn) (data : List Byte) (s : State) : Prop :=
  s.pst port = PUP ∧ Malformed 5 h = false ∧ carries (s.role port) h.mcode = true

/-- A START_AT not seen before on a HOST or MESH port is taken (R314). -/
abbrev whenStartAt (port : Fin 12) (id mask peg seg report : Nat) (s : State) : Prop :=
  s.pst port = PUP ∧ (s.role port = HOST ∨ s.role port = MESH) ∧ s.guy.startIds.contains id = false

/-- A write over I3C of an aligned word is a register write (R473). -/
abbrev whenI3cWrite (off : Nat) (data : List Byte) (s : State) : Prop :=
  csrAccess off data.length = true

/-- A pointer within 64 KiB is kept (R473). -/
abbrev whenI3cPointer (off : Nat) (s : State) : Prop :=
  off < 65536

/-! ### Calibration commands and their ends take effect -/

/-- CAL.RUN that passes its checks begins a run (R222). -/
abbrev whenCalRun (d : Desc) (s : State) : Prop :=
  Admitted 0x0901 d s ∧ Passes [args d 4, choice 2 d.a3, reachD d d.a0 128] ∧ Passes (calRunChecks d (started d s))

/-- The end of a run completes CAL.RUN: ST_FAULT with the first failing line when a unit failed (R222, R223, R231). -/
abbrev whenCalRunDone (units : List CalRaw) (phases : List CalPhase) (j : Job) (m mx what : Nat) (force : Bool)
    (c : State × Nat × Nat × Nat) (v₀ v₁ : Nat × State) (s : State) : Prop :=
  s.jobs.find? Job.isCalRun = some j ∧ s.cal.running = some (m, mx, what, force) ∧ c = calRunStaged units phases m mx what s ∧
      v₀ = resultWord ((calRunEnded c.2.2.1 (forAll (tdcsIn m mx) freeTdc c.1)).runTemps m mx) (calRunEnded c.2.2.1 (forAll
          (tdcsIn m mx) freeTdc c.1)) ∧ v₁ = resultWord c.2.1 v₀.2

/-- CAL.COMMIT that passes its checks begins its commit (R233). -/
abbrev whenCalCommit (d : Desc) (s : State) : Prop :=
  Admitted 0x0902 d s ∧ Passes [args d 1, bad (5 ≤ d.a0 && d.a0 != ALL1)] ∧ Passes (calCommitChecks d (started d s))

/-- The commit takes effect: a point gets its set, or the trims are set (R233). -/
abbrev whenCalCommitDone (d : Desc) (point : Nat) (s : State) : Prop :=
  s.jobs.find? Job.isCalCommit = some (.calCommit d point)

/-- CAL.DISCARD empties staging (R233). -/
abbrev whenCalDiscard (d : Desc) (s : State) : Prop :=
  Admitted 0x0903 d s ∧ Passes [args d 0]

/-- CAL.SYSOFF sets the system offsets (R241). -/
abbrev whenCalSysoff (d : Desc) (s : State) : Prop :=
  Admitted 0x0904 d s ∧ Passes (calSysoffForm d s) ∧ Passes (calSysoffAct d (started d s)).checks

/-! ### Stamps, measurements and the TDC commands take effect -/

/-- An edge at a TDC that is not held is stamped for the strip or the measurement that uses the TDC (R196, R195, R197, R201). -/
abbrev whenTdcStamp (code : Fin 1040) (cml rising : Bool) (coarse : Nat) (fine : Fin 1024) (s : State) : Prop :=
  code.val ≠ 1024 ∧ s.tdInCal code = false

/-- At its arm instant a READY or DONE measurement starts (R206). -/
abbrev whenTdcArmInstant (code : Fin 1040) (a : Nat) (s : State) : Prop :=
  (s.ms code).armAt = some a ∧ a ≤ s.now ∧ (s.mstate code = MREADY ∨ s.mstate code = MDONE)

/-- The end of a gate window of an ACTIVE frequency measurement gives its sample (R203). -/
abbrev whenFreqGateWindow (code : Fin 1040) (s : State) : Prop :=
  s.mstate code = MACTIVE ∧ mdType (s.ms code).desc = T_FREQ ∧ (mdGate (s.ms code).desc = 0 ∨ (s.ms code).gate = true) ∧
      (s.ms code).freqFrom + mdGateCc (s.ms code).desc ≤ s.now

/-- A measurement that reaches its TIMEOUT ends with status 5 when the core cycle ends, unless one of a lower number ends it, too (R213). -/
abbrev whenMeasurementTimeout (code : Fin 1040) (s : State) : Prop :=
  s.mstate code = MACTIVE ∧ (s.ms code).started + 1000 * mdTimeout (s.ms code).desc ≤ s.now

/-- TDC.SETUP takes the TDCs and makes the measurement READY (R205). -/
abbrev whenTdcSetup (d : Desc) (s : State) : Prop :=
  Admitted 0x0801 d s ∧ Passes [args d 2, bad (!tdcOk d.a0), reachD d d.a1 64, dis (s.tdOffUnit d.a0)] ∧
      Passes (tdcSetupChecks d (started d s))

/-- TDC.ARM sets the arm instant of each listed measurement (R206). -/
abbrev whenTdcArm (d : Desc) (s : State) : Prop :=
  Admitted 0x0802 d s ∧ Passes [args d 1, reachD d d.a0 8] ∧ Passes (tdcArmChecks d (started d s))

/-- TDC.RESULT writes the result of a measurement that has one (R215). -/
abbrev whenTdcResult (d : Desc) (s : State) : Prop :=
  Admitted 0x0803 d s ∧ Passes [args d 2, bad (!tdcOk d.a0), reachD d d.a1 64, dis (s.tdOffUnit d.a0)] ∧
      Passes (tdcResultChecks d (started d s))

/-- TDC.ABORT ends the listed ACTIVE measurements (R215). -/
abbrev whenTdcAbort (d : Desc) (s : State) : Prop :=
  Admitted 0x0804 d s ∧ Passes [args d 1, reachD d d.a0 8] ∧ Passes (tdcAbortChecks d (started d s))

/-- TDC.RELEASE frees the listed measurements (R215). -/
abbrev whenTdcRelease (d : Desc) (s : State) : Prop :=
  Admitted 0x0805 d s ∧ Passes [args d 1, reachD d d.a0 8] ∧ Passes (tdcReleaseChecks d (started d s))

/-- TDC.STRIP configures a group's strip (R216). -/
abbrev whenTdcStrip (d : Desc) (s : State) : Prop :=
  Admitted 0x0806 d s ∧ Passes (tdcStripForm d s) ∧ Passes (tdcStripAct d (started d s)).checks

/-! ### The CAP commands take effect -/

/-- CAP.CONFIG writes the capture registers of an idle group and empties its stream (R173). -/
abbrev whenCapConfig (d : Desc) (s : State) : Prop :=
  Admitted 0x0701 d s ∧ Passes (capConfigForm d s) ∧ Passes (capConfigAct d s).checks

/-- CAP.TRIGSET writes the trigger registers of an idle pitch (R171). -/
abbrev whenCapTrigset (d : Desc) (s : State) : Prop :=
  Admitted 0x0702 d s ∧ Passes (capTrigsetForm d s) ∧ Passes (capTrigsetAct d s).checks

/-- CAP.BUS writes the source of a trigger bus line whose pitches are idle (R172). -/
abbrev whenCapBus (d : Desc) (s : State) : Prop :=
  Admitted 0x0703 d s ∧ Passes (capBusForm d s) ∧ Passes (capBusAct d s).checks

/-- CAP.ARM arms an acquisition whose arguments keep Table CAP-6 (R175). -/
abbrev whenCapArm (d : Desc) (s : State) : Prop :=
  Admitted 0x0704 d s ∧ Passes [unit 32 d.a0, choice 2 d.a1, reachD d d.a6 48, s.pOff d.a0] ∧
      Passes ([(s.pstate d.a0 == STOPPING || s.r .PT_MEMBERS_MASK d.a0 == 0 || s.acqBusy d.a0, ST_STATE), s.rfault d d.a6 48,
      (s.listLen d d.a6 != 5, ST_RANGE)] ++ armChecks s d.a0 (armArgsOf d s))

/-- CAP.TRIG triggers a running acquisition 32 core cycles later (R178). -/
abbrev whenCapTrig (d : Desc) (s : State) : Prop :=
  Admitted 0x0705 d s ∧ Passes [args d 1, unit 32 d.a0, s.pOff d.a0] ∧ Passes [(!s.acqBusy d.a0, ST_STATE)]

/-- CAP.DISARM ends a running acquisition 32 core cycles later, unless it already ends sooner (R184). -/
abbrev whenCapDisarm (d : Desc) (s : State) : Prop :=
  Admitted 0x0706 d s ∧ Passes [args d 1, unit 32 d.a0, s.pOff d.a0]

/-- CAP.CLEAR clears the fail counters and first-fail records of the channels of a mask (R158). -/
abbrev whenCapClear (d : Desc) (s : State) : Prop :=
  Admitted 0x0707 d s ∧ Passes [args d 1, reachD d d.a0 128] ∧ Passes [s.rfault d d.a0 128,
      dis ((chansIn (s.chanMask d d.a0)).any (fun c => !s.gEn (groupOf c)))]

/-- CAP.FIRSTFAIL stores the first-fail records of the channels of a mask, 32 bytes each (R159). -/
abbrev whenCapFirstfail (d : Desc) (s : State) : Prop :=
  Admitted 0x0708 d s ∧ Passes [args d 2, reachD d d.a0 128] ∧ Passes [s.rfault d d.a0 128,
      reachD d d.a1 (32 * (chansIn (s.chanMask d d.a0)).length),
      dis ((chansIn (s.chanMask d d.a0)).any (fun c => !s.gEn (groupOf c))), s.wdown d.a1 (32 * (chansIn (s.chanMask d d.a0)).length)]

/-! ### Enabling, ringing, draining and consuming mailboxes and rings takes effect -/

/-- A write of EN 1 to a disabled mailbox whose rings are well placed stores its fields and restarts its counts (R325, R326). -/
abbrev whenMbEnable (mb : Fin 64) (cfg v : Nat) (s : State) : Prop :=
  v = cfg % 2 ^ 31 + 2 ^ 31 ∧ s.rb .MB_CFG_EN mb = false ∧ bits v 27 25 ≤ 6 ∧ (mbFields mb v s).partnerHalf mb = false ∧
      placed (mbRings (bits v 27 25) (bits v 15 0) ((mbFields mb v s).r .MB_CPLCFG_CPL_PAGE mb)) ((mbFields mb v s).mbTaken mb ++
      (mbFields mb v s).evrTaken ++ (mbFields mb v s).twinTaken) = true

/-- A write of EN 0 to an enabled mailbox begins its draining (R325, R326). -/
abbrev whenMbDisable (mb : Fin 64) (s : State) : Prop :=
  s.rb .MB_CFG_EN mb = true ∧ s.mbox.draining.contains mb.val = false

/-- A doorbell that submits no more entries than the ring has free advances MB_PROD (R326). -/
abbrev whenMbDb (path : Path) (mb : Fin 64) (v : Nat) (s : State) : Prop :=
  s.rb .MB_CFG_EN mb = true ∧ s.mbox.draining.contains mb.val = false ∧ v < 2 ^ 32 ∧ v ≠ s.r .MB_PROD_COUNT mb ∧
      dist32 v (s.r .MB_PROD_COUNT mb) ≤ s.mbSize mb - dist32 (s.r .MB_PROD_COUNT mb) (s.r .MB_CONS_COUNT mb)

/-- A consumer count between the old one and MB_CPL_PROD is taken (R326). -/
abbrev whenMbCplConsWrite (mb : Fin 64) (v : Nat) (s : State) : Prop :=
  v < 2 ^ 32 ∧ dist32 v (s.r .MB_CPL_CONS_COUNT mb) ≤ dist32 (s.r .MB_CPL_PROD_COUNT mb) (s.r .MB_CPL_CONS_COUNT mb)

/-- Enabling a well-placed event ring restarts its counts (R333, R326). -/
abbrev whenEvrEnable (cfg : Nat) (s : State) : Prop :=
  s.rb .EVR_CFG_EN = false ∧ cfg < 2 ^ 31 ∧ bits (cfg + 2 ^ 31) 29 27 ≤ 5 ∧
      placed [evrRing (cfg + 2 ^ 31)] (s.mbTaken 64 ++ s.twinTaken) = true

/-- A consumer count between the old one and EVR_PROD is taken (R333, R326). -/
abbrev whenEvrConsWrite (v : Nat) (s : State) : Prop :=
  v < 2 ^ 32 ∧ dist32 v (s.r .EVR_CONS_COUNT) ≤ dist32 (s.r .EVR_PROD_COUNT) (s.r .EVR_CONS_COUNT)

/-- A tail between the old one and the head of the capture stream is taken (R189). -/
abbrev whenCuStailWrite (g : Fin 32) (v : Nat) (s : State) : Prop :=
  s.r .CU_STAIL_TAIL g ≤ v ∧ v ≤ s.r .CU_SHEAD_HEAD g

/-- A consumer count between the old one and RES_PROD is taken and clears RING_FULL when it frees space (R409, R400). -/
abbrev whenResConsWrite (v : Nat) (s : State) : Prop :=
  s.r .RES_CONS_COUNT ≤ v ∧ v ≤ s.r .RES_PROD_COUNT ∧ s.resFree < (s.w .RES_CONS_COUNT 0 v).resFree

/-- A consumer count between the old one and TW_MRES_PROD is taken (R459, R400). -/
abbrev whenTwMresConsWrite (v : Nat) (s : State) : Prop :=
  s.r .TW_MRES_CONS_COUNT ≤ v ∧ v ≤ s.r .TW_MRES_PROD_COUNT

/-- A write of DU_QUOTA or DU_CLASS that keeps every rule of the quotas is stored (R359). -/
abbrev whenDuQuotaWrite (c : Fin 8) (quota : Bool) (v : Nat) (s : State) : Prop :=
  (if quota then s.quotaOk c (bits v 15 0) (bits v 31 16) (s.r .DU_CLASS_PLIM 0 c)
      else s.quotaOk c (s.r .DU_QUOTA_GUAR 0 c) (s.r .DU_QUOTA_MAX 0 c) (bits v 15 0)) = true

/-- A read of a register with RC fields returns its value and leaves what R366 says (R366). -/
abbrev whenRcRead (path : Path) (off : Nat) (x : Csr) (s : State) : Prop :=
  s.csrAt path off = some x ∧ off % 4 = 0 ∧ x.reg.hasRc = true

/-- A read of the low word of a latched pair returns it and latches the high word (R39). -/
abbrev whenLatchedPairRead (path : Path) (off : Nat) (x : Csr) (s : State) : Prop :=
  s.csrAt path off = some x ∧ off % 4 = 0 ∧ (s.wide0 x.reg x.unit).isSome = true

/-- A word written to a register of 32 bits that its path reaches is that register's write (R367, R350, R351). -/
abbrev whenRegisterWrite (path : Path) (off v : Nat) (x : Csr) (s : State) : Prop :=
  path ≠ .flash ∧ off % 4 = 0 ∧ off + 4 ≤ 0x10000 ∧ s.reaches path off = true ∧ s.csrAt path off = some x ∧ x.reg.place.size ≠ 8

/-! ### Taking a descriptor and the SYS and COAT commands take effect -/

/-- A descriptor that may be taken, with room for its completions and its work item, is taken (R327, R358, R360). -/
abbrev whenDescriptorTake (mb : Fin 64) (s : State) : Prop :=
  s.takeable mb = true ∧ s.cplFree mb = true ∧ s.duAdmit 4 mb = true

/-- A command code that the manual does not define completes with ST_UNSUPPORTED (R2, R420, R9). -/
abbrev whenUnsupportedCommand (d : Desc) (cmd : Nat) (s : State) : Prop :=
  known cmd = false ∧ cmd < 65536 ∧ s.startable cmd d = true ∧ s.ready = true ∧ s.taken' d.mb = false

/-- SYS.INFO stores the identity record, before READY too (R339, R454). -/
abbrev whenSysInfo (d : Desc) (s : State) : Prop :=
  s.startable 0x0101 d = true ∧ d.rsv = 0 ∧ Passes [args d 1, reachD d d.a0 64, s.wdown d.a0 64]

/-- SYS.NOP returns its argument, before READY too (R339). -/
abbrev whenSysNop (d : Desc) (s : State) : Prop :=
  s.startable 0x0102 d = true ∧ d.rsv = 0 ∧ Passes [args d 1]

/-- COAT.LOAD of a readable base coat applies it when every entry passes, or answers the first failing entry (R344). -/
abbrev whenCoatLoad (d : Desc) (s : State) : Prop :=
  Admitted 0x0201 d s ∧ Passes [args d 2, choice 2 d.a0, (d.a0 == 0 && !winOk d.a1 64, ST_RANGE)] ∧
      Passes (coatLoadChecks (started d s) d)

/-- COAT.APPLY of a readable skim coat applies it when every entry passes; with MODE 1 it waits where pitches that are not idle alone stop it (R345, R346). -/
abbrev whenCoatApply (d : Desc) (s : State) : Prop :=
  Admitted 0x0202 d s ∧ Passes [args d 3, choice 2 d.a1, reachD d d.a0 64] ∧
      Passes ((started d s).rfault d d.a0 64 :: coatApplyChecks (started d s) d ((started d s).coatHdr (applyAt d)))

/-- A deferred skim coat whose time is over completes with ST_TIMEOUT (R346). -/
abbrev whenCoatWaitTimeout (k : Nat) (w : CoatWait) (s : State) : Prop :=
  s.mbox.waits[k]? = some w ∧ w.deadline ≤ s.now

/-- COAT.LIST stores the list of active coats (R347). -/
abbrev whenCoatList (d : Desc) (s : State) : Prop :=
  Admitted 0x0203 d s ∧ Passes [args d 1, reachD d d.a0 (48 + 40 * s.mbox.skims.length), s.wdown d.a0 48]

/-! ### Placing, judging, triggering and recording take effect -/

/-- While its pitch runs, a channel places the edges of a signal (R57). -/
abbrev whenEdgePlacement (c : Fin 1024) (sig : Sig) (p : Nat) (s : State) : Prop :=
  s.pitchOf (groupOf c) = some p ∧ s.live p = true

/-- While its pitch runs, a channel takes the samples of its strobes (R53, R54). -/
abbrev whenStrobeSample (c : Fin 1024) (cmh cml : Wave) (p : Nat) (s : State) : Prop :=
  s.pitchOf (groupOf c) = some p ∧ s.live p = true

/-- While its pitch runs, a channel's oldest judgement resolves when it is due (R118). -/
abbrev whenJudgementResolve (c : Fin 1024) (p : Nat) (s : State) : Prop :=
  s.pitchOf (groupOf c) = some p ∧ s.live p = true

/-- A capture that is due to be disarmed ends with the vector under evaluation (R184). -/
abbrev whenDisarmEnd (p : Fin 32) (c : Nat) (s : State) : Prop :=
  (s.acq p).disarmAt = some c ∧ c ≤ s.now ∧ s.evalReady p = true

/-- A trigger unit whose time has run out times out (R169). -/
abbrev whenTriggerTimeout (p : Fin 32) (s : State) : Prop :=
  s.live p = true ∧ s.rb .TR_CTL_EN p = true

/-- The acquisition of a vector under evaluation opens (R177). -/
abbrev whenAcquisitionOpen (p : Fin 32) (s : State) : Prop :=
  s.evalReady p = true

/-- A capture that re-arms is armed for the vector under evaluation (R182). -/
abbrev whenRearm (p : Fin 32) (s : State) : Prop :=
  s.evalReady p = true

/-- A group of a pitch releases its record (R185, R179). -/
abbrev whenRecordRelease (g : Fin 32) (p : Nat) (s : State) : Prop :=
  s.pitchOf g = some p

/-- A level of a trigger input that lasts 2 ns is a change; an edge of its polarity, if it is not too soon, becomes visible 6 core cycles later (R122). -/
abbrev whenXtrigEdge (n : Fin 8) (rising : Bool) (tPs durPs : Nat) (s t : State) : Prop :=
  (tget {} s.xtrig n).level ≠ some rising ∧ 2000 ≤ durPs ∧
      t = { s with xtrig := tset {} s.xtrig n { tget {} s.xtrig n with level := some rising } }

/-- CH.PARK parks the masked channels of enabled groups (R68). -/
abbrev whenChPark (d : Desc) (s : State) : Prop :=
  Admitted 0x0302 d s ∧ Passes [args d 1, reachD d d.a0 128] ∧
      Passes [(started d s).rfault d d.a0 128,
          dis ((chansIn ((started d s).chanMask d d.a0)).any (fun c => !(started d s).gEn (groupOf c)))]

/-- PARK_N low for 20 ns parks every channel (R65). -/
abbrev whenParkNAssert (lowNs : Nat) (s : State) : Prop :=
  20 ≤ lowNs

/-- The groups whose data is missing soonest stop their running pitch at that vector, unless it stops by then (R102). -/
abbrev whenUnderrun (p g : Fin 32) (h : Nat) (a : Absent) (r : List (Nat × Absent)) (s : State) : Prop :=
  s.pstate p = RUNNING ∧ (s.members p).contains g.val = true ∧ s.lacking p g = (h, a) :: r ∧
      (s.pt p).stops.any (fun q => q.before a.vec) = false

/-! ### Frames, words, lanes, training, transactions and the LINK commands of a link take effect -/

/-- A partner's lane map that answers none of ours is adopted (R275, R276). -/
abbrev whenRestripe (port : Fin 12) (map gen : Nat) (s : State) : Prop :=
  s.pst port = PUP ∧ (s.lp port).pend = none ∧ map % 16 ≠ 0 ∧ ¬(s.r .LK_STATE_LMAP port = map % 16 ∧ s.r .LK_STATE_GEN port = gen % 16)

/-- The acknowledgement of the pending map ends it (R275). -/
abbrev whenRestripeAck (port : Fin 12) (map gen : Nat) (s : State) : Prop :=
  (s.lp port).pend = some (map % 16, gen % 16)

/-- A retrained lane takes its coefficients and begins to soak (R278). -/
abbrev whenLaneTrainDone (lane : Fin 48) (pre post : Nat) (s : State) : Prop :=
  s.shedding = false ∧ (s.ln lane).mayTrain s.now = true ∧ (s.lst lane = LLOST ∨ s.lst lane = LDROPPED) ∧
      (s.pst (lane / 4) = PUP ∨ s.pst (lane / 4) = PIDLE)

/-- A soaking lane keeps the partner's verdict (R278). -/
abbrev whenSoak (lane : Fin 48) (pass : Bool) (s : State) : Prop :=
  s.lst lane = LSOAK

/-- After 100 ms a soak is over (R278). -/
abbrev whenSoakEnd (lane : Fin 48) (uncorrectable serHigh : Bool) (s : State) : Prop :=
  s.shedding = false ∧ s.lst lane = LSOAK ∧ s.pst (lane / 4) = PUP ∧ (s.ln lane).soakAt + 100000000 ≤ s.now

/-- An ACTIVE lane that is too slow is dropped (R277). -/
abbrev whenSlowLaneCheck (port : Fin 12) (counts : List (Nat × Nat)) (i : Nat) (s : State) : Prop :=
  s.pst port = PUP ∧ s.slowLane port counts = some i ∧ s.lst (4 * port + i) = LACTIVE

/-- A NAK of a number within the replay span acknowledges the frames before it and replays the rest (R271, R295). -/
abbrev whenNak (port : Fin 12) (fseq : Nat) (s : State) : Prop :=
  s.pst port = PUP ∧ (s.lp port).spans (fseq % 4096) = true

/-- Frames that are not acknowledged for 4 µs are replayed (R271). -/
abbrev whenAckTimeout (port : Fin 12) (s : State) : Prop :=
  s.pst port = PUP ∧ (s.lp port).replay.isEmpty = false ∧ (s.lp port).progressAt + 4000 ≤ s.now

/-- Frames received for 1 µs are acknowledged; where only a credit waits, its word goes out (R271, R285). -/
abbrev whenAckSendTimer (port : Fin 12) (s : State) : Prop :=
  s.pst port = PUP ∧ (s.lp port).owes s.now = true

/-- A credit of each of the three kinds is raised and lets waiting packets go (R288). -/
abbrev whenCredit (port : Fin 12) (kind count : Nat) (s : State) : Prop :=
  kind < 3

/-- A packet that waits 100 ms for credit is reported (R288). -/
abbrev whenCreditStall (port : Fin 12) (k : Pkt) (r : List Pkt) (s : State) : Prop :=
  (s.lp port).txq = k :: r ∧ (k.h.ttype = 2 ∨ k.h.ttype = 5 ∨ k.h.ttype = 6) ∧ (s.lp port).canSend k = false ∧
      (s.lp port).stalled = false ∧
      (s.lp port).txSince + 100000000 ≤ s.now

/-- A codeword arrives on an ACTIVE lane of a port that is UP (R267). -/
abbrev whenCodewordReceive (lane : Fin 48) (tag : Nat) (line : List Byte) (uncorrectable commaMissed marker : Bool)
    (s : State) : Prop :=
  s.lst lane = LACTIVE ∧ s.pst (lane / 4) = PUP

/-- A signal at a port in DETECT begins the handshake (R295). -/
abbrev whenSignalDetect (port : Fin 12) (s : State) : Prop :=
  ((s.setF .LK_STATE_SIGDET port).lp port).phase = PDETECT

/-- A port that trains and loses its whole signal fails the attempt (R295, R274, R281, R284, R285). -/
abbrev whenSignalLoss (port : Fin 12) (lanes : Nat) (s t : State) : Prop :=
  lanes &&& s.r .LK_CFG_LANES port = s.r .LK_CFG_LANES port ∧ t = s.w .LK_STATE_SIGDET port 0 ∧
      ((t.lp port).phase = PHANDSHAKE ∨ (t.lp port).phase = PEQUALIZE ∨ (t.lp port).phase = PALIGN)

/-- A capability block of a known kind is taken in HANDSHAKE (R282, R283, R295). -/
abbrev whenCapabilityBlock (port : Fin 12) (cap : Capability) (s : State) : Prop :=
  (s.lp port).phase = PHANDSHAKE ∧ (cap.kind = 1 ∨ cap.kind = 2 ∨ cap.kind = 0x10 ∨ cap.kind = 0x11) ∧ cap.role < 4 ∧ cap.rsv = 0

/-- A port that has equalized gives its lanes their coefficients and aligns (R280, R266). -/
abbrev whenEqualizeDone (port : Fin 12) (fir : List (Nat × Nat)) (s : State) : Prop :=
  (s.lp port).phase = PEQUALIZE

/-- A port that has aligned is UP (R280, R272). -/
abbrev whenAlignDone (port : Fin 12) (s : State) : Prop :=
  (s.lp port).phase = PALIGN

/-- An attempt that stays in DETECT for 20 ms fails (R280). -/
abbrev whenTrainingTimeout (port : Fin 12) (s : State) : Prop :=
  (s.lp port).phase = PDETECT ∧ (s.lp port).attemptAt + 20000000 ≤ s.now

/-- The back-off of a port ends and the next attempt begins (R280). -/
abbrev whenBackoffEnd (port : Fin 12) (s : State) : Prop :=
  (s.lp port).phase = PBACKOFF ∧ (s.lp port).stateAt + 1000000 * (s.lp port).backoffMs ≤ s.now

/-- A native port that is ready to idle asks its partner once (R284, R270). -/
abbrev whenIdleDelayTimeout (port : Fin 12) (s : State) : Prop :=
  s.idleReady port = true ∧ s.rb .LK_STATE_COMPAT port = false ∧ (s.lp port).idleSent = false

/-- A native port that asked to idle, too, idles at the partner's request (R284, R270). -/
abbrev whenIdleReq (port : Fin 12) (s : State) : Prop :=
  s.pst port = PUP ∧ s.rb .LK_STATE_COMPAT port = false ∧ (s.lp port).idleSent = true

/-- The partner's consent idles the port that asked (R284, R270). -/
abbrev whenIdleAck (port : Fin 12) (s : State) : Prop :=
  s.pst port = PUP ∧ (s.lp port).idleSent = true

/-- The partner's refusal ends the request (R284, R270). -/
abbrev whenIdleNak (port : Fin 12) (s : State) : Prop :=
  s.pst port = PUP ∧ (s.lp port).idleSent = true

/-- An exit burst wakes an idle port, and each of its lanes counts from the comma (R284, R268). -/
abbrev whenExitBurst (port : Fin 12) (s : State) : Prop :=
  s.pst port = PIDLE

/-- A compatible port's transmitter wakes (R285). -/
abbrev whenWakeTx (port : Fin 12) (s : State) : Prop :=
  s.pst port = PUP ∧ s.rb .LK_STATE_COMPAT port = true

/-- LINK.CONFIG stores a port's settings (R296). -/
abbrev whenLinkConfig (d : Desc) (s : State) : Prop :=
  Admitted 0x0B01 d s ∧ Passes (linkConfigForm d s) ∧ Passes (linkConfigAct d (started d s)).checks

/-- LINK.ENABLE enables the masked ports (R296). -/
abbrev whenLinkEnable (d : Desc) (s : State) : Prop :=
  Admitted 0x0B02 d s ∧ Passes [args d 1, mask 12 d.a0]

/-- LINK.DISABLE turns the masked ports off (R296). -/
abbrev whenLinkDisable (d : Desc) (s : State) : Prop :=
  Admitted 0x0B03 d s ∧ Passes [args d 1, mask 12 d.a0, dis ((maskBits 12 d.a0).any (fun n => !s.pEn n))] ∧
      Passes [((maskBits 12 d.a0).any (fun n => (started d s).r .LK_CFG_ROLE n == 3 && (started d s).twinOn), ST_STATE)]

/-- LINK.LANE excludes a lane or includes it again (R296). -/
abbrev whenLinkLane (d : Desc) (s : State) : Prop :=
  Admitted 0x0B04 d s ∧ Passes [args d 3, unit 12 d.a0, choice 2 d.a2, s.lOff d.a0] ∧ Passes (laneChecks d (started d s))

/-- LINK.APERTURE sets a port's aperture (R296). -/
abbrev whenLinkAperture (d : Desc) (s : State) : Prop :=
  Admitted 0x0B05 d s ∧ Passes (linkApertureForm d s) ∧ Passes (linkApertureAct d (started d s)).checks

/-- LINK.STATUS stores the status block of a port (R296). -/
abbrev whenLinkStatus (d : Desc) (s : State) : Prop :=
  Admitted 0x0B06 d s ∧ Passes [args d 2, unit 12 d.a0, reachD d d.a1 72, s.lOff d.a0, s.wdown d.a1 72]

/-! ### Every microword runs its operation and then ends its word -/

/-- NOP changes nothing else (R141). -/
abbrev whenNop (g : Fin 32) (w : Micro) (s : State) : Prop :=
  s.supplies g 0x00 w = true ∧ w.ecc = .clean

/-- MOV copies Rs to Rd (R141). -/
abbrev whenMov (g : Fin 32) (w : Micro) (s : State) : Prop :=
  s.supplies g 0x01 w = true ∧ w.ecc = .clean

/-- LDI loads IMM8 into Rd (R141). -/
abbrev whenLdi (g : Fin 32) (w : Micro) (s : State) : Prop :=
  s.supplies g 0x02 w = true ∧ w.ecc = .clean

/-- ADD sets Rd to Rd + Rs, and Z, N and C of it (R141). -/
abbrev whenAdd (g : Fin 32) (w : Micro) (s : State) : Prop :=
  s.supplies g 0x03 w = true ∧ w.ecc = .clean

/-- ADDI sets Rd to Rd + IMM8 with its sign, and Z, N and C of it (R141). -/
abbrev whenAddi (g : Fin 32) (w : Micro) (s : State) : Prop :=
  s.supplies g 0x04 w = true ∧ w.ecc = .clean

/-- SUB sets Rd to Rd − Rs, and Z, N and the borrow C (R141). -/
abbrev whenSub (g : Fin 32) (w : Micro) (s : State) : Prop :=
  s.supplies g 0x05 w = true ∧ w.ecc = .clean

/-- AND sets Rd, Z and N, and leaves C (R141). -/
abbrev whenAnd (g : Fin 32) (w : Micro) (s : State) : Prop :=
  s.supplies g 0x06 w = true ∧ w.ecc = .clean

/-- OR sets Rd, Z and N, and leaves C (R141). -/
abbrev whenOr (g : Fin 32) (w : Micro) (s : State) : Prop :=
  s.supplies g 0x07 w = true ∧ w.ecc = .clean

/-- XOR sets Rd, Z and N, and leaves C (R141). -/
abbrev whenXor (g : Fin 32) (w : Micro) (s : State) : Prop :=
  s.supplies g 0x08 w = true ∧ w.ecc = .clean

/-- SHL shifts Rd left, and leaves C (R141). -/
abbrev whenShl (g : Fin 32) (w : Micro) (s : State) : Prop :=
  s.supplies g 0x09 w = true ∧ w.ecc = .clean

/-- SHR shifts Rd right, and leaves C (R141). -/
abbrev whenShr (g : Fin 32) (w : Micro) (s : State) : Prop :=
  s.supplies g 0x0A w = true ∧ w.ecc = .clean

/-- CMP sets the flags of Rd − Rs and writes no register (R141). -/
abbrev whenCmp (g : Fin 32) (w : Micro) (s : State) : Prop :=
  s.supplies g 0x0B w = true ∧ w.ecc = .clean

/-- CMPI sets the flags of Rd − IMM8 and writes no register (R141). -/
abbrev whenCmpi (g : Fin 32) (w : Micro) (s : State) : Prop :=
  s.supplies g 0x0C w = true ∧ w.ecc = .clean

/-- LDENT loads a table entry (R141). -/
abbrev whenLdent (g : Fin 32) (w : Micro) (s : State) : Prop :=
  s.supplies g 0x0D w = true ∧ w.ecc = .clean

/-- FLD extracts a field of the entry (R141). -/
abbrev whenFld (g : Fin 32) (w : Micro) (s : State) : Prop :=
  s.supplies g 0x0E w = true ∧ w.ecc = .clean

/-- ISSUE begins the pass of a pitch (R141). -/
abbrev whenIssue (g : Fin 32) (w : Micro) (s : State) : Prop :=
  s.supplies g 0x0F w = true ∧ w.ecc = .clean

/-- PUSH opens a loop or call frame (R141). -/
abbrev whenPush (g : Fin 32) (w : Micro) (s : State) : Prop :=
  s.supplies g 0x10 w = true ∧ w.ecc = .clean

/-- POP closes a loop or call frame (R141). -/
abbrev whenPop (g : Fin 32) (w : Micro) (s : State) : Prop :=
  s.supplies g 0x11 w = true ∧ w.ecc = .clean

/-- TOPW writes the count of the innermost loop (R141). -/
abbrev whenTopw (g : Fin 32) (w : Micro) (s : State) : Prop :=
  s.supplies g 0x12 w = true ∧ w.ecc = .clean

/-- LDINS loads a flow instruction (R141). -/
abbrev whenLdins (g : Fin 32) (w : Micro) (s : State) : Prop :=
  s.supplies g 0x13 w = true ∧ w.ecc = .clean

/-- SETF sets or clears a flag (R141). -/
abbrev whenSetf (g : Fin 32) (w : Micro) (s : State) : Prop :=
  s.supplies g 0x15 w = true ∧ w.ecc = .clean

/-- CLRL clears a condition latch (R141). -/
abbrev whenClrl (g : Fin 32) (w : Micro) (s : State) : Prop :=
  s.supplies g 0x16 w = true ∧ w.ecc = .clean

/-- ARMC arms a condition (R141). -/
abbrev whenArmc (g : Fin 32) (w : Micro) (s : State) : Prop :=
  s.supplies g 0x17 w = true ∧ w.ecc = .clean

/-- PNDG handles the deferred jump (R141). -/
abbrev whenPndg (g : Fin 32) (w : Micro) (s : State) : Prop :=
  s.supplies g 0x18 w = true ∧ w.ecc = .clean

/-- SETSTOP stops the pitch (R141). -/
abbrev whenSetstop (g : Fin 32) (w : Micro) (s : State) : Prop :=
  s.supplies g 0x19 w = true ∧ w.ecc = .clean

/-- POST posts a work item (R141). -/
abbrev whenPost (g : Fin 32) (w : Micro) (s : State) : Prop :=
  s.supplies g 0x1A w = true ∧ w.ecc = .clean

/-- CSRR reads a register of the group (R141). -/
abbrev whenCsrr (g : Fin 32) (w : Micro) (s : State) : Prop :=
  s.supplies g 0x1D w = true ∧ w.ecc = .clean

/-- CSRW writes a register of the group (R141). -/
abbrev whenCsrw (g : Fin 32) (w : Micro) (s : State) : Prop :=
  s.supplies g 0x1E w = true ∧ w.ecc = .clean

/-- TEST gives the result of its test (R141). -/
abbrev whenTest (g : Fin 32) (w : Micro) (result : Nat) (s : State) : Prop :=
  s.supplies g 0x1B w = true ∧ w.ecc = .clean

/-- DISP goes to NEXT plus the masked Rs (R141). -/
abbrev whenDisp (g : Fin 32) (w : Micro) (s : State) : Prop :=
  s.supplies g 0x14 w = true ∧ w.ecc = .clean

/-- RETI unmasks interrupts and goes to the address that the interrupt saved (R141). -/
abbrev whenReti (g : Fin 32) (w : Micro) (s : State) : Prop :=
  s.supplies g 0x1C w = true ∧ w.ecc = .clean

/-! ### Reserved opcodes, commands, interrupts and primer runs of a sequencer take effect -/

/-- A reserved opcode faults with cause 3 (R138). -/
abbrev whenReservedOpcode (g : Fin 32) (w : Micro) (s : State) : Prop :=
  s.supplies g 0x1F w = true ∧ w.ecc = .clean

/-- The ARM command raises interrupt 2 unless one is pending (R146, R144). -/
abbrev whenSqCmdArm (g : Fin 32) (seg : Nat) (s : State) : Prop :=
  (s.r .SQ_INTP_PEND g).testBit 2 = false

/-- The RESUME command raises interrupt 2 unless one is pending (R146, R144). -/
abbrev whenSqCmdResume (g : Fin 32) (s : State) : Prop :=
  (s.r .SQ_INTP_PEND g).testBit 2 = false

/-- The SNAP command raises interrupt 2 unless one is pending (R146, R144). -/
abbrev whenSqCmdSnap (g : Fin 32) (s : State) : Prop :=
  (s.r .SQ_INTP_PEND g).testBit 2 = false

/-- A sequencer after an INT word takes its highest pending interrupt (R145). -/
abbrev whenInterruptTake (g : Fin 32) (s : State) : Prop :=
  s.r .SQ_INTP_PEND g ≠ 0 ∧ (s.gp g).sq.masked = false ∧ (s.gp g).sq.lastInt = true ∧ s.fetches g = true ∧
      s.rb .SQ_UCTL_UMODE g = false ∧
      s.windowNear g = false

/-- A primer program that reaches its time limit ends (R152). -/
abbrev whenPrimerTimeout (g : Fin 32) (s : State) : Prop :=
  s.rb .SQ_UCTL_URUN g = true ∧ (s.gp g).sq.primerDeadline ≤ s.now

/-- SEQ.SERVICE puts the sequencers of its groups into service mode (R153). -/
abbrev whenSeqService (d : Desc) (s : State) : Prop :=
  Admitted 0x060C d s ∧ Passes [args d 1, mask 32 d.a0, s.gsOff d.a0]

/-- SEQ.PRIME of a package that passes starts its program on each masked group (R151, R383). -/
abbrev whenSeqPrime (d : Desc) (pkg p : List Byte) (s : State) : Prop :=
  Admitted 0x060B d s ∧ Passes [args d 4, mask 32 d.a0, reachD d d.a1 128, s.gsOff d.a0] ∧
      pkg = (started d s).primePkg d ∧ p = (Config.openImage (started d s).sec.kekFw pkg).getD []

/-! ### CH.CONFIG and the TSET commands take effect -/

/-- CH.CONFIG writes the images of the channels of a mask (R67). -/
abbrev whenChConfig (d : Desc) (s : State) : Prop :=
  Admitted 0x0301 d s ∧ Passes (chConfigForm d s) ∧ Passes (chConfigAct d (started d s)).checks

/-- TSET.WRITE stores a timing set of 800 bytes (R49). -/
abbrev whenTsetWrite (d : Desc) (s : State) : Prop :=
  Admitted 0x0401 d s ∧ Passes (tsetWriteForm d s) ∧ Passes (tsetWriteAct d (started d s)).checks

/-- TSET.READ stores the image of a timing set (R49). -/
abbrev whenTsetRead (d : Desc) (s : State) : Prop :=
  Admitted 0x0402 d s ∧ Passes [args d 3, unit 32 d.a0, unit 256 d.a1, reachD d d.a2 800, s.gOff d.a0, s.wdown d.a2 800]

/-- TSET.INVALIDATE clears VALID of a timing set (R49). -/
abbrev whenTsetInvalidate (d : Desc) (s : State) : Prop :=
  Admitted 0x0403 d s ∧ Passes (tsetInvalidateForm d s) ∧ Passes (tsetInvalidateAct d s).checks

/-! ### The PAT commands take effect -/

/-- PAT.BIND binds a group's arrays and dictionary and completes later (R74). -/
abbrev whenPatBind (d : Desc) (portFail : Bool) (s : State) : Prop :=
  Admitted 0x0501 d s ∧ Passes [unit 32 d.a0, choice 3 d.a5, s.gOff d.a0, dis (d.a5 != 0 && !s.xEn (d.a5 - 1))] ∧
      Passes [(started d s).gBusy d.a0, (bindFault d (started d s), ST_RANGE),
          ((portFail && d.a5 != 0) || (started d s).anyBad d.a5 d.a6 4096 || (started d s).vcmDown, ST_FAULT),
      (hasF ((started d s).load d.a5 d.a6 4096), ST_RANGE)]

/-- The clearing of a new binding ends and PAT.BIND completes (R74, R253). -/
abbrev whenPatBindDone (g : Fin 32) (j : Job) (s : State) : Prop :=
  s.jobs.find? (Job.isBind g.val) = some j ∧ s.bulkStopped ((granules j.desc.a3 j.desc.a4).map (64 * ·)) = false

/-- PAT.QUOTA sets the page quotas of a group whose pitch is idle (R80). -/
abbrev whenPatQuota (d : Desc) (s : State) : Prop :=
  Admitted 0x0503 d s ∧ Passes (patQuotaForm d s) ∧ Passes (patQuotaAct d (started d s)).checks

/-- PAT.RING takes or frees the pages of a stage or stream ring (R96). -/
abbrev whenPatRing (d : Desc) (s : State) : Prop :=
  Admitted 0x0504 d s ∧ Passes (patRingForm d s) ∧ Passes (patRingAct d (started d s)).checks

/-- PAT.STAGE queues a staging job and completes later (R76). -/
abbrev whenPatStage (d : Desc) (portFail : Bool) (s : State) : Prop :=
  Admitted 0x0502 d s ∧ Passes [args d 3, unit 32 d.a0, choice 3 d.a1, bad (d.a1 == 2 && 48 ≤ d.a2), s.gOff d.a0,
      dis (d.a1 < 2 && !s.xEn d.a1)]

/-- A chunk whose every block is good is copied, its command goes on, and a ring gives its space back (R76, R77, R78, R253). -/
abbrev whenPatStageDone (g : Fin 32) (pf : Option Nat) (d : Desc) (x base count a sp n : Nat) (t u w s : State) : Prop :=
  s.jobs.find? (Job.isStage g.val) = some (.stage d x base count a sp) ∧
      s.bulkStopped ((upTo count).map (fun i => s.vecByte g.val (base + i))) = false ∧
      copyBlocks g.val base sp pf (s.chunkTags sp a count) 0 (a + 64 + 64 * ceilDiv count 64) s = (t, ST_OK, n) ∧
      u = (match t.pitchOf g.val with
      | some p => if t.idle p && 0 < n && t.inUsed p base n then clearPrep p t else t
      | none => t) ∧
      w = nextStages g.val (stageEnd (.stage d x base count a sp) ST_OK n (base + n) (if 100 ≤ sp then eatChunk (sp - 100) u else u))

/-- A staging command that waited 1 s for a chunk ends with ST_TIMEOUT (R76). -/
abbrev whenStageChunkTimeout (g : Fin 32) (d : Desc) (x r since : Nat) (s : State) : Prop :=
  s.jobs.find? (Job.isStage g.val) =
      some (.stageRing d x r since) ∧ since + 1000000000 ≤ s.now

/-- PAT.PREPARE of a pitch that can be prepared loads its segment window and begins its prefetch (R90). -/
abbrev whenPatPrepare (d : Desc) (t s : State) : Prop :=
  Admitted 0x0505 d s ∧ Passes [args d 1, unit 32 d.a0, s.pOff d.a0] ∧ (started d s).prepState d.a0 = false ∧
      t = loadWindow d.a0 (clearPrep d.a0 (unpin d.a0 (started d s))) ∧ t.prepFault d.a0 = none

/-- The prefetch of a pitch ends well: pages, leads and PREPARED (R90). -/
abbrev whenPatPrepareDone (p : Fin 32) (j : Job) (s : State) : Prop :=
  s.jobs.find? (Job.isPrepare p.val) = some j ∧ (dropJob j s).prepState p.val = false ∧
      (dropJob j s).prepFault p.val = none ∧ (dropJob j s).findBlock p.val (dropJob j s).blockUE = none

/-- PAT.RELEASE frees the pages of an idle pitch (R92). -/
abbrev whenPatRelease (d : Desc) (s : State) : Prop :=
  Admitted 0x0506 d s ∧ Passes [args d 1, unit 32 d.a0, s.pOff d.a0] ∧ Passes [(!s.idle d.a0, ST_STATE)]

/-- SR_COMMIT advances a ring's head (R97, R99). -/
abbrev whenSrCommit (r : Fin 48) (v : Nat) (s : State) : Prop :=
  s.r .SR_HEAD_HEAD r < v ∧ v - s.r .SR_TAIL_TAIL r ≤ s.ringSize r ∧ v < 2 ^ 64

/-- A good row that a deep store feeds enters the ring while it fits, and the next row follows (R99). -/
abbrev whenDeepStoreRowFeed (r : Fin 48) (rows : Nat) (z : RingSrc) (s : State) : Prop :=
  (s.rg r).src = some z ∧ z.rows ≠ 0 ∧ s.r .SR_CFG_USE r = 1 ∧
      s.rowHdrBad (s.r .SR_CFG_PITCH r) (s.rg r).row (s.loadN (1 + z.port) z.addr 64) = false ∧
      rowDataBad (s.loadN (1 + z.port) z.addr 64) (s.members (s.r .SR_CFG_PITCH r))
      (s.load (1 + z.port) (z.addr + 64) (s.rowLen (s.r .SR_CFG_PITCH r) (s.loadN (1 + z.port) z.addr 64) - 64)) = false ∧
      s.r .SR_HEAD_HEAD r + s.rowLen (s.r .SR_CFG_PITCH r) (s.loadN (1 + z.port) z.addr 64) - s.r .SR_TAIL_TAIL r ≤ s.ringSize r

/-! ### Sensors, supplies, resets, the start and the THM commands take effect -/

/-- A sample of a device that runs takes its readings, steps the throttle, and shuts down at a limit (R421). -/
abbrev whenThermalSample (die hbm : List (Nat × Option Int)) (s : State) : Prop :=
  s.stopped = false

/-- The trip of a sensor of a powered device shuts it down (R426). -/
abbrev whenDieTrip (sensor : Fin 96) (s : State) : Prop :=
  s.pwr.porstLow = false ∧ s.pwr.dead = false

/-- A due tick steps the throttle (R423, R424). -/
abbrev whenThrottleTick (s : State) : Prop :=
  s.stopped = false ∧ s.pwr.ticking = true ∧ s.pwr.tickAt ≤ s.now

/-- A due reading of the supply is taken (R413). -/
abbrev whenAvsTick (ack : Bool) (mv ma margin : Nat) (s : State) : Prop :=
  s.stopped = false ∧ s.pwr.phase ≠ 0 ∧ s.pwr.avsAt + 1000000 ≤ s.now

/-- A supply that does not answer counts as a refusal (R418). -/
abbrev whenPmbusTimeout (s : State) : Prop :=
  s.stopped = false

/-- PORST_N low for 1 µs resets the device, and what survives a reset of the records is kept (R415). -/
abbrev whenPorstNAssert (lowNs : Nat) (s : State) : Prop :=
  1000 ≤ lowNs

/-- The release of PORST_N counts the power-on and begins the start (R419, R415). -/
abbrev whenPorstNRelease (s : State) : Prop :=
  s.pwr.porstLow = true

/-- WARMRST_N low for 1 µs parks the channels, saves the anchor, and flushes (R416, R417). -/
abbrev whenWarmrstNAssert (lowNs : Nat) (t s : State) : Prop :=
  1000 ≤ lowNs ∧ s.stopped = false ∧ t = saveAnchor (failPark (lifeAdd 0x14 0 12 4 1 s))

/-- The release of WARMRST_N begins the start once the flush has ended (R416). -/
abbrev whenWarmrstNRelease (s : State) : Prop :=
  s.pwr.warmLow = true

/-- PWRFAIL_N low for 1 µs parks, turns the ports off, and stops the device (R417, R426). -/
abbrev whenPwrfailNAssert (lowNs : Nat) (s : State) : Prop :=
  1000 ≤ lowNs ∧ s.stopped = false

/-- A flush ends (R436, R416). -/
abbrev whenFlushDone (badCopies : List Nat) (s : State) : Prop :=
  s.rb .REC_STAT_FLUSHING = true

/-- A read of the flash that times out is tried once more, and a second time-out fails its copy (R474). -/
abbrev whenXspiTimeout (ptype copy : Nat) (s : State) : Prop :=
  s.stopped = false ∧ s.pwr.phase ≠ 0 ∧ s.pwr.phase < 7 ∧ s.pwr.flashFail.contains (ptype + 256 * copy) = false

/-- The end of a phase of the start has its effect, and the next phase begins (R419, R237, R234). -/
abbrev whenStartPhaseEnd (die : List (Nat × Option Int)) (selfTestFail : Nat) (vcmFail : Option (Fin 128 × Nat)) (td0 : CalRaw)
    (s : State) : Prop :=
  s.halted = false ∧ 0 < s.pwr.phase ∧ s.pwr.phase < 8

/-- THM.CONFIG stores limits in range (R429). -/
abbrev whenThmConfig (d : Desc) (s : State) : Prop :=
  Admitted 0x0F01 d s ∧ Passes [args d 2] ∧ Passes [(d.a0 < 70 || 100 < d.a0, ST_RANGE), (d.a1 < 40 || 110 < d.a1, ST_RANGE)]

/-- THM.READ stores the thermal block (R429). -/
abbrev whenThmRead (d : Desc) (s : State) : Prop :=
  Admitted 0x0F02 d s ∧ Passes [args d 1, reachD d d.a0 212, s.wdown d.a0 212]

/-- THM.SHUTREC stores the shutdown record (R429). -/
abbrev whenThmShutrec (d : Desc) (s : State) : Prop :=
  Admitted 0x0F03 d s ∧ Passes [args d 1, reachD d d.a0 64, s.wdown d.a0 64]

/-- SYS.ACK_SHUTDOWN of the pending shutdown ends it (R428). -/
abbrev whenSysAckShutdown (d : Desc) (s : State) : Prop :=
  Admitted 0x0103 d s ∧ Passes [args d 1] ∧ Passes (ackChecks d (started d s))

/-! ### Boundaries, flow instructions, vectors, starts and stops take effect -/

/-- At the end of a pass a running pitch that no stop and no pending jump ends goes on as its segment says (R114). -/
abbrev whenBoundary (p : Fin 32) (b : Nat) (s : State) : Prop :=
  s.pstate p = RUNNING ∧ (s.pt p).atEnd = true ∧ (s.pt p).needFlow = false ∧ s.cycleOf p (s.pt p).next = some b ∧ b ≤ s.now ∧
      (quieted p s).boundaryStop p b = none ∧ (s.pt p).defer = none

/-- LOOP_BEGIN with a free frame opens a loop and plays its segment (R124). -/
abbrev whenLoopBegin (p : Fin 32) (i b : Nat) (s : State) : Prop :=
  s.flowAt p = some i ∧ finKind i = 0 ∧ (s.pt p).chain < 8 ∧ s.cycleOf p (s.pt p).next = some b

/-- LOOP_END closes the innermost loop or plays it again (R124). -/
abbrev whenLoopEnd (p : Fin 32) (i b : Nat) (s : State) : Prop :=
  s.flowAt p = some i ∧ finKind i = 1 ∧ (s.pt p).chain < 8 ∧ s.cycleOf p (s.pt p).next = some b

/-- CALL with a free frame saves the next instruction and plays its segment (R124). -/
abbrev whenCall (p : Fin 32) (i b : Nat) (s : State) : Prop :=
  s.flowAt p = some i ∧ finKind i = 2 ∧ (s.pt p).chain < 8 ∧ s.cycleOf p (s.pt p).next = some b ∧ (s.pt p).calls.length < 16

/-- RET goes on after the innermost CALL, and without one ends the program and plays its segment (R124). -/
abbrev whenRet (p : Fin 32) (i b : Nat) (s : State) : Prop :=
  s.flowAt p = some i ∧ finKind i = 3 ∧ (s.pt p).chain < 8 ∧ s.cycleOf p (s.pt p).next = some b

/-- WAIT plays its segment until its condition has counted (R124). -/
abbrev whenWait (p : Fin 32) (i b : Nat) (s : State) : Prop :=
  s.flowAt p = some i ∧ finKind i = 4 ∧ (s.pt p).chain < 8 ∧ s.cycleOf p (s.pt p).next = some b

/-- SETFLAG sets or clears its flag and goes on at the next instruction (R124). -/
abbrev whenSetflag (p : Fin 32) (i b : Nat) (s t : State) : Prop :=
  s.flowAt p = some i ∧ finKind i = 5 ∧ (s.pt p).chain < 8 ∧ s.cycleOf p (s.pt p).next = some b ∧
      t = s.onPt p (fun x => { x with chain := x.chain + 1 })

/-- A vector of a running pitch whose data and timing set are there starts (R50, R102, R52). -/
abbrev whenVectorStart (p : Fin 32) (reads : List PoolRead) (l : List (Nat × VData)) (z : TSet) (t s : State) : Prop :=
  s.pstate p = RUNNING ∧ (s.pt p).atEnd = false ∧ (s.pt p).needFlow = false ∧ s.reached p (s.pt p).next = true ∧
      (s.pt p).dueStop false ((s.cycleOf p (s.pt p).next).getD s.now) = none ∧ t = poolReads p reads s ∧
      l = (t.nextData p).map (fun (g, d) => (g,
          if reads.any (fun r => poolLoses r g (segStream (t.cur p))) then VData.absent 5 else d)) ∧
      t.lackNow p l = [] ∧ t.validSet p (dataSet l) = some z

/-- SEQ.START that passes its checks arms its pitches, and completes when its core cycle ends (R129, R308, R424, R425). -/
abbrev whenSeqStart (d : Desc) (peg seg : Option Nat) (t s : State) : Prop :=
  Admitted 0x0605 d s ∧ Passes [args d 4, mask 32 d.a0, choice 2 d.a1, bad (d.a1 == 0 && d.a2 != 0), field 40 d.a2, s.psOff d.a0] ∧
      peg = (if d.a1 = 1 then some d.a2 else none) ∧ seg = orNone d.a3 ∧ firstBad ((started d s).startChecks d.a0 peg seg) = none ∧
      t = onCyc (fun c => { c with starts := c.starts ++ [{ d := some d, mask := d.a0, resume := seg.isNone, guyline := peg.isSome || (maskBits 32 d.a0).any (started d s).isGref }] })
      (armPitches d.a0 peg seg (started d s))

/-- A pegged SEQ.START whose start can no longer be met begins at once, to be turned away as late (R312). -/
abbrev whenStartDeadline (d : Desc) (s : State) : Prop :=
  s.mbox.taken.contains (d, 0x0605) = true ∧ d.a1 = 1 ∧ s.tooLate (s.pegBeat d.a2) = true

/-- An armed pitch whose start has come is RUNNING from its start phase (R130). -/
abbrev whenStartInstant (p : Fin 32) (phi : Nat) (a : Armed) (t u s : State) : Prop :=
  s.startNow p = some phi ∧ (s.pt p).armed = some a ∧ t = startClear p phi (s.w .PT_RUN_STATE p RUNNING) ∧
      u = startPlace p ((t.cycleOf p phi).getD t.now) a t

/-- SEQ.STOP abandons an armed pitch, and stops a running one 32 core cycles later (R131). -/
abbrev whenSeqStop (d : Desc) (s : State) : Prop :=
  Admitted 0x0606 d s ∧ Passes [args d 1, unit 32 d.a0, s.pOff d.a0]

/-- At a due vector the planned stop ends a running pitch (R134, R133). -/
abbrev whenStopInstant (p : Fin 32) (c b : Nat) (s : State) : Prop :=
  s.pstate p = RUNNING ∧ (s.pt p).atEnd = false ∧ (s.pt p).needFlow = false ∧ s.cycleOf p (s.pt p).next = some b ∧ b ≤ s.now ∧
      (s.pt p).dueStop false b = some c

/-- A STOPPING pitch with nothing left in flight finishes its stop (R133). -/
abbrev whenStoppingComplete (p : Fin 32) (t s : State) : Prop :=
  t = forAll (upTo 8) settleMark s ∧ t.pstate p = STOPPING ∧ t.drainedPitch p = true

/-- A marker pulse ends after its width (R127). -/
abbrev whenMarkPulseEnd (n : Fin 8) (t s : State) : Prop :=
  t = settleMark n s ∧ t.rb .MK_ROUTE_FORM 0 n = true ∧ (tget {} t.mark n).active = true ∧ (tget {} t.mark n).until' ≤ 8 * s.now + 7 ∧
      t.now = s.now

/-- Four periods without a reference edge are a loss (R30, R24, R191). -/
abbrev whenRefMissingTimeout (p : Fin 32) (s : State) : Prop :=
  s.isGref p = false ∧ s.r .PT_STATUS_TRK p = 2 ∧ s.missing p = true

/-- A pitch held for HOLD_LIMIT parks (R35, R24, R30, R191). -/
abbrev whenHoldLimit (p : Fin 32) (a : Nat) (s : State) : Prop :=
  (s.pt p).trk.lossAt = some a ∧ s.r .PT_STATUS_TRK p = 3 ∧ s.r .PH_HOLD_HOLD_LIMIT p ≠ 0 ∧ a + 1000 * s.r .PH_HOLD_HOLD_LIMIT p ≤ s.now

/-- GREF without an edge for 32 ns is lost, with cause 4 (R37, R24, R30, R191). -/
abbrev whenGrefTimeout (s : State) : Prop :=
  s.grefMissing = true

/-! ### The SEC commands and the events of the key unit take effect -/

/-- SEC.QUOTE queues a quote for the key unit and completes later (R392). -/
abbrev whenSecQuote (d : Desc) (s : State) : Prop :=
  Admitted 0x0D01 d s ∧ Passes [args d 5, reachD d d.a4 2820, s.wdown d.a4 2820] ∧
      Passes [(s.rb .SEC_STATE_NOSIGN || s.activeKey.isNone, ST_STATE)]

/-- SEC.LOG stores a part of the measurement log and returns its count and LOG_FULL (R407). -/
abbrev whenSecLog (d : Desc) (s : State) : Prop :=
  Admitted 0x0D02 d s ∧ Passes [args d 3, reachD d d.a2 (8 + 64 * (s.logPart d.a0 d.a1).length),
      s.wdown d.a2 (8 + 64 * (s.logPart d.a0 d.a1).length)] ∧
      Passes [(d.a0 == 0 || s.sec.log.length < d.a0, ST_RANGE)]

/-- SEC.CERT stores the device certificate and the session key's record (R407). -/
abbrev whenSecCert (d : Desc) (s : State) : Prop :=
  Admitted 0x0D03 d s ∧ Passes [args d 1, reachD d d.a0 6080, s.wdown d.a0 6080]

/-- SEC.KEYSTATE stores the key state records (R407). -/
abbrev whenSecKeystate (d : Desc) (s : State) : Prop :=
  Admitted 0x0D04 d s ∧ Passes [args d 1, reachD d d.a0 384, s.wdown d.a0 384]

/-- SEC.OWNER of a statement that is well formed sets the owner hash and its sequence when the block signs it (R393). -/
abbrev whenSecOwner (d : Desc) (s : State) : Prop :=
  Admitted 0x0D05 d s ∧ Passes [args d 2, choice 2 d.a0, reachD d d.a1 144] ∧ Passes (ownerChecks (started d s) d)

/-- SEC.DEBUG hands out a challenge, or answers an unlock statement by its checks and signature (R406). -/
abbrev whenSecDebug (d : Desc) (s : State) : Prop :=
  Admitted 0x0D06 d s ∧ Passes [args d 3, choice 2 d.a0, bad (d.a0 == 1 && d.a2 != 0),
      if d.a0 = 0 then reachD d d.a2 32 else reachD d d.a1 144,
      s.wdown d.a2 (if d.a0 = 0 then 32 else 0)] ∧
      (d.a0 ≠ 0 → Passes [(started d s).rfault d d.a1 144, reachD d d.a1 (128 + blockLen ((started d s).winN d.path (d.a1 + 128) 16)),
      (started d s).rfault d d.a1 (128 + blockLen ((started d s).winN d.path (d.a1 + 128) 16))])

/-- A challenge that is over is dropped (R406). -/
abbrev whenChallengeExpiry (s : State) : Prop :=
  s.challengeOk = none

/-- SEC.SEAL queues a seal of the own lot and completes later (R407, R454). -/
abbrev whenSecSeal (d : Desc) (s : State) : Prop :=
  Admitted 0x0D07 d s ∧ Passes [args d 0] ∧
      Passes [(s.rb .SEC_STATE_NOSIGN || s.activeKey.isNone, ST_STATE), (s.taken' d.mb && !s.twin.open', ST_STATE), s.ringDown d.mb] ∧
      s.taken' d.mb = false

/-- SEC.LOT opens or closes a lot of the own half and completes later (R395). -/
abbrev whenSecLot (d : Desc) (s : State) : Prop :=
  Admitted 0x0D08 d s ∧ Passes [args d 2, choice 2 d.a0, bad (d.a0 == 1 && d.a1 != 0), field 32 d.a1] ∧
      Passes [(d.a0 == 0 && d.a1 == 0, ST_RANGE), (!s.taken' d.mb && s.resFree < 8192, ST_NOSPACE), (s.lotBusy d.mb, ST_BUSY),
      (!(!s.taken' d.mb) && !s.twin.open', ST_STATE), s.ringDown d.mb] ∧ s.taken' d.mb = false

/-- SEC.RING places an empty result ring and appends what was kept before (R400). -/
abbrev whenSecRing (d : Desc) (s : State) : Prop :=
  Admitted 0x0D09 d s ∧ Passes [args d 2] ∧
      Passes [(s.r .RES_PROD_COUNT != s.r .RES_CONS_COUNT, ST_STATE), (s.resRingBad d.a0 d.a1 true, ST_RANGE), (s.vcmDown, ST_FAULT)]

/-- A reservation record that is written sets RES_END 32 indices on, at most the key's size (R387). -/
abbrev whenReservationWriteDone (r : SigFor) (rest : List SigFor) (k : Key) (s : State) : Prop :=
  s.sec.resWrite = true ∧ s.sec.sigs = r :: rest ∧ s.keyOf r = some k

/-- A quote's signature is spent and stored, and the key unit looks at its next request (R378, R387). -/
abbrev whenSignatureDone (d : Desc) (count head : Nat) (rest : List SigFor) (k : Key) (s : State) : Prop :=
  s.sec.sigs = .quote d count head :: rest ∧ s.keyOf (.quote d count head) = some k ∧ s.sec.resWrite = false ∧
      s.rb .SEC_STATE_NOSIGN = false ∧ k.next < k.resEnd

/-- A certified session key becomes ready beside an active one (R389). -/
abbrev whenSessionKeyGenerated (k : Key) (s : State) : Prop :=
  s.keyIn 1 = some k ∧ k.cert ≠ [] ∧ (lifeAdd 0x16 0 16 4 1 s).activeKey.isSome = true

/-- Records unsealed for 55 s are sealed (R401). -/
abbrev whenSealTimer (t : Nat) (s : State) : Prop :=
  s.sec.unsealed = some t ∧ t + 55000000000 ≤ s.now

/-! ### The SEQ table, program, flag, counter, halt and marker commands take effect -/

/-- SEQ.LOAD queues its copy of an idle pitch's table (R112). -/
abbrev whenSeqLoad (d : Desc) (s : State) : Prop :=
  Admitted 0x0603 d s ∧ Passes [args d 5, unit 32 d.a0, choice 3 d.a1, s.pOff d.a0, dis (d.a1 != 0 && !s.xEn (d.a1 - 1))] ∧
      Passes [(!s.idle d.a0, ST_STATE), (d.a3 == 0 || 1048576 < d.a3 || spaceSize d.a1 < d.a2 + 32 * d.a3 || d.a4 % 4096 != 0 ||
      spaceSize 0 < d.a4 + 32 * d.a3 || s.tblClash d.a0 d.a4 (32 * d.a3), ST_RANGE)]

/-- SEQ.PROG gives an idle pitch its flow program and loads its segment window (R123). -/
abbrev whenSeqProg (d : Desc) (prog : List Nat) (s : State) : Prop :=
  Admitted 0x0604 d s ∧ Passes [args d 3, unit 32 d.a0, reachD d d.a1 (8 * d.a2), s.pOff d.a0] ∧
      prog = (upTo (min d.a2 1024)).map (fun i => (started d s).winN d.path (d.a1 + 8 * i) 8) ∧
      Passes [(!(started d s).idle d.a0, ST_STATE), (d.a2 == 0 || 1024 < d.a2, ST_RANGE), (started d s).rfault d d.a1 (8 * d.a2),
          (prog.any (fun i => !finOk i), ST_RANGE),
      (3072 < (pinned ((upTo ((started d s).r .SQ_TBL_LEN_COUNT d.a0)).map ((started d s).segVcm d.a0)) prog).length, ST_NOSPACE)]

/-- SEQ.FLAG sets and clears flags in every pitch state (R121). -/
abbrev whenSeqFlag (d : Desc) (s : State) : Prop :=
  Admitted 0x0608 d s ∧ Passes [args d 3, unit 32 d.a0, mask 16 d.a1, mask 16 d.a2, s.pOff d.a0]

/-- SEQ.COUNTER loads a counter (R121). -/
abbrev whenSeqCounter (d : Desc) (s : State) : Prop :=
  Admitted 0x0609 d s ∧ Passes [args d 3, unit 32 d.a0, unit 4 d.a1, field 32 d.a2, s.pOff d.a0]

/-- SEQ.HALT plans the stop of a RUNNING pitch at a boundary (R132). -/
abbrev whenSeqHalt (d : Desc) (s : State) : Prop :=
  Admitted 0x0607 d s ∧ Passes [args d 1, unit 32 d.a0, s.pOff d.a0] ∧ Passes [(s.pstate d.a0 != RUNNING, ST_STATE)]

/-- SEQ.MARK writes the images of a marker output's registers (R127). -/
abbrev whenSeqMark (d : Desc) (s : State) : Prop :=
  Admitted 0x060A d s ∧ Passes (seqMarkForm d s) ∧ Passes (seqMarkAct d s).checks

/-- The table of SEQ.LOAD is stored: without a fault its pitch has it, and otherwise none (R112). -/
abbrev whenSeqLoadDone (p : Fin 32) (portFail : Bool) (d : Desc) (x sp a n base : Nat) (s t : State) : Prop :=
  s.jobs.find? (Job.isLoad p) = some (.load d x sp a n base) ∧ t = dropJob (.load d x sp a n base) s ∧
      tableFault (t.srcEntries sp a n) (t.pt p).prog (portFail || t.vcmDown || t.anyBad sp a (32 * n)) = none

/-! ### Pegs, beats, PTP and the TIME commands take effect -/

/-- A pulse that TDCX00 stamps is by its width a peg, a reflection, or counts as bad; its time is its stamp less the path delay (R299, R191, R300). -/
abbrev whenGpegPulse (coarse : Nat) (fine : Fin 1024) (width64 t : Nat) (u s : State) : Prop :=
  t = s.stampTime 1024 coarse fine.val - s.guy.pathIn ∧ (tdcEdge 1024 t coarse s) = (true, u)

/-- A due echo is driven for 16 core cycles (R300). -/
abbrev whenEchoDrive (c : Nat) (s : State) : Prop :=
  s.guy.echoAt = some c ∧ c ≤ s.now

/-- An echo that is not answered within half a peg interval is a missing reflection (R302). -/
abbrev whenReflectionTimeout (e : Nat) (s : State) : Prop :=
  s.guy.echoE = some e ∧ s.guy.waitA.isSome = true ∧ e + s.pegBeats / 2 * BEAT_ETU ≤ s.now * ETU

/-- An aligned device misses a peg whose window has passed (R305, R306). -/
abbrev whenPegWindowMiss (n : Nat) (s : State) : Prop :=
  n = s.guy.pegBeat + s.pegBeats ∧ s.rb .GY_STATUS_ALIGNED = true ∧
      s.beatEdge n + (s.guy.dMean + s.guy.rtMean / 2 + s.guyAsym) + (BEAT_ETU : Int) / 2 ≤ (s.now * ETU : Nat)

/-- TIME.GUYCFG stores the Guyline settings (R322). -/
abbrev whenTimeGuycfg (d : Desc) (s : State) : Prop :=
  Admitted 0x0C01 d s ∧ Passes (timeGuycfgForm d s) ∧ Passes (timeGuycfgAct d (started d s)).checks

/-- TIME.ALIGN waits for the peg that aligns the beats (R304). -/
abbrev whenTimeAlign (d : Desc) (s : State) : Prop :=
  Admitted 0x0C02 d s ∧ Passes [args d 1] ∧ Passes (alignChecks d (started d s))

/-- An alignment that reaches its time limit completes with ST_TIMEOUT (R304). -/
abbrev whenTimeAlignTimeout (z : Align) (s : State) : Prop :=
  s.guy.align = some z ∧ z.deadline ≤ s.now

/-- TIME.ACCEPT takes a held shift (R309). -/
abbrev whenTimeAccept (d : Desc) (s : State) : Prop :=
  Admitted 0x0C03 d s ∧ Passes [args d 1, choice 2 d.a0] ∧ Passes (acceptChecks d (started d s))

/-- TIME.PTPCFG stores the PTP settings (R322). -/
abbrev whenTimePtpcfg (d : Desc) (s : State) : Prop :=
  Admitted 0x0C04 d s ∧ Passes (timePtpcfgForm d s) ∧ Passes (timePtpcfgAct d (started d s)).checks

/-- TIME.SET sets the local clock (R322). -/
abbrev whenTimeSet (d : Desc) (s : State) : Prop :=
  Admitted 0x0C05 d s ∧ Passes [args d 1] ∧ Passes [((upTo 12).any (fun n => (started d s).rb .PP_CFG_EN n), ST_STATE)]

/-- TIME.READ stores the time block (R322). -/
abbrev whenTimeRead (d : Desc) (s : State) : Prop :=
  Admitted 0x0C06 d s ∧ Passes [args d 1, reachD d d.a0 32, s.wdown d.a0 32]

/-- TIME.FWD stores the forwarding mask (R322). -/
abbrev whenTimeFwd (d : Desc) (s : State) : Prop :=
  Admitted 0x0C07 d s ∧ Passes (timeFwdForm d s)

/-- A message of its domain at a port with PTP is taken, and its credits return (R315, R294). -/
abbrev whenPtp (port : Fin 12) (m : PtpMsg) (t s : State) : Prop :=
  t = (if s.r .LK_STATE_STATE port = PUP then releaseCr port 1 (ceilDiv (4 * m.len) 32) 0 s else s) ∧ t.ptpOn port = true ∧
      m.kind ≠ .signaling ∧ m.kind ≠ .management ∧ m.domain = t.r .TM_CFG_DOMAIN ∧ m.src / 65536 ≠ t.devId

/-- Without announcements the device enters HOLDOVER (R319). -/
abbrev whenAnnounceTimeout (s : State) : Prop :=
  s.rb .TM_STATUS_HOLDOVER = false ∧ s.noMaster = true

/-- A message of a port with PTP is due (R315, R321). -/
abbrev whenPtpMessageInterval (port : Fin 12) (kind : PtpKind) (s : State) : Prop :=
  s.ptpOn port = true ∧ s.ptpRole port kind = true ∧ s.ptpDue port kind = true

/-- An entry of the timestamp queue that is 100 ms old leaves it (R321). -/
abbrev whenTsqEntryTimeout (port : Fin 12) (s : State) : Prop :=
  (s.pp port).tsq.any s.tsqOld = true

/-- A message held for 1 ms for want of an entry is dropped (R321). -/
abbrev whenTsqHoldTimeout (port : Fin 12) (q : Nat × PtpKind × Nat) (s : State) : Prop :=
  (s.pp port).held = some q ∧ q.2.2 + 1000000 ≤ s.now

/-! ### Pitch formation, references and timeline maps take effect -/

/-- SEQ.FOLLOW gives a pitch its source and loop settings (R21). -/
abbrev whenSeqFollow (d : Desc) (s : State) : Prop :=
  Admitted 0x0602 d s ∧ Passes (seqFollowForm d s) ∧ Passes (seqFollowAct d (started d s)).checks

/-- A write of a loop register that passes SEQ.FOLLOW's checks acts as SEQ.FOLLOW (R481). -/
abbrev whenPhRegisterWrite (p : Fin 32) (r : PhReg) (v : Nat) (s : State) : Prop :=
  Passes (followChecks s p (s.phImages p (PhReg.reg r) v))

/-- SEQ.FORM gives a pitch its groups, the first at once and the others one ramp apart (R15, R412). -/
abbrev whenSeqForm (d : Desc) (s : State) : Prop :=
  Admitted 0x0601 d s ∧ Passes (seqFormForm d s) ∧ Passes (seqFormAct d (started d s)).checks

/-- The next regrouped group is enabled, and SEQ.FORM completes after the last (R412). -/
abbrev whenGroupRamp (d : Desc) (l : List Nat) (t : Nat) (s : State) : Prop :=
  s.jobs.find? (Job.rampDue s.now) = some (.ramp d l t)

/-- Acquisition that reaches its time limit is given up (R24). -/
abbrev whenAcqTimeout (p : Fin 32) (s : State) : Prop :=
  s.r .PT_STATUS_TRK p = 1 ∧ s.isGref p = false ∧ s.r .PH_SRC_KIND p ≠ 0 ∧
      (s.pt p).trk.acqFrom + 1000000 * s.r .PH_LOOP_ACQ_TIMEOUT p ≤ s.now

/-- GREF in range for 100 µs is valid again (R310). -/
abbrev whenGrefReturn (s : State) : Prop :=
  s.guy.gref = false ∧ s.guy.inRange = true ∧ s.guy.rangeFrom + 100000 ≤ s.now

/-- The multiplier locks: guyline trackers lock and no pitch stays in GREF_HOLD (R37). -/
abbrev whenMultiplierLock (s : State) : Prop :=
  s.guy.gref = true ∧ s.guy.mult = false

/-- The deferred calibration of TDCX00 completes (R234). -/
abbrev whenTdcx00CalDone (x : CalRaw) (s : State) : Prop :=
  s.rb .GY_STATUS_CALPEND = true ∧ s.guy.everLocked = true

/-- A pitch that follows its reference publishes its next map segment (R27, R26). -/
abbrev whenMapSegmentPublish (p : Fin 32) (m : MapSeg) (s : State) : Prop :=
  s.isGref p = false ∧ (s.r .PT_STATUS_TRK p = 2 ∨ s.r .PT_STATUS_TRK p = 3) ∧ (s.pt p).trk.zeroNext = false ∧
      periodOf (s.r .PH_FREQ_FREQ p) ≠ 0 ∧
      nextSeg (s.pt p).trk ((s.now + 16) * ETU) (periodOf (s.r .PH_FREQ_FREQ p)) (s.r .PT_STATUS_TRK p == 3) = some m

/-! ### Pairing, mirroring, heartbeats and the TWIN commands take effect -/

/-- TWIN.PAIR that passes its checks begins pairing (R444). -/
abbrev whenTwinPair (d : Desc) (s : State) : Prop :=
  Admitted 0x1001 d s ∧ Passes [args d 6, choice 2 d.a1, choice 2 d.a2] ∧
      Passes (pairChecks d (started d s))

/-- Pairing that reaches its time limit fails (R444). -/
abbrev whenTwinPairTimeout (d : Desc) (t : Nat) (s : State) : Prop :=
  s.pairJob = some (d, t) ∧ s.tw = TW_PAIRING ∧ t ≤ s.now

/-- TWIN.UNPAIR ends the pairing, and does nothing without one; after a takeover the mailboxes of the partner close, unless one of them still works or the chain is open (R456). -/
abbrev whenTwinUnpair (d : Desc) (u s : State) : Prop :=
  Admitted 0x1002 d s ∧ Passes [args d 0] ∧ u = started d s

/-- TWIN.STATUS stores the twin's block (R457). -/
abbrev whenTwinStatus (d : Desc) (s : State) : Prop :=
  Admitted 0x1003 d s ∧ Passes [args d 1, reachD d d.a0 (116 + 40 * s.twin.sites.length), s.wdown d.a0 (116 + 40 * s.twin.sites.length)]

/-- Up to 32 items of the partner are taken while the twins mirror (R446). -/
abbrev whenMirror (items : List MirrorItem) (s : State) : Prop :=
  s.mirrors = true ∧ items.length ≤ 32

/-- The partner's acknowledgement of items in flight is taken (R447). -/
abbrev whenMirrorAck (n : Nat) (s : State) : Prop :=
  (s.mirrors = true ∨ s.tw = TW_SUSPECT) ∧ 0 < min n s.twin.inFlight

/-- The partner's notice is taken in PAIRING: a confirmation, or a failure by its first mismatch (R444). -/
abbrev whenPair (ident : Nat) (half senior : Bool) (pages : List (Nat × Nat)) (complete : Bool) (s : State) : Prop :=
  ident ≠ 0 ∧ s.tw = TW_PAIRING

/-- The partner's copy is complete in RESYNC (R447). -/
abbrev whenSyncDone (s : State) : Prop :=
  s.tw = TW_RESYNC

/-- A due heartbeat goes out (R448). -/
abbrev whenHeartbeatSend (s : State) : Prop :=
  (s.tw = TW_PAIRED ∨ s.tw = TW_SUSPECT ∨ s.tw = TW_SEPARATED ∨ s.tw = TW_RESYNC) ∧ s.twin.aliveOut ≠ 2 ∧
      s.twin.hbSentAt + 50000 ≤ s.now

/-- A heartbeat restarts the count of those missed (R448). -/
abbrev whenHeartbeat (seq pstate : Nat) (s : State) : Prop :=
  s.tw = TW_PAIRED ∨ s.tw = TW_RESYNC

/-- A heartbeat that is 10 µs late is missed (R448). -/
abbrev whenHeartbeatMiss (s : State) : Prop :=
  s.tw = TW_PAIRED ∧ s.twin.hbAt + 50000 * (s.twin.missed + 1) + 10000 ≤ s.now

/-- A partner that says it fails is taken over (R451). -/
abbrev whenFailing (s : State) : Prop :=
  s.tw = TW_PAIRED ∨ s.tw = TW_SUSPECT

/-- A sideband line that stays high is taken over in PAIRED and SUSPECT (R450). -/
abbrev whenTwinAliveTimeout (high : Bool) (t s : State) : Prop :=
  t = lineLost high s

/-- A sideband out of range of a paired device is a sideband fault (R450). -/
abbrev whenTwinAliveRange (s : State) : Prop :=
  s.twinOn = true

/-- A sideband that stays bad for 1 ms while heartbeats arrive is reported once (R451). -/
abbrev whenSidebandTimeout (t : Nat) (s : State) : Prop :=
  s.twin.badSince = some t ∧ s.tw = TW_PAIRED ∧ s.line ≠ 1 ∧ t + 1000000 ≤ s.now ∧ s.twin.missed = 0 ∧ s.twin.sideRaised = false

/-- A fault of the device parks the groups it reached, and a paired device tells its partner once (R452, R63). -/
abbrev whenInternalFault (groups : Nat) (t s : State) : Prop :=
  t = settle (parkChans 6 ((maskBits 32 groups).flatMap chansOf) s) ∧ t.twinOn = true ∧ t.tw ≠ TW_TAKEN_OVER ∧ t.twin.aliveOut ≠ 2

/-! ### Refresh, reads, writes and repair of the vector cache memory and the VCM commands take effect -/

/-- A refresh interval of a port of a VCM that is up adds to its debt (R250). -/
abbrev whenRefreshInterval (vp : Fin 128) (s : State) : Prop :=
  s.vcmUp = true ∧ (s.vp vp).stepAt + s.refT vp ≤ s.now

/-- A port that may refresh does so, all banks in URGENT and one bank otherwise (R251, R250, R252). -/
abbrev whenRefreshIssue (vp : Fin 128) (allBank : Bool) (s : State) : Prop :=
  s.vcmUp = true ∧ allBank = (s.r .VP_STAT_RMODE vp == URGENT) ∧ (if allBank then s.mayRefreshAll vp else s.mayRefresh vp) = true

/-- A read of a granule that no waiting write covers in part is answered from the queue, or by its row where the port gives it the slot (R254, R245, R246, R253). -/
abbrev whenVcmReadDone (a err : Nat) (s : State) : Prop :=
  s.vcmUp = true ∧ a < spaceSize 0 ∧ s.waitsWrite (a / 64) = false ∧ (s.queuedFull (a / 64) = true ∨
      (s.blocked (vcmPort a) = false ∧ (s.pick (vcmPort a)).all (fun r => r.gran == a / 64) = true ∧
          ((s.pick (vcmPort a)).isNone = true →
      (s.vcm.reads.find? (fun r => r.gran == a / 64)).isSome = false ∧ s.bulkStopped [a] = false ∧
          (s.refreshing (vcmPort a)).contains (vcmBank a) = false)))

/-- A waiting write whose row and bank are free reaches them in a slot that no read takes; one of a whole granule makes it whole (R246, R245, R258, R255). -/
abbrev whenVcmWriteDrain (vp : Fin 128) (e : WqEntry) (t s : State) : Prop :=
  s.vcmUp = true ∧ s.blocked vp = false ∧ (s.pick vp).isSome = false ∧
      (s.vp vp).wq.find? (fun e => !s.held (64 * e.gran) && !(s.refreshing vp).contains (vcmBank (64 * e.gran))) = some e ∧
      t = accessRow (64 * e.gran) (s.onVp vp (fun x => { x with wq := x.wq.erase e }))

/-- A row to retire is repaired when a port may stop for it (R258, R249). -/
abbrev whenRowRepair (vp : Fin 128) (q : Retire) (rest : List Retire) (s : State) : Prop :=
  (s.vp vp).retire = q :: rest ∧ s.canRepair = true

/-- VCM.INFO stores the state of the VCM (R262). -/
abbrev whenVcmInfo (d : Desc) (s : State) : Prop :=
  Admitted 0x0A01 d s ∧ Passes [args d 1, reachD d d.a0 536, s.wdown d.a0 536]

/-- VCM.ERRLOG stores the newest entries of the retirement list (R262). -/
abbrev whenVcmErrlog (d : Desc) (s : State) : Prop :=
  Admitted 0x0A02 d s ∧ Passes [args d 2, reachD d d.a0 (8 + 8 * min d.a1 s.vcm.list.length), s.wdown d.a0 8]

/-- VCM.FILL that passes its checks begins its fill (R262). -/
abbrev whenVcmFill (d : Desc) (s : State) : Prop :=
  Admitted 0x0A03 d s ∧ Passes [args d 3] ∧ Passes (fillChecks d (started d s))

/-- A fill of stacks that take bulk traffic stores its pattern and completes (R262, R253). -/
abbrev whenVcmFillDone (k : Nat) (d : Desc) (a n x : Nat) (s : State) : Prop :=
  (s.jobs.filter Job.isFill)[k]? = some (.fill d a n x) ∧ s.bulkStopped ((granules a (min n 262144)).map (64 * ·)) = false

/-- VCM.RETRAIN of an idle device begins the training (R262). -/
abbrev whenVcmRetrain (d : Desc) (s : State) : Prop :=
  Admitted 0x0A04 d s ∧ Passes [args d 0] ∧ Passes (retrainChecks (started d s))

/-- The training ends, and VCM.RETRAIN completes (R262). -/
abbrev whenVcmRetrainDone (fail : Option (Fin 128 × Nat)) (j : Job) (s : State) : Prop :=
  s.jobs.find? Job.isRetrain = some j

/-- VCM.SCRUB turns scrubbing on or off (R262). -/
abbrev whenVcmScrub (d : Desc) (s : State) : Prop :=
  Admitted 0x0A05 d s ∧ Passes (vcmScrubForm d s)

/-! ### Posting, waking, dispatching and finishing work items takes effect -/

/-- A producer of its class posts an item (R358, R355, R357). -/
abbrev whenWorkItemPost (cls producer type key payload : Nat) (held : Bool) (s : State) : Prop :=
  producer < duN cls

/-- A held item whose write is complete becomes ready, or leaves where its key is cancelled in that core cycle (R356, R33, R180, R188). -/
abbrev whenWorkItemReady (id : Nat) (s : State) : Prop :=
  s.unwritten id = false

/-- A free server is handed the item chosen for it, at most four in a core cycle (R362). -/
abbrev whenWorkItemDispatch (server : Fin 17) (x : Item) (t s : State) : Prop :=
  t = (if server.val = 0 then ringFull s else s) ∧ (t.inHand server).isSome = false ∧ (t.disp.handed.1 = t.now → t.disp.handed.2 < 4) ∧
      (server.val ≠ 0 → t.r .FC_STATE_STATE 0 (server - 1) ≠ 3) ∧ t.choose server = some x

/-- The end of a load window writes every server's load, rounded, unless background work is shed (R374). -/
abbrev whenDuLoadWindow (t s : State) : Prop :=
  s.disp.windowAt + 1000000 ≤ s.now ∧ t = (if s.rb .DU_STAT_SHED then s else
      forAll (upTo 17) (fun v t => t.w .DU_LOAD_VALUE 0 (min 0xFFFF
          (((tget 0 s.disp.busy v + s.inService v) * 65536 + 500000) / 1000000)) v) s)

/-- A server finishes its item and frees it (R361, R362). -/
abbrev whenWorkItemDone (server : Fin 17) (results : List Handler) (x : Item) (s : State) : Prop :=
  s.inHand server = some x ∧ x.type ≠ 1 ∧ (server.val ≠ 0 → (s.fc (server - 1)).reload = none)

/-- A site whose handler has taken its budget faults (R372). -/
abbrev whenFlowBudgetTimer (core : Fin 16) (site : Nat) (x : Item) (f : FlowProg) (z : Site) (u t : Nat) (s : State) : Prop :=
  s.inHand (1 + core) = some x ∧ (s.fc core).prog = some f ∧ x.st = .service u t ∧
      (s.pitchSites core x.key).find? (fun z => z.site == site) = some z ∧ z.faulted = none ∧ z.served ≠ some x.id ∧
      (s.fc core).reload = none ∧ t + 1000 * f.budget ≤ s.now

/-- A core that hangs on an item the first time is reported, measured and reloaded; the second time the sites of the item fault and the item is done (R373). -/
abbrev whenFlowHangTimer (core : Fin 16) (x : Item) (f : FlowProg) (u t : Nat) (r s : State) : Prop :=
  s.inHand (1 + core) = some x ∧ (s.fc core).prog = some f ∧ x.st = .service u t ∧
      t + 1000 * f.budget * f.sites.length + 1000000 < s.now ∧ (s.fc core).reload = none ∧
      r = measure MK_FLOW_PROG core f.progId f.digest (event EV_FLOW_FAULT [(4, core), (8, 0xFF), (8,
          5)] (faultEvent 0xA core (fun s => s) (s.w .FC_STATE_HANG 0 1 core)))

/-- SEC.FLOW unloads a core, or loads a program that passes its checks (R370). -/
abbrev whenSecFlow (d : Desc) (s : State) : Prop :=
  Admitted 0x0D20 d s ∧ Passes [args d 2, unit 16 d.a0, reachD d d.a1 (if d.a1 = 0 then 0 else 64)] ∧ Passes (flowBusy s d)

/-- The entry point of a new program returns: the core runs and SEC.FLOW completes (R370, R373). -/
abbrev whenFlowEntryReturn (core : Fin 16) (d : Desc) (t : Nat) (s : State) : Prop :=
  s.entryJob core = some (d, t)

/-- An entry point that does not return within 10 ms empties its core, and SEC.FLOW completes with ST_TIMEOUT (R370). -/
abbrev whenFlowEntryTimeout (core : Fin 16) (d : Desc) (t : Nat) (s : State) : Prop :=
  s.entryJob core = some (d, t) ∧ t + 10000000 ≤ s.now

/-! ### The REC commands and the record unit's timers take effect -/

/-- REC.READ of a record that does not change is delivered at once, and otherwise tries again (R435). -/
abbrev whenRecRead (d : Desc) (s : State) : Prop :=
  Admitted 0x0E01 d s ∧ Passes [args d 5, reachD d d.a4 (16 + d.a3), s.wdown d.a4 (16 + d.a3)] ∧
      Passes [(recBad d, ST_RANGE)]

/-- A read tried again is delivered: fresh, or stale after the eighth try (R435). -/
abbrev whenRecReadRetry (d : Desc) (k t : Nat) (u s : State) : Prop :=
  s.jobs.find? (Job.readDue s.now) = some (.recRead d k t) ∧
      u = { (s.changing d.a0).2 with jobs := s.jobs.filter (· != .recRead d k t) } ∧
      ((s.changing d.a0).1 = true → 8 ≤ k + 1)

/-- With a calendar, a due calibration date and a due key date each raise their event, once a day (R440). -/
abbrev whenCalendarCheck (t : Nat) (s : State) : Prop :=
  s.calendar = some t

/-- REC.CALENDAR writes a date into record 0x0B (R457). -/
abbrev whenRecCalendar (d : Desc) (s : State) : Prop :=
  Admitted 0x0E03 d s ∧ Passes [args d 2, choice 2 d.a0] ∧ Passes [(2 ^ 48 ≤ d.a1, ST_RANGE)]

/-- REC.FLUSH asks for a flush and completes when it ends (R436). -/
abbrev whenRecFlush (d : Desc) (s : State) : Prop :=
  Admitted 0x0E02 d s ∧ Passes [args d 0]

/-- Life records ten minutes old are flushed (R436). -/
abbrev whenFlushTimer (s : State) : Prop :=
  600 ≤ s.r .REC_AGE_SECONDS ∧ s.rb .REC_STAT_FLUSHING = false

/-- An hour of a lane's life is counted in its bin (R438). -/
abbrev whenLaneHour (lane : Fin 48) (bin : Nat) (s : State) : Prop :=
  s.r .LK_LANE_LSTATE (lane / 4) (lane % 4) = LACTIVE ∧ (s.ln lane).activeAt + 3600000000000 ≤ s.now ∧ bin < 10

end Sys2Proof.Machine
end

