-- ==== Sys2Proof/Certificates/Slice0/Obligations.lean ====
section
/-! DEFINITION. The statements about the device, for the provers: what every step keeps, what the rules say, what each command does where
it has its own effect, and what it leaves. -/

open Sys2Proof Sys2Proof.Machine

/-- One step runs the command at the front of the queue on the state with the queue's rest. On an empty queue a step lets one core cycle
pass: time advances by one, the queue stays empty,
    and while the domains outside VAUX are held nothing but the end of the core cycle takes
place: the model's choice, log entry 1. -/
def Obligations.StepsRunTheQueue : Prop :=
  (∀ (c : Instr) (q : List Instr) (s : State), step { s with pending := c :: q } = exec c { s with pending := q }) ∧
  ∀ s : State, s.pending = [] → step s = .next (tick s) ∧
    (s.Good → (tick s).now = s.now + 1 ∧ (tick s).pending = []) ∧ ((newCycle s).halted = true → tick s = newCycle s)

/-- After reset the invariant holds, no command waits, every pitch is IDLE, every mailbox and the event ring is disabled, every port is
OFF, no group belongs to a pitch, and the device is not READY. -/
def Obligations.ResetIsIdleAndGood : Prop :=
  State.reset.Good ∧ State.reset.pending = [] ∧
  (∀ p, State.reset.pstate p = IDLE ∧ State.reset.r .PT_MEMBERS_MASK p = 0 ∧ State.reset.r .PT_STATUS_TRK p = 0) ∧
  (∀ n, State.reset.rb .MB_CFG_EN n = false ∧ State.reset.r .LK_STATE_STATE n = 0) ∧
  State.reset.rb .EVR_CFG_EN = false ∧ State.reset.rb .SYS_STATE_READY = false

/-- Every step keeps the invariant: the five memories in canonical form, and the register file sorted by key with no reset value
listed and every field within its width. -/
def Obligations.StepsKeepTheInvariant : Prop :=
  ∀ s t : State, s.Good → step s = .next t → t.Good

/-- No command touches the queue or the time: both are the step's alone. -/
def Obligations.CommandsLeaveTheQueueAndTheTime : Prop :=
  ∀ (c : Instr) (s t : State), s.Good → exec c s = .next t → t.pending = s.pending ∧ t.now = s.now

/-- No command ends in a fault or a refusal. -/
def Obligations.EveryCommandCompletes : Prop :=
  ∀ (c : Instr) (s : State), Completes c s

/-- A register field holds the value last written to it, cut to its width, and keeps every other field, unit and entry. -/
def Obligations.RegistersReadAsWritten : Prop :=
  ∀ (s : State) (f g : Fld) (u i v u' i' : Nat),
    (s.w f u v i).r g u' i' = if g = f ∧ u' = u ∧ i' = i then v % 2 ^ f.width else s.r g u' i'

/-- A store into a memory space is what a later load of the same bytes answers; every other byte of the space, and every other space,
is as before; and the canonical form stays. -/
def Obligations.MemoriesReadAsWritten : Prop :=
  ∀ (s : State) (sp sp' a : Nat) (b : List Byte),
    (s.store sp a b).load sp a b.length = b ∧
    (∀ c, c < a ∨ a + b.length ≤ c → ((s.store sp a b).space sp).rd c = (s.space sp).rd c) ∧
    (min sp 4 ≠ min sp' 4 → (s.store sp a b).space sp' = s.space sp') ∧
    ((s.space sp).wf = true → ((s.store sp a b).space sp).wf = true)

/-- Phases wrap modulo 2^64 and compare by their signed modular difference: a phase that lies d sub-beats later, d below 2^63, reads
as d later, across the wrap as well (R12). -/
def Obligations.PhasesCompareAcrossTheWrap : Prop :=
  (∀ a b, phAdd a b = (a + b) % 2 ^ 64) ∧
  (∀ a b, a < 2 ^ 64 → b < 2 ^ 64 → -(2 ^ 63 : Int) ≤ phDiff a b ∧ phDiff a b < 2 ^ 63 ∧
      (2 ^ 64 : Int) ∣ phDiff a b - ((a : Int) - b)) ∧
  (∀ a d, a < 2 ^ 64 → d < 2 ^ 63 → phDiff (phAdd a d) a = d ∧ phDiff a (phAdd a d) = -(d : Int))

/-- PT_PHASE_HI reads the value that the last read of PT_PHASE_LO latched, so that the two reads show one 64-bit phase, however much
time and however many commands that leave the latch lie between them; reading PT_PHASE_HI changes nothing (R39). -/
def Obligations.ThePhasePairShowsOnePhase : Prop :=
  ∀ (u : Nat) (s t : State), s.phaseNow u < 2 ^ 64 →
    t.r .PT_PHASE_HI_PHASE u = (regRead .PT_PHASE_LO u 0 s).2.r .PT_PHASE_HI_PHASE u →
    (regRead .PT_PHASE_HI u 0 t).2 = t ∧
    (regRead .PT_PHASE_HI u 0 t).1 = s.phaseNow u / 2 ^ 32 ∧
    (regRead .PT_PHASE_HI u 0 t).1 * 2 ^ 32 + (regRead .PT_PHASE_LO u 0 s).1 = s.phaseNow u

/-- A boundary at which a stop is due discards a pending jump and sets DROP; a halt (cause 0xF) keeps the jump and leaves DROP (R120). -/
def Obligations.AStopDiscardsThePendingJump : Prop :=
  ∀ (p : Fin 32) (s : State) (q : Deferred) (c : Nat),
    s.pstate p = RUNNING → (s.pt p).atEnd = true → (s.pt p).needFlow = false → s.reached p (s.pt p).next = true →
    (s.pt p).defer = some q → (quieted p s).boundaryStop p ((s.cycleOf p (s.pt p).next).getD s.now) = some c →
    ∃ t, exec (.boundary p) s = .next t ∧
      (c ≠ 0xF → (t.pt p).defer = none ∧ t.r .PT_RUN_DROP p = 1) ∧
      (c = 0xF → (t.pt p).defer = some q ∧ t.r .PT_RUN_DROP p = s.r .PT_RUN_DROP p)

/-- The bank predictor: reset counters of 0b10; after an access the row stays open when C[H] is at least 0b10; the next access judges that
choice, right where the row was kept open and is hit or was closed and another row comes, and then C[H] goes up, or down otherwise,
    within
0 to 3; H takes the outcome; a refresh closes the row, so that no hit follows it, and leaves H and C (R247). That the first access of a
bank, before which no choice was made, judges nothing, and that a closed row is no hit, is the model's reading, log entry 34. -/
def Obligations.TheBankPredictorLearns : Prop :=
  ({} : Bank).c = [2, 2, 2, 2] ∧
  (∀ (b : Bank) (row : Nat) (same hit : Bool), b.c.length = 4 → b.h < 4 → same = (b.lastRow == some row) → hit = (same && !b.shut) →
    (b.access row).h = (2 * b.h + b2n hit) % 4 ∧ (b.access row).shut = false ∧ (b.access row).lastRow = some row ∧
    (b.access row).kept = decide (2 ≤ (b.access row).c.getD (b.access row).h 2) ∧
    (b.lastRow.isSome = true → ∀ k, k < 4 → (b.access row).c.getD k 2 =
      if k ≠ b.h then b.c.getD k 2
      else if (b.kept = true ∧ hit = true) ∨ (b.kept = false ∧ same = false) then min 3 (b.c.getD k 2 + 1) else b.c.getD k 2 - 1) ∧
    (b.lastRow = none → (b.access row).c = b.c)) ∧
  (∀ b : Bank, b.refreshed = { b with shut := true })

/-- An event with the ring full or disabled is dropped and counted; with room its record is written, DROPPED telling of drops before it,
and no unread record is overwritten. SEQ advances in both cases (R334). -/
def Obligations.EventsAreDroppedOrWritten : Prop :=
  ∀ (code : Nat) (vals : List (Nat × Nat)) (s : State), s.Good →
    (event code vals s).mbox.evSeq = (s.mbox.evSeq + 1) % 2 ^ 32 ∧
    ((s.rb .EVR_CFG_EN = false ∨ s.evrSize ≤ dist32 (s.r .EVR_PROD_COUNT) (s.r .EVR_CONS_COUNT)) →
      (event code vals s).mem = s.mem ∧ (event code vals s).mbox.evDropped = true ∧
      (event code vals s).r .EVR_STAT_EVR_LOST = min (s.r .EVR_STAT_EVR_LOST + 1) (2 ^ Fld.width .EVR_STAT_EVR_LOST - 1) ∧
      (event code vals s).r .EVR_PROD_COUNT = s.r .EVR_PROD_COUNT) ∧
    (s.rb .EVR_CFG_EN = true → dist32 (s.r .EVR_PROD_COUNT) (s.r .EVR_CONS_COUNT) < s.evrSize →
      (event code vals s).mbox.evDropped = false ∧
      (event code vals s).r .EVR_PROD_COUNT = (s.r .EVR_PROD_COUNT + 1) % 2 ^ 32 ∧
      (event code vals s).loadN 3 (evrSlot s (s.r .EVR_PROD_COUNT)) 32 = s.eventRec code vals ∧
      bits (s.eventRec code vals) 15 0 = code % 2 ^ 16 ∧
      bits (s.eventRec code vals) 16 16 = b2n s.mbox.evDropped ∧
      bits (s.eventRec code vals) 63 32 = s.mbox.evSeq % 2 ^ 32 ∧
      (∀ a, a < evrSlot s (s.r .EVR_PROD_COUNT) ∨ evrSlot s (s.r .EVR_PROD_COUNT) + 32 ≤ a →
        (event code vals s).mem.pool.rd a = s.mem.pool.rd a) ∧
      (∀ x, x < 2 ^ 32 → dist32 x (s.r .EVR_CONS_COUNT) < dist32 (s.r .EVR_PROD_COUNT) (s.r .EVR_CONS_COUNT) →
        (event code vals s).load 3 (evrSlot s x) 32 = s.load 3 (evrSlot s x) 32))

/-- A command code that the manual does not name completes with ST_UNSUPPORTED and does nothing else, on a READY device and a mailbox
that is not one taken over (R2). -/
def Obligations.UnknownCommandsAreUnsupported : Prop :=
  ∀ (d : Desc) (cmd : Nat) (s : State), cmd < 65536 → known cmd = false → Admitted cmd d s →
    exec (.unsupportedCommand d cmd) s = .next (complete cmd d ST_UNSUPPORTED false 0 0 0 (started d s))

/-- PAT.RELEASE on an idle pitch clears PREPARED, and unpins the resident pages and frees the lead of each group of the pitch; on a pitch
that is not idle it completes with ST_STATE (R92). That far prefetch goes with the lead is the model's choice, log entry 41. -/
def Obligations.ReleaseUnpinsAnIdlePitch : Prop :=
  ∀ (d : Desc) (s : State), Admitted 0x0506 d s → Passes [args d 1, unit 32 d.a0, s.pOff d.a0] →
    (s.idle d.a0 = false → exec (.patRelease d) s = .next (complete 0x0506 d ST_STATE false 0 0 0 (started d s))) ∧
    (s.idle d.a0 = true → ∃ t, exec (.patRelease d) s = .next (complete 0x0506 d ST_OK false 0 0 0 t) ∧
      t.mem = s.mem ∧ t.r .PT_SUPPLY_PREPARED d.a0 = 0 ∧
      (∀ g ∈ s.members d.a0, t.r .PG_PIN_RESIDENT g = 0 ∧ t.r .PG_PIN_RESERVE g = 0 ∧ t.r .PG_USE_HELD g = 0 ∧
          t.r .PG_USE_BORROWED g = 0 ∧ (t.gp g).leadFull = false ∧ (t.gp g).pool = []) ∧
      (∀ g, g ∉ s.members d.a0 → t.gp g = s.gp g) ∧
      (∀ f u i, ¬(f = .PT_SUPPLY_PREPARED ∧ u = d.a0) → ¬(f ∈ [Fld.PG_PIN_RESIDENT, .PG_PIN_RESERVE, .PG_USE_HELD, .PG_USE_BORROWED] ∧
          u ∈ s.members d.a0) →
        t.r f u i = s.r f u i))

/-- A write through the device window that touches an array of a bound group is discarded and counted in WIN_REJECT_CNT; one that touches
none is stored; and a read of the window answers the stored bytes (R79). -/
def Obligations.TheWindowSparesBoundArrays : Prop :=
  ∀ (path : Path) (a : Nat) (b : List Byte) (s : State), path ≠ .flash → 0x800000000 ≤ a →
    (s.inBound (s.winAt path a).2 b.length = true →
      (s.winStore path a b).mem = s.mem ∧
      (s.winStore path a b).r .POOL_ERR_WIN_REJECT_CNT =
        min (s.r .POOL_ERR_WIN_REJECT_CNT + 1) (2 ^ Fld.width .POOL_ERR_WIN_REJECT_CNT - 1) ∧
      ∀ f u i, f ≠ .POOL_ERR_WIN_REJECT_CNT → (s.winStore path a b).r f u i = s.r f u i) ∧
    (s.inBound (s.winAt path a).2 b.length = false →
      (s.winStore path a b).winLoad path a b.length = b ∧
      ∀ c, c < (s.winAt path a).2 ∨ (s.winAt path a).2 + b.length ≤ c → (s.winStore path a b).mem.vcm.rd c = s.mem.vcm.rd c) ∧
    (∀ n, s.winLoad path a n = s.mem.vcm.rds (s.winAt path a).2 n)

/-- The completion entry goes to the slot of MB_CPL_PROD with the parity of the pass, MB_CPL_PROD advances, OUTSTANDING falls with a
final completion only, and no other byte of any memory changes; while the twin holds the entry back nothing is written yet (R329, R447). -/
def Obligations.CompletionsWriteTheirEntryOnly : Prop :=
  ∀ (cmd : Nat) (d : Desc) (st : Nat) (interim : Bool) (r0 r1 r2 : Nat) (s : State), st < 256 →
    (s.twinWaits = true → (complete cmd d st interim r0 r1 r2 s).mem = s.mem) ∧
    (s.twinWaits = false →
      (complete cmd d st interim r0 r1 r2 s).loadN 3 (cplSlot s d.mb) 32 =
        cplEntry cmd st interim d r0 r1 r2 + (if s.r .MB_CPL_PROD_COUNT d.mb / s.mbSize d.mb % 2 = 0 then 2 ^ 41 else 0) ∧
      (complete cmd d st interim r0 r1 r2 s).r .MB_CPL_PROD_COUNT d.mb = (s.r .MB_CPL_PROD_COUNT d.mb + 1) % 2 ^ 32 ∧
      (∀ a, a < cplSlot s d.mb ∨ cplSlot s d.mb + 32 ≤ a →
        (complete cmd d st interim r0 r1 r2 s).mem.pool.rd a = s.mem.pool.rd a)) ∧
    (∀ sp, sp ≠ 3 → (complete cmd d st interim r0 r1 r2 s).space sp = s.space sp) ∧
    (complete cmd d st interim r0 r1 r2 s).r .MB_STAT_OUTSTANDING d.mb =
      (if interim then s.r .MB_STAT_OUTSTANDING d.mb else (s.r .MB_STAT_OUTSTANDING d.mb - 1) % 2 ^ Fld.width .MB_STAT_OUTSTANDING)

/-- The address decode of VCM: port, local address, column, bank and row; no two byte addresses share a port and a local address; and
the 128 units of 1 KiB of an aligned run lie on 128 different ports (R244). -/
def Obligations.VcmAddressesDecodeByTheTable : Prop :=
  (∀ a, a < 2 ^ 37 →
    vcmPort a = (a / 2 ^ 10 % 2 ^ 7) ^^^ (a / 2 ^ 17 % 2 ^ 7) ∧ vcmPort a < 128 ∧
    vcmLocal a = a / 2 ^ 17 * 1024 + a % 1024 ∧ vcmLocal a < 2 ^ 30 ∧
    vcmBank a = vcmLocal a / 2 ^ 11 % 2 ^ 5 ∧ vcmRow a = vcmLocal a / 2 ^ 16) ∧
  (∀ a b, a < 2 ^ 37 → b < 2 ^ 37 → vcmPort a = vcmPort b → vcmLocal a = vcmLocal b → a = b) ∧
  (∀ k i j, k < 2 ^ 20 → i < 128 → j < 128 → vcmPort (k * 2 ^ 17 + i * 1024) = vcmPort (k * 2 ^ 17 + j * 1024) → i = j)

/-- A residue takes the tap whose calibrated value is nearest, the lower tap on a tie (R57). -/
def Obligations.EdgesTakeTheNearestTap : Prop :=
  ∀ (tab : List Nat) (resid : Nat), tab ≠ [] → (∀ x ∈ tab, x < 2 ^ 31) → resid < 2 ^ 31 →
    chooseTap tab resid < tab.length ∧
    ∀ i, i < tab.length →
      ((tab.getD (chooseTap tab resid) 0 : Int) - resid).natAbs ≤ ((tab.getD i 0 : Int) - resid).natAbs ∧
      (i < chooseTap tab resid → ((tab.getD (chooseTap tab resid) 0 : Int) - resid).natAbs < ((tab.getD i 0 : Int) - resid).natAbs)

/-- The calibrated value at a temperature: between two adjacent points by the line through them; above the highest point its value;
with one point its value; with none the nominal one; below the lowest two by their line, held below 0 °C (R236). -/
def Obligations.CalibrationInterpolates : Prop :=
  (∀ d t, calAt d t [] = d) ∧ (∀ d t t0 v0, calAt d t [(t0, v0)] = v0) ∧
  (∀ d t t0 v0 t1 v1 r, t ≤ t1 → calAt d t ((t0, v0) :: (t1, v1) :: r) = between t0 v0 t1 v1 (max t 0)) ∧
  (∀ (d t t0 v0 t1 v1 : Int) (pre post : List (Int × Int)),
    ((pre ++ (t0, v0) :: (t1, v1) :: post).map (·.1)).Pairwise (· < ·) → 0 ≤ t0 → t0 < t → t ≤ t1 →
    calAt d t (pre ++ (t0, v0) :: (t1, v1) :: post) = between t0 v0 t1 v1 t) ∧
  (∀ (d t t0 v0 : Int) (pre : List (Int × Int)), ((pre ++ [(t0, v0)]).map (·.1)).Pairwise (· < ·) → t0 < t →
    calAt d t (pre ++ [(t0, v0)]) = v0) ∧
  (∀ t0 v0 t1 v1, t0 < t1 → between t0 v0 t1 v1 t0 = v0 ∧ between t0 v0 t1 v1 t1 = v1)

/-- A post with a valid order key: an item of a producer below its reservation, or below its limit in a class below its maximum while a
shared entry is left, is admitted with the priority, the class and the producer it came with, unless its key was cancelled in its core
cycle; any other is refused, the admitted items stay, and a refusal that stands when its core cycle ends is counted (R358, R360, R364). -/
def Obligations.PostsAreAdmittedByQuota : Prop :=
  (∀ (cls prod type key payload : Nat) (held : Bool) (s : State), keyOk key = true →
    ((s.duHp cls prod < s.duR cls ∨
        (s.duHp cls prod < s.r .DU_CLASS_PLIM 0 cls ∧ s.duHc cls < s.r .DU_QUOTA_MAX 0 cls ∧ 0 < shareLeft s)) →
      (held = true ∨ s.raced key = false) →
      ∃ x, (post cls prod type key payload held s).disp.items = s.disp.items ++ [x] ∧ x.cls = cls ∧ x.prod = prod ∧ x.key = key ∧
        x.type = type ∧ x.payload = payload ∧ x.prio = (if cls = 4 then s.r .MB_CFG_PRIO prod else s.r .DU_CLASS_PRIO 0 cls) ∧
        x.st = (if held then .held else .ready s.now) ∧ (post cls prod type key payload held s).regs = s.regs) ∧
    (¬(s.duHp cls prod < s.duR cls ∨
        (s.duHp cls prod < s.r .DU_CLASS_PLIM 0 cls ∧ s.duHc cls < s.r .DU_QUOTA_MAX 0 cls ∧ 0 < shareLeft s)) →
      (post cls prod type key payload held s).disp.items = s.disp.items ∧
      ∃ x, (post cls prod type key payload held s).disp.refused = s.disp.refused ++ [x] ∧ x.cls = cls ∧ x.prod = prod ∧
          x.since = s.now)) ∧
  ∀ (c : Fin 8) (s : State),
      (duRefuse c s).r .DU_REFUSE_VALUE 0 c = min (s.r .DU_REFUSE_VALUE 0 c + 1) (2 ^ Fld.width .DU_REFUSE_VALUE - 1) ∧
    (duRefuse c s).r .DU_STAT_REFUSE_SEEN = 1

/-- Dispatching keeps at most one item of an order key in service (R361). -/
def Obligations.OneItemOfAKeyInService : Prop :=
  oneInService State.reset ∧ ∀ (v : Fin 17) (s t : State), oneInService s → exec (.workItemDispatch v) s = .next t → oneInService t

/-- A throttle tick raises k by 1, to at most 16, while a working sensor is at TLIM or above, lowers it by 1 below TLIM less 3 °C, and
leaves it between; the ticks end when k is 0 (R423). -/
def Obligations.ThrottleTicksMoveKByOne : Prop :=
  ∀ s : State, s.stopped = false → s.pwr.ticking = true → s.pwr.tickAt ≤ s.now → s.r .THM_STATE_CAP_STEP ≤ 16 →
    ∃ t, exec .throttleTick s = .next t ∧
      t.r .THM_STATE_CAP_STEP =
        (if s.hot (16 * (s.r .THM_CFG_TLIM : Nat)) then min 16 (s.r .THM_STATE_CAP_STEP + 1)
         else if s.hot (16 * (s.r .THM_CFG_TLIM : Nat) - 48) then s.r .THM_STATE_CAP_STEP
         else s.r .THM_STATE_CAP_STEP - 1) ∧
      t.pwr.ticking = decide (t.r .THM_STATE_CAP_STEP ≠ 0)

/-- A change x of BEAT_OFF stays within one beat and carries into the beat counter, and every stored a and d of the means loses x (R298,
R303). That the carry goes the way in which every numbered beat edge moves by exactly x is the model's reading, log entry 38. -/
def Obligations.BeatOffCarriesIntoTheBeat : Prop :=
  ∀ (x : Int) (s : State), s.guy.beat < 2 ^ 48 →
    (moveBoff x s).r .GY_BOFF_BEAT_OFF < 4194304 ∧ (moveBoff x s).guy.beat < 2 ^ 48 ∧
    (4194304 * 2 ^ 48 : Int) ∣ ((4194304 * (moveBoff x s).guy.beat : Int) - (moveBoff x s).r .GY_BOFF_BEAT_OFF) -
      ((4194304 * s.guy.beat : Int) - s.r .GY_BOFF_BEAT_OFF) + x ∧
    (moveBoff x s).guy.pegs.map (·.d) = s.guy.pegs.map (fun p => p.d - x) ∧
    (moveBoff x s).guy.pegs.map (·.a) = s.guy.pegs.map (fun p => p.a - x)

/-- A doorbell write moves MB_PROD to a value ahead of it by no more than the free entries of the ring; the present value has no effect;
any other one, or one to a disabled mailbox, leaves MB_PROD and sets ERR with cause 2 (R326). -/
def Obligations.DoorbellsMoveTheProducerCount : Prop :=
  ∀ (path : Path) (mb : Fin 64) (v : Nat) (s : State), v < 2 ^ 32 →
    ∃ t, exec (.mbDb path mb v) s = .next t ∧
      (s.rb .MB_CFG_EN mb = true → s.mbox.draining.contains mb.val = false → v = s.r .MB_PROD_COUNT mb → t = s) ∧
      (s.rb .MB_CFG_EN mb = true → s.mbox.draining.contains mb.val = false → 0 < dist32 v (s.r .MB_PROD_COUNT mb) →
        dist32 v (s.r .MB_PROD_COUNT mb) ≤ s.mbSize mb - dist32 (s.r .MB_PROD_COUNT mb) (s.r .MB_CONS_COUNT mb) →
        t.r .MB_PROD_COUNT mb = v ∧ t.mem = s.mem ∧ ∀ f u i, ¬(f = .MB_PROD_COUNT ∧ u = mb) → t.r f u i = s.r f u i) ∧
      (s.rb .MB_CFG_EN mb = false ∨
          s.mbSize mb - dist32 (s.r .MB_PROD_COUNT mb) (s.r .MB_CONS_COUNT mb) < dist32 v (s.r .MB_PROD_COUNT mb) →
        (s.rb .MB_CFG_EN mb = true → v ≠ s.r .MB_PROD_COUNT mb) →
        t.r .MB_PROD_COUNT mb = s.r .MB_PROD_COUNT mb ∧ t.r .MB_STAT_ERR mb = 1 ∧ t.r .MB_STAT_ECAUSE mb = 2)

/-- DU_QUOTAc and DU_CLASSc: a write that keeps the sums and limits of R359 is stored, and no item leaves; any other is ignored and sets
QCFG_ERR. -/
def Obligations.QuotaWritesKeepTheSums : Prop :=
  ∀ (c : Fin 8) (quota : Bool) (v : Nat) (s : State),
    ∃ t, exec (.duQuotaWrite c quota v) s = .next t ∧
      (s.quotaOk c (if quota then bits v 15 0 else s.r .DU_QUOTA_GUAR 0 c) (if quota then bits v 31 16 else s.r .DU_QUOTA_MAX 0 c)
          (if quota then s.r .DU_CLASS_PLIM 0 c else bits v 15 0) = false →
        t = s.setF .DU_STAT_QCFG_ERR) ∧
      (s.quotaOk c (if quota then bits v 15 0 else s.r .DU_QUOTA_GUAR 0 c) (if quota then bits v 31 16 else s.r .DU_QUOTA_MAX 0 c)
          (if quota then s.r .DU_CLASS_PLIM 0 c else bits v 15 0) = true →
        (quota = true → t.r .DU_QUOTA_GUAR 0 c = bits v 15 0 ∧ t.r .DU_QUOTA_MAX 0 c = bits v 31 16) ∧
        (quota = false → t.r .DU_CLASS_PLIM 0 c = bits v 15 0) ∧
        ∀ x ∈ s.disp.items, x ∈ t.disp.items)

/-- A descriptor with a nonzero reserved field completes with ST_RANGE and does nothing else, whatever its command (R9, R480). -/
def Obligations.ReservedFieldsAreRefused : Prop :=
  ∀ (c : Instr) (cmd : Nat) (d : Desc) (s : State), hostCmd c = some (cmd, d) → s.startable cmd d = true → s.ready = true →
    (s.taken' d.mb && !takenCmd cmd d) = false → d.rsv ≠ 0 →
    exec c s = .next (complete cmd d ST_RANGE false 0 0 0 (started d s))

/-- Before READY every command but SYS.INFO and SYS.NOP completes with ST_STATE and does nothing else (R420). A mailbox that this device
has taken over runs SYS.INFO, SYS.NOP, SEC.SEAL, SEC.LOT CLOSE and TWIN.STATUS; every other command completes with ST_FAULT (R454). -/
def Obligations.CommandsAreTurnedAway : Prop :=
  ∀ (c : Instr) (cmd : Nat) (d : Desc) (s : State), hostCmd c = some (cmd, d) → s.startable cmd d = true →
    (s.ready = false → ¬beforeReady cmd → exec c s = .next (complete cmd d ST_STATE false 0 0 0 (started d s))) ∧
    (s.ready = true → s.taken' d.mb = true → ¬(cmd ∈ [0x0101, 0x0102, 0x0D07, 0x1003] ∨ cmd = 0x0D08 ∧ d.a0 = 1) →
      exec c s = .next (complete cmd d ST_FAULT false 0 0 0 (started d s)))

/-- A command starts only on an enabled mailbox, in ring order, and with FENCE set only when no earlier descriptor of its mailbox is
unfinished; until then it changes nothing (R332). -/
def Obligations.CommandsStartInRingOrder : Prop :=
  ∀ (c : Instr) (cmd : Nat) (d : Desc) (s : State), hostCmd c = some (cmd, d) →
    (s.rb .MB_CFG_EN d.mb = false ∨ (∃ e cmd', s.mbox.taken.find? (fun x => x.1.mb == d.mb) = some (e, cmd') ∧ e ≠ d) ∨
      (d.fence = true ∧ s.unfinished d.mb ≠ 0)) →
    exec c s = .next s

/-- Frame: a link-layer row changes no byte of any memory and no register but those of the link layer. -/
def Obligations.LinkRowsTouchTheLinkOnly : Prop :=
  ∀ (c : Instr) (s t : State), linkQuiet c = true → exec c s = .next t →
    t.mem = s.mem ∧ ∀ f u i, f ∉ linkFields → t.r f u i = s.r f u i

/-- Frame: a flow instruction changes no byte of any memory, no other pitch, no channel and no other group, and no register but the
position, stacks, flags and run state of its pitch and the pending interrupts of its sequencer. -/
def Obligations.FlowInstructionsTouchTheirPitchOnly : Prop :=
  ∀ (c : Instr) (p : Fin 32) (s t : State), flowPitch c = some p → exec c s = .next t →
    t.mem = s.mem ∧ t.chan = s.chan ∧ (∀ k, k ≠ p.val → t.pt k = s.pt k ∧ t.gp k = s.gp k) ∧
    ∀ f u i, ¬(f ∈ flowFields ∧ u = p.val) → t.r f u i = s.r f u i

/-- Frame: these rows change no register and no byte of any memory. -/
def Obligations.InnerRowsTouchNoRegister : Prop :=
  ∀ (c : Instr) (s t : State), inner c = true → exec c s = .next t → t.regs = s.regs ∧ t.mem = s.mem

/-- Frame: a plain microword between two INT words changes, of what registers and memories hold, only the address of the next word and the
counts of cancelled work items; of the sequencer's registers only DST and the flags of its own group; and no other group, pitch or
channel. -/
def Obligations.PlainMicrowordsWriteTheirDestinationOnly : Prop :=
  ∀ (c : Instr) (g : Fin 32) (opc : Nat) (w : Micro) (b : Bool) (s t : State), plainMicro c = some (g, opc, w, b) →
    s.supplies g opc w = true → w.ecc = .clean → w.int = false → (s.gp g).sq.gap < 15 →
    (s.fetchAt g).1 + 1 < storeEnd (s.fetchAt g).2 → exec c s = .next t →
    t.mem = s.mem ∧ t.chan = s.chan ∧ t.pitch = s.pitch ∧ (∀ k, k ≠ g.val → t.gp k = s.gp k) ∧
    (∀ f u i, ¬(f ∈ [Fld.SQ_UPC_UPC, .SQ_UPC_UPATCH] ∧
        u = g.val) → f ∉ [Fld.DU_CANCEL_CANCEL, .DU_CANCEL_RCANCEL] → t.r f u i = s.r f u i) ∧
    (∀ k, k < 16 → (b = true → k ≠ w.dst) → t.uReg g k = (shadow g s).uReg g k)

/-- Frame: a write of a consumer count changes no byte of any memory, and no register but that count and RING_FULL of the result
ring. -/
def Obligations.ConsumerCountsTouchThemselvesOnly : Prop :=
  ∀ (c : Instr) (f : Fld) (u v : Nat) (s t : State), consumer c = some (f, u, v) → exec c s = .next t →
    t.mem = s.mem ∧ (t.r f u = s.r f u ∨ t.r f u = v % 2 ^ f.width) ∧
    ∀ g k i, ¬(g = f ∧ k = u ∧ i = 0) → g ≠ .SEC_STATE_RING_FULL → t.r g k i = s.r g k i

/-- Frame: these rows change no byte of any memory, no other group, no pitch and no channel, and no register but the interrupt, address
and status registers of their sequencer and the counts of cancelled work items. -/
def Obligations.InterruptRowsTouchTheirSequencerOnly : Prop :=
  ∀ (c : Instr) (g : Fin 32) (s t : State), interruptRow c = some g → exec c s = .next t →
    t.mem = s.mem ∧ t.chan = s.chan ∧ t.pitch = s.pitch ∧ (∀ k, k ≠ g.val → t.gp k = s.gp k) ∧
    ∀ f u i, ¬(f ∈ [Fld.SQ_INTP_PEND, .SQ_INTP_LAT_MAX, .SQ_USTAT_CMD_REJ, .SQ_UPC_UPC, .SQ_UPC_UPATCH] ∧
        u = g.val) → f ∉ [Fld.DU_CANCEL_CANCEL, .DU_CANCEL_RCANCEL] →
      t.r f u i = s.r f u i

/-- Frame of the commands that store a block through the window: of the pool and of VCM only the block's bytes and the completion entry
change, and the deep stores and the flash stay. -/
def Obligations.BlocksChangeTheirBytesOnly : Prop :=
  ∀ (cmd : Nat) (d : Desc) (r0 r1 r2 : Nat) (path : Path) (a : Nat) (b : List Byte) (s : State), path ≠ .flash →
    ((s.winAt path a).1 = 3 → ∀ x, (x < (s.winAt path a).2 ∨ (s.winAt path a).2 + b.length ≤ x) →
        (x < cplSlot s d.mb ∨ cplSlot s d.mb + 32 ≤ x) →
      (complete cmd d ST_OK false r0 r1 r2 (s.winStore path a b)).mem.pool.rd x = s.mem.pool.rd x) ∧
    ((s.winAt path a).1 = 0 → (∀ x, (x < cplSlot s d.mb ∨ cplSlot s d.mb + 32 ≤ x) →
        (complete cmd d ST_OK false r0 r1 r2 (s.winStore path a b)).mem.pool.rd x = s.mem.pool.rd x) ∧
      ∀ x, (x < (s.winAt path a).2 ∨ (s.winAt path a).2 + b.length ≤ x) →
        (complete cmd d ST_OK false r0 r1 r2 (s.winStore path a b)).mem.vcm.rd x = s.mem.vcm.rd x) ∧
    (complete cmd d ST_OK false r0 r1 r2 (s.winStore path a b)).mem.cx0 = s.mem.cx0 ∧
    (complete cmd d ST_OK false r0 r1 r2 (s.winStore path a b)).mem.cx1 = s.mem.cx1 ∧
    (complete cmd d ST_OK false r0 r1 r2 (s.winStore path a b)).mem.flash = s.mem.flash

/-- A start puts NEXT of every key at RES_END, so that no reserved index of before is used again, and a key without an index left is
EXHAUSTED (R388); and a key signs only with an index below its RES_END (R387). -/
def Obligations.KeysSpendReservedIndicesOnly : Prop :=
  (∀ s : State, (startKeys s).sec.ident.next = s.sec.ident.resEnd ∧
    ∀ k ∈ (startKeys s).sec.sess, k.next = k.resEnd ∧ ∃ j ∈ s.sec.sess, j.keyId = k.keyId ∧ j.resEnd = k.resEnd) ∧
  (∀ k : Key, k.state = 2 ∨ k.state = 3 → keySize k.oid ≤ k.resEnd → k.start.state = 5) ∧
  (∀ (r : SigFor) (rest : List SigFor) (k : Key) (s : State), s.sec.sigs = r :: rest → s.keyOf r = some k → k.resEnd ≤ k.next →
    exec .signatureDone s = .next s)

/-- Every 3 × 4 footprint of a channel holds its eight signal contacts and four VSS contacts, two footprints share no site, and the
footprints fill the 96 × 32 band of each side (R462). Every lane holds its four signal contacts in the gap strip of its side,
    VSS between
them, and every strip ends in six VSERH contacts and VSS (R463). -/
def Obligations.ContactsFollowTheMap : Prop :=
  (∀ c i k : Nat, c < 1024 → i < 3 → k < 4 → contactAt (channelSite c i k) = some (match i, k with
    | 0, 0 => .chan c .drv false | 0, 1 => .chan c .drv true | 0, 2 => .chan c .den false | 0, _ => .chan c .den true
    | 1, _ => .vss
    | _, 0 => .chan c .cmh false | _, 1 => .chan c .cmh true | _, 2 => .chan c .cml false | _, _ => .chan c .cml true)) ∧
  (∀ s x y : Nat, s < 4 → x < 96 → y < 32 → ∃ c i k : Nat, c < 1024 ∧ i < 3 ∧ k < 4 ∧ c / 32 / 8 = s ∧
      channelSite c i k = place s x y) ∧
  (∀ c i k c' i' k' : Nat, c < 1024 → i < 3 → k < 4 → c' < 1024 → i' < 3 → k' < 4 → channelSite c i k = channelSite c' i' k' →
    c = c' ∧ i = i' ∧ k = k') ∧
  (∀ l n : Nat, l < 48 → n < 2 → contactAt (laneSite l 0 n) = some (.lane l true (n == 1)) ∧ contactAt (laneSite l 1 n) = some .vss ∧
    contactAt (laneSite l 2 n) = some (.lane l false (n == 1))) ∧
  (∀ q i y : Nat, q < 4 → i < 3 → 24 ≤ y → y < 32 → contactAt (place q (96 + i) y) = some (if y < 26 then .rail .vserh else .vss))

/-- A write of 1s to a W1C field clears the bits written, but a bit that hardware set in that core cycle stays set, whichever came first;
every other field is as before (R365). -/
def Obligations.AClearSparesWhatHardwareSets : Prop :=
  ∀ (f : Fld) (u i v b k : Nat) (s : State), f.info.acc = .W1C → k < f.width →
    ((w1c f u i v (s.setW f u b i)).r f u i).testBit k =
      (b.testBit k || ((s.r f u i).testBit k && (!v.testBit k || (s.setNow ⟨f, u, i⟩).testBit k))) ∧
    (((w1c f u i v s).setW f u b i).r f u i).testBit k =
      (b.testBit k || ((s.r f u i).testBit k && (!v.testBit k || (s.setNow ⟨f, u, i⟩).testBit k))) ∧
    ∀ g u' i', ¬(g = f ∧ u' = u ∧ i' = i) → (w1c f u i v s).r g u' i' = s.r g u' i'

/-- Packets, messages and the service buses take effect: each row named here, on the state and operands its condition names, ends in the state that its own effect gives. -/
def Obligations.AccessesTakeEffect : Prop :=
  (∀ (port : Fin 12) (h : Txn) (corrected : Nat) (s : State), whenMrd port h corrected s → 
    exec (.mrd port h corrected) s = .next (if s.refuses port h false then finishMrd port h 1 [] (s.inc .LK_TXN_UR_CNT port)
      else readMem port port h (if inPool h.addr then s.inc .POOL_ERR_CORR 0 0 corrected else s))) ∧
  (∀ (port : Fin 12) (tag : Nat) (e : Txn × Nat) (s : State), whenMrdTimeout port tag e s → 
    exec (.mrdTimeout port tag) s = .next (finishMrd port e.1 3 [] (s.onLp port (fun x => { x with mrds := x.mrds.erase e })))) ∧
  (∀ (port : Fin 12) (h : Txn) (data : List Byte) (s : State), whenCpl port h data s → 
    exec (.cpl port h data) s = .next (if Malformed (if h.ttype = 4 then 4 else 3) h then endStream port s else s)) ∧
  (∀ (port : Fin 12) (h : Txn) (data : List Byte) (s : State), whenMwr port h data s → 
    exec (.mwr port h data) s = .next (releaseCr port 1 (ceilDiv (packetData h data).length 32) 0 (writeIn port h
        (packetData h data) s))) ∧
  (∀ (port : Fin 12) (h : Txn) (data : List Byte) (s : State), whenMsg port h data s → 
    exec (.msg port h data) s = .next (if (postMsg port h s).disp.refused.any (fun x => x.id == s.disp.nextId) then postMsg port h s
      else releaseCr port 1 (ceilDiv (packetData h data).length 32) 0 (postMsg port h s))) ∧
  (∀ (port : Fin 12) (id mask peg seg report : Nat) (s : State), whenStartAt port id mask peg seg report s → 
    exec (.startAt port id mask peg seg report) s = .next (startAt port id mask peg seg report s)) ∧
  (∀ (off : Nat) (data : List Byte) (s : State), whenI3cWrite off data s → 
    exec (.i3cWrite off data) s = .next (csrWrite .i3c off data.length (ofBytes data) s)) ∧
  (∀ (off : Nat) (s : State), whenI3cPointer off s → 
    exec (.i3cPointer off) s = .next ({ s with bus := { s.bus with i3cPtr := off } })) ∧
  (∀ (s : State), 
    exec .emergencyPark s = .next (settle (parkAll 3 s))) ∧
  (∀ (s : State), 
    exec .i3cTimeout s = .next (s)) ∧
  (∀ (op : Jtag) (s : State), 
    exec (.jtagInstruction op) s = .next ({ s with bus := { s.bus with jtag := op } }))

/-- Calibration commands and their ends take effect: each row named here, on the state and operands its condition names, ends in the state that its own effect gives. -/
def Obligations.CalibrationTakesEffect : Prop :=
  (∀ (d : Desc) (s : State), whenCalRun d s → 
    exec (.calRun d) s = .next (freeCmd d (calRunStart d (started d s)))) ∧
  (∀ (units : List CalRaw) (phases : List CalPhase) (j : Job) (m mx what : Nat) (force : Bool) (c : State × Nat × Nat × Nat)
      (v₀ v₁ : Nat × State) (s : State), whenCalRunDone units phases j m mx what force c v₀ v₁ s → 
    exec (.calRunDone units phases) s = .next (complete 0x0901 j.desc
        (if c.2.2.2 = 0 then ST_OK else ST_FAULT) false v₀.1 v₁.1 c.2.2.2 v₁.2)) ∧
  (∀ (d : Desc) (s : State), whenCalCommit d s → 
    exec (.calCommit d) s = .next
        (freeCmd d { (started d s).w .CAL_RUN_STATE 0 2 with jobs := s.jobs ++ [.calCommit d (if d.a0 = ALL1 then 7 else d.a0)] })) ∧
  (∀ (d : Desc) (point : Nat) (s : State), whenCalCommitDone d point s → 
    exec .calCommitDone s = .next (complete 0x0902 d ST_OK false 0 0 0 (commitEnded
        ((if point < 5 then commitPoint point else commitTrims)
      { (s.w .CAL_RUN_STATE 0 0).w .CAL_MAP_STAGED 0 0 with jobs := s.jobs.filter (· != .calCommit d point) })))) ∧
  (∀ (d : Desc) (s : State), whenCalDiscard d s → 
    exec (.calDiscard d) s = .next (complete 0x0903 d ST_OK false 0 0 0 { (started d s).w .CAL_MAP_STAGED 0 0 with
      cal := { (putSet ((started d s).r .CAL_MAP_STAGE) {} (started d s)).cal with stagedUnits := [] } })) ∧
  (∀ (d : Desc) (s : State), whenCalSysoff d s → 
    exec (.calSysoff d) s = .next (complete 0x0904 d ST_OK false 0 0 0 (calSysoffAct d (started d s)).after))

/-- Stamps, measurements and the TDC commands take effect: each row named here, on the state and operands its condition names, ends in the state that its own effect gives. -/
def Obligations.MeasurementsTakeEffect : Prop :=
  (∀ (code : Fin 1040) (cml rising : Bool) (coarse : Nat) (fine : Fin 1024) (s : State), whenTdcStamp code cml rising coarse fine s → 
    exec (.tdcStamp code cml rising coarse fine) s = .next (if s.r .TD_STATE_USE code = 3 then stripEdge code cml
        (s.seenRising code cml rising) (s.stampTime code coarse fine) coarse s
      else measEdge code cml (s.seenRising code cml rising) (s.stampTime code coarse fine) coarse s)) ∧
  (∀ (code : Fin 1040) (a : Nat) (s : State), whenTdcArmInstant code a s → 
    exec (.tdcArmInstant code) s = .next (armMeas code s)) ∧
  (∀ (code : Fin 1040) (s : State), whenFreqGateWindow code s → 
    exec (.freqGateWindow code) s = .next (gateWindow code s)) ∧
  (∀ (code : Fin 1040) (s : State), whenMeasurementTimeout code s → 
    exec (.measurementTimeout code) s = .next (s.onMs code
        (fun m => { m with ending := some (match m.ending with | some x => min x 5 | none => 5) }))) ∧
  (∀ (d : Desc) (s : State), whenTdcSetup d s → 
    exec (.tdcSetup d) s = .next (complete 0x0801 d ST_OK false 0 0 0 (setupMeas d.a0 d.path ((started d s).winN d.path d.a1 64)
        (started d s)))) ∧
  (∀ (d : Desc) (s : State), whenTdcArm d s → 
    exec (.tdcArm d) s = .next (complete 0x0802 d ST_OK false 0 0 0 (forAll (codesOf (started d s) d) (fun c t => t.onMs c
        (fun m => { m with armAt := some ((started d s).now + 32) })) (started d s)))) ∧
  (∀ (d : Desc) (s : State), whenTdcResult d s → 
    exec (.tdcResult d) s = .next (complete 0x0803 d ST_OK false 0 0 0 (writeResult ((started d s).ms d.a0)
        ((started d s).resultOf d.a0) d.a1 d.path (started d s)))) ∧
  (∀ (d : Desc) (s : State), whenTdcAbort d s → 
    exec (.tdcAbort d) s = .next (complete 0x0804 d ST_OK false 0 0 0 (forAll (codesOf (started d s) d) (fun c t => endMeas c 3 t)
        (started d s)))) ∧
  (∀ (d : Desc) (s : State), whenTdcRelease d s → 
    exec (.tdcRelease d) s = .next (complete 0x0805 d ST_OK false 0 0 0 (forAll (codesOf (started d s) d) freeMeas (started d s)))) ∧
  (∀ (d : Desc) (s : State), whenTdcStrip d s → 
    exec (.tdcStrip d) s = .next (complete 0x0806 d ST_OK false 0 0 0 (tdcStripAct d (started d s)).after))

/-- The CAP commands take effect: each row named here, on the state and operands its condition names, ends in the state that its own effect gives. -/
def Obligations.CaptureCommandsTakeEffect : Prop :=
  (∀ (d : Desc) (s : State), whenCapConfig d s → 
    exec (.capConfig d) s = .next (complete 0x0701 d ST_OK false 0 0 0 (capConfigAct d (started d s)).after)) ∧
  (∀ (d : Desc) (s : State), whenCapTrigset d s → 
    exec (.capTrigset d) s = .next (complete 0x0702 d ST_OK false 0 0 0 (capTrigsetAct d (started d s)).after)) ∧
  (∀ (d : Desc) (s : State), whenCapBus d s → 
    exec (.capBus d) s = .next (complete 0x0703 d ST_OK false 0 0 0 ((started d s).wImg .TB_SRC 0 d.a1 d.a0))) ∧
  (∀ (d : Desc) (s : State), whenCapArm d s → 
    exec (.capArm d) s = .next (complete 0x0704 d ST_OK false 0 0 0 (armAcq d.a0 (armArgsOf d s) (started d s)))) ∧
  (∀ (d : Desc) (s : State), whenCapTrig d s → 
    exec (.capTrig d) s = .next (complete 0x0705 d ST_OK false 0 0 0 ((started d s).onAcq d.a0
        (fun a => { a with softAt := a.softAt ++ [s.now + 32] })))) ∧
  (∀ (d : Desc) (s : State), whenCapDisarm d s → 
    exec (.capDisarm d) s = .next (complete 0x0706 d ST_OK false 0 0 0 (if s.acqBusy d.a0 then (started d s).onAcq d.a0 (fun a =>
      { a with disarmAt := some (min (s.now + 32) (a.disarmAt.getD (s.now + 32))) }) else started d s))) ∧
  (∀ (d : Desc) (s : State), whenCapClear d s → 
    exec (.capClear d) s = .next (complete 0x0707 d ST_OK false 0 0 0 (forAll (chansIn (s.chanMask d d.a0)) clearFails
        (started d s)))) ∧
  (∀ (d : Desc) (s : State), whenCapFirstfail d s → 
    exec (.capFirstfail d) s = .next (complete 0x0708 d ST_OK false 0 0 0 ((started d s).winStore d.path d.a1
      ((chansIn (s.chanMask d d.a0)).flatMap (fun c => bytesOf 32 (s.ch c).firstFail)))))

/-- Enabling, ringing, draining and consuming mailboxes and rings takes effect: each row named here, on the state and operands its condition names, ends in the state that its own effect gives. -/
def Obligations.MailboxAndRingWritesTakeEffect : Prop :=
  (∀ (mb : Fin 64) (cfg v : Nat) (s : State), whenMbEnable mb cfg v s → 
    exec (.mbEnable mb cfg) s = .next (mirrorMb mb
        ({ ((((mbFields mb v s).w .MB_PROD_COUNT mb 0).w .MB_CONS_COUNT mb 0).w .MB_CPL_PROD_COUNT mb 0).w .MB_CPL_CONS_COUNT mb 0 with
      mbox := { s.mbox with doors := tset [] s.mbox.doors mb [] } }.setF .MB_CFG_EN mb))) ∧
  (∀ (mb : Fin 64) (s : State), whenMbDisable mb s → 
    exec (.mbDisable mb) s = .next (drained mb { s with mbox := { s.mbox with draining := s.mbox.draining ++ [mb.val] } })) ∧
  (∀ (path : Path) (mb : Fin 64) (v : Nat) (s : State), whenMbDb path mb v s → 
    exec (.mbDb path mb v) s = .next
        (mirrorMb mb { s.w .MB_PROD_COUNT mb v with mbox := { s.mbox with doors := tset [] s.mbox.doors mb (tget [] s.mbox.doors mb ++ [(v, path)]) } })) ∧
  (∀ (mb : Fin 64) (v : Nat) (s : State), whenMbCplConsWrite mb v s → 
    exec (.mbCplConsWrite mb v) s = .next (mirrorMb mb (s.w .MB_CPL_CONS_COUNT mb v))) ∧
  (∀ (cfg : Nat) (s : State), whenEvrEnable cfg s → 
    exec (.evrEnable cfg) s = .next ((((s.wImg .EVR_CFG 0
        (cfg + 2 ^ 31)).w .EVR_CFG_EN 0 1).w .EVR_PROD_COUNT 0 0).w .EVR_CONS_COUNT 0 0)) ∧
  (∀ (v : Nat) (s : State), whenEvrConsWrite v s → 
    exec (.evrConsWrite v) s = .next (s.w .EVR_CONS_COUNT 0 v)) ∧
  (∀ (g : Fin 32) (v : Nat) (s : State), whenCuStailWrite g v s → 
    exec (.cuStailWrite g v) s = .next (s.w .CU_STAIL_TAIL g v)) ∧
  (∀ (v : Nat) (s : State), whenResConsWrite v s → 
    exec (.resConsWrite v) s = .next
        ({ (s.w .RES_CONS_COUNT 0 v).w .SEC_STATE_RING_FULL 0 0 with sec := { s.sec with ringFullRaised := false } })) ∧
  (∀ (v : Nat) (s : State), whenTwMresConsWrite v s → 
    exec (.twMresConsWrite v) s = .next (s.w .TW_MRES_CONS_COUNT 0 v)) ∧
  (∀ (c : Fin 8) (quota : Bool) (v : Nat) (s : State), whenDuQuotaWrite c quota v s → 
    exec (.duQuotaWrite c quota v) s = .next (readmit (if quota then s.wImg .DU_QUOTA 0 v c else s.wImg .DU_CLASS 0 v c))) ∧
  (∀ (path : Path) (off : Nat) (x : Csr) (s : State), whenRcRead path off x s → 
    exec (.rcRead path off) s = .next (keepRead path off (csrRead path off 4 s))) ∧
  (∀ (path : Path) (off : Nat) (x : Csr) (s : State), whenLatchedPairRead path off x s → 
    exec (.latchedPairRead path off) s = .next (keepRead path off (csrRead path off 4 s))) ∧
  (∀ (path : Path) (off v : Nat) (x : Csr) (s : State), whenRegisterWrite path off v x s → 
    exec (.registerWrite path off false v) s = .next (regWrite path x.reg x.unit x.idx (v % 2 ^ 32) s))

/-- Taking a descriptor and the SYS and COAT commands take effect: each row named here, on the state and operands its condition names, ends in the state that its own effect gives. -/
def Obligations.CommandsOfSysAndCoatsTakeEffect : Prop :=
  (∀ (mb : Fin 64) (s : State), whenDescriptorTake mb s → 
    exec (.descriptorTake mb) s = .next (takeDesc mb s)) ∧
  (∀ (d : Desc) (cmd : Nat) (s : State), whenUnsupportedCommand d cmd s → 
    exec (.unsupportedCommand d cmd) s = .next (complete cmd d ST_UNSUPPORTED false 0 0 0 (started d s))) ∧
  (∀ (d : Desc) (s : State), whenSysInfo d s → 
    exec (.sysInfo d) s = .next (complete 0x0101 d ST_OK false 0 0 0 ((started d s).winStore d.path d.a0
      (bytesOf 64 (if (started d s).taken' d.mb then s.twin.ident else (started d s).identity))))) ∧
  (∀ (d : Desc) (s : State), whenSysNop d s → 
    exec (.sysNop d) s = .next (complete 0x0102 d ST_OK false d.a0 0 0 (started d s))) ∧
  (∀ (d : Desc) (s : State), whenCoatLoad d s → 
    exec (.coatLoad d) s = .next (match coatCheck (loadAt d) (started d s) with
      | .ok t => complete 0x0201 d ST_OK false 0 0 0 (applyBase (loadAt d) ((started d s).coatHdr (loadAt d)) t)
      | .error (st, i, own) => complete 0x0201 d st false i own 0 (started d s))) ∧
  (∀ (d : Desc) (s : State), whenCoatApply d s → 
    exec (.coatApply d) s = .next (match coatCheck (applyAt d) (started d s) with
      | .ok t => complete 0x0202 d ST_OK false 0 0 0 (applySkim (applyAt d) ((started d s).coatHdr (applyAt d)) t)
      | .error (st, i, own) =>
      if d.a1 = 1 && st = ST_STATE && !((started d s).touches (applyAt d)).isEmpty then
      (if 4 ≤ s.mbox.waits.length then complete 0x0202 d ST_BUSY false 0 0 0 (started d s)
      else complete 0x0202 d ST_DEFERRED true 0 0 0
          (freeCmd d { started d s with mbox := { (started d s).mbox with waits := s.mbox.waits ++
      [{ d := d, touched := maskOf ((started d s).touches (applyAt d)), deadline := s.now + 1000000 * d.a2 }] } }))
      else complete 0x0202 d st false i own 0 (started d s))) ∧
  (∀ (k : Nat) (w : CoatWait) (s : State), whenCoatWaitTimeout k w s → 
    exec (.coatWaitTimeout k) s = .next
        (complete 0x0202 w.d ST_TIMEOUT false 0 0 0 { s with mbox := { s.mbox with waits := s.mbox.waits.filter (· != w) } })) ∧
  (∀ (d : Desc) (s : State), whenCoatList d s → 
    exec (.coatList d) s = .next (complete 0x0203 d ST_OK false 0 0 0 ((started d s).winStore d.path d.a0 (started d s).coatBlock)))

/-- Placing, judging, triggering and recording take effect: each row named here, on the state and operands its condition names, ends in the state that its own effect gives. -/
def Obligations.JudgementTakesEffect : Prop :=
  (∀ (c : Fin 1024) (sig : Sig) (p : Nat) (s : State), whenEdgePlacement c sig p s → 
    exec (.edgePlacement c sig) s = .next (placeEdge p c sig s)) ∧
  (∀ (c : Fin 1024) (cmh cml : Wave) (p : Nat) (s : State), whenStrobeSample c cmh cml p s → 
    exec (.strobeSample c cmh cml) s = .next (takeStrobe p c cmh cml s)) ∧
  (∀ (c : Fin 1024) (p : Nat) (s : State), whenJudgementResolve c p s → 
    exec (.judgementResolve c) s = .next (resolve p c s)) ∧
  (∀ (p : Fin 32) (c : Nat) (s : State), whenDisarmEnd p c s → 
    exec (.disarmEnd p) s = .next (if s.acqBusy p then endAcq p 32 s else s.onAcq p (fun a => { a with disarmAt := none }))) ∧
  (∀ (p : Fin 32) (s : State), 
    exec (.evaluation p) s = .next (evaluate p s)) ∧
  (∀ (p : Fin 32) (s : State), whenTriggerTimeout p s → 
    exec (.triggerTimeout p) s = .next (trigTimeout p s)) ∧
  (∀ (n : Fin 32) (s : State), 
    exec (.busLineEnd n) s = .next ({ s with lines := tset [] s.lines n.val ((tget [] s.lines n).filter (fun q => s.now < q.2)) })) ∧
  (∀ (p : Fin 32) (s : State), whenAcquisitionOpen p s → 
    exec (.acquisitionOpen p) s = .next ((tryOpen p (s.pt p).evalNext s).1)) ∧
  (∀ (p : Fin 32) (s : State), whenRearm p s → 
    exec (.rearm p) s = .next (tryRearm p s)) ∧
  (∀ (g : Fin 32) (p : Nat) (s : State), whenRecordRelease g p s → 
    exec (.recordRelease g) s = .next (tryClose p (release p g s))) ∧
  (∀ (n : Fin 8) (rising : Bool) (tPs durPs : Nat) (s t : State), whenXtrigEdge n rising tPs durPs s t → 
    exec (.xtrigEdge n rising tPs durPs) s = .next (if rising = (s.r .XT_CFG_POL).testBit n then t else xtrigAccept n tPs t)) ∧
  (∀ (d : Desc) (s : State), whenChPark d s → 
    exec (.chPark d) s = .next (complete 0x0302 d ST_OK false 0 0 0 (settle (parkChans 4 (chansIn ((started d s).chanMask d d.a0))
        (started d s))))) ∧
  (∀ (lowNs : Nat) (s : State), whenParkNAssert lowNs s → 
    exec (.parkNAssert lowNs) s = .next (settle (parkAll 2 { s with pwr := { s.pwr with parkNLow := true } }))) ∧
  (∀ (highNs : Nat) (s : State), 
    exec (.parkNRelease highNs) s = .next ({ s with pwr := { s.pwr with parkNLow := false, parkNRel := s.now + (1000 - highNs) } })) ∧
  (∀ (p g : Fin 32) (h : Nat) (a : Absent) (r : List (Nat × Absent)) (s : State), whenUnderrun p g h a r s → 
    exec (.underrun p g) s = .next (planStop p { cause := absentCause ((h, a) :: r), when' := .number a.vec } (declareAbsent p ((h,
        a) :: r) s)))

/-- Frames, words, lanes, training, transactions and the LINK commands of a link take effect: each row named here, on the state and operands its condition names, ends in the state that its own effect gives. -/
def Obligations.LinkLayerTakesEffect : Prop :=
  (∀ (lane : Fin 48) (s : State), 
    exec (.laneLockTimeout lane) s = .next (laneLost lane s)) ∧
  (∀ (port : Fin 12) (map gen : Nat) (s : State), whenRestripe port map gen s → 
    exec (.restripe port map gen) s = .next (adoptMap port (map % 16) (gen % 16) s)) ∧
  (∀ (port : Fin 12) (map gen : Nat) (s : State), whenRestripeAck port map gen s → 
    exec (.restripeAck port map gen) s = .next (dropWord port 3 (s.onLp port
        (fun x => { x with pend := none, oldGen := false, genRx := gen % 16 })))) ∧
  (∀ (lane : Fin 48) (pre post : Nat) (s : State), whenLaneTrainDone lane pre post s → 
    exec (.laneTrainDone lane pre post) s = .next ((setLane lane LSOAK (setFir lane pre post s)).onLn lane
        (fun x => { x with soakAt := s.now, soakFail := false }))) ∧
  (∀ (lane : Fin 48) (pass : Bool) (s : State), whenSoak lane pass s → 
    exec (.soak lane pass) s = .next (s.onLn lane (fun x => { x with soakFail := x.soakFail || !pass }))) ∧
  (∀ (lane : Fin 48) (uncorrectable serHigh : Bool) (s : State), whenSoakEnd lane uncorrectable serHigh s → 
    exec (.soakEnd lane uncorrectable serHigh) s = .next (soakDone lane uncorrectable serHigh s)) ∧
  (∀ (port : Fin 12) (counts : List (Nat × Nat)) (i : Nat) (s : State), whenSlowLaneCheck port counts i s → 
    exec (.slowLaneCheck port counts) s = .next (laneDropped (4 * port + i) s)) ∧
  (∀ (port : Fin 12) (f : Frame) (s : State), 
    exec (.frameReceive port f) s = .next (frameIn port f s)) ∧
  (∀ (port : Fin 12) (fseq : Nat) (s : State), whenNak port fseq s → 
    exec (.nak port fseq) s = .next (replayAll port (ackBefore port (fseq % 4096) s))) ∧
  (∀ (port : Fin 12) (s : State), whenAckTimeout port s → 
    exec (.ackTimeout port) s = .next (replayAll port s)) ∧
  (∀ (port : Fin 12) (s : State), whenAckSendTimer port s → 
    exec (.ackSendTimer port) s = .next (s.onLp port (fun x => { x.wake with rxUnacked := 0 }))) ∧
  (∀ (port : Fin 12) (kind count : Nat) (s : State), whenCredit port kind count s → 
    exec (.credit port kind count) s = .next ((s.onLp port
        (fun x => if kind = 0 then { x with crHdr := raised x.crHdr 128 count } else if kind =
        1 then { x with crData := raised x.crData 512 count }
      else { x with crNp := raised x.crNp 256 count })).pump port)) ∧
  (∀ (port : Fin 12) (k : Pkt) (r : List Pkt) (s : State), whenCreditStall port k r s → 
    exec (.creditStall port) s = .next (event EV_LINK_STALL [(4, port.val)] (s.onLp port (fun y => { y with stalled := true })))) ∧
  (∀ (lane : Fin 48) (tag : Nat) (line : List Byte) (uncorrectable commaMissed marker : Bool) (s : State),
      whenCodewordReceive lane tag line uncorrectable commaMissed marker s → 
    exec (.codewordReceive lane tag line uncorrectable commaMissed marker) s = .next
        (codewordIn lane tag line uncorrectable commaMissed marker s)) ∧
  (∀ (port : Fin 12) (s : State), whenSignalDetect port s → 
    exec (.signalDetect port) s = .next (setPhase port PHANDSHAKE (s.setF .LK_STATE_SIGDET port))) ∧
  (∀ (port : Fin 12) (lanes : Nat) (s t : State), whenSignalLoss port lanes s t → 
    exec (.signalLoss port lanes) s = .next (failAttempt port CUNPLUGGED t)) ∧
  (∀ (port : Fin 12) (cap : Capability) (s : State), whenCapabilityBlock port cap s → 
    exec (.capabilityBlock port cap) s = .next (capabilityIn port cap s)) ∧
  (∀ (port : Fin 12) (fir : List (Nat × Nat)) (s : State), whenEqualizeDone port fir s → 
    exec (.equalizeDone port fir) s = .next (setPhase port PALIGN (forAll (upTo 4) (fun i t => setFir (4 * port + i) (fir.getD i (0,
        0)).1 (fir.getD i (0, 0)).2 t) s))) ∧
  (∀ (port : Fin 12) (s : State), whenAlignDone port s → 
    exec (.alignDone port) s = .next (portUp port s)) ∧
  (∀ (port : Fin 12) (s : State), whenTrainingTimeout port s → 
    exec (.trainingTimeout port) s = .next (failAttempt port CABSENT s)) ∧
  (∀ (port : Fin 12) (s : State), whenBackoffEnd port s → 
    exec (.backoffEnd port) s = .next (startAttempt port (s.r .LK_STATE_ATTEMPT port + 1) s)) ∧
  (∀ (port : Fin 12) (s : State), whenIdleDelayTimeout port s → 
    exec (.idleDelayTimeout port) s = .next (idleWord port 5 (s.onLp port (fun x => { x with idleSent := true })))) ∧
  (∀ (port : Fin 12) (s : State), whenIdleReq port s → 
    exec (.idleReq port) s = .next (goIdle port s)) ∧
  (∀ (port : Fin 12) (s : State), whenIdleAck port s → 
    exec (.idleAck port) s = .next (goIdle port s)) ∧
  (∀ (port : Fin 12) (s : State), whenIdleNak port s → 
    exec (.idleNak port) s = .next (dropWord port 5 (s.onLp port (fun x => { x with idleSent := false, lastData := s.now })))) ∧
  (∀ (port : Fin 12) (s : State), whenExitBurst port s → 
    exec (.exitBurst port) s = .next ((((forAll (maskBits 4 (s.r .LK_STATE_LMAP port)) (fun i t => t.onLn (4 * port + i)
        (fun x => { x with cw := 0, commaMiss := 0, scr := 2 ^ 58 - 1 }))
      (dropIdle port s)).w .LK_STATE_STATE port PUP).onLp port
          (fun x => { x with phase := PUP, lastData := s.now, cwNext := none, cwHold := [] })).pump port)) ∧
  (∀ (port : Fin 12) (s : State), whenWakeTx port s → 
    exec (.wakeTx port) s = .next (s.onLp port (fun x => { x.wake with lastData := s.now }))) ∧
  (∀ (d : Desc) (s : State), whenLinkConfig d s → 
    exec (.linkConfig d) s = .next (complete 0x0B01 d ST_OK false 0 0 0 (linkConfigAct d (started d s)).after)) ∧
  (∀ (d : Desc) (s : State), whenLinkEnable d s → 
    exec (.linkEnable d) s = .next (complete 0x0B02 d ST_OK false 0 0 0 (forAll (maskBits 12 d.a0) enablePort (started d s)))) ∧
  (∀ (d : Desc) (s : State), whenLinkDisable d s → 
    exec (.linkDisable d) s = .next (complete 0x0B03 d ST_OK false 0 0 0 (forAll (maskBits 12 d.a0) (fun n t => shutPort n POFF t)
        (started d s)))) ∧
  (∀ (d : Desc) (s : State), whenLinkLane d s → 
    exec (.linkLane d) s = .next (complete 0x0B04 d ST_OK false 0 0 0 (if d.a2 = 0 then excludeLane d.a0 d.a1
        (started d s) else includeLane d.a0 d.a1 (started d s)))) ∧
  (∀ (d : Desc) (s : State), whenLinkAperture d s → 
    exec (.linkAperture d) s = .next (complete 0x0B05 d ST_OK false 0 0 0 ((started d s).w .LK_APER_APBASE d.a0 d.a1))) ∧
  (∀ (d : Desc) (s : State), whenLinkStatus d s → 
    exec (.linkStatus d) s = .next (complete 0x0B06 d ST_OK false 0 0 0 ((started d s).winStore d.path d.a1
        (((started d s).linkWords d.a0).flatMap (bytesOf 4)))))

/-- Every microword runs its operation and then ends its word: each row named here, on the state and operands its condition names, ends in the state that its own effect gives. -/
def Obligations.MicrowordsRun : Prop :=
  (∀ (g : Fin 32) (w : Micro) (s : State), whenNop g w s → 
    exec (.nop g w) s = .next (wordRest g w false none (shadow g (fetched g s)))) ∧
  (∀ (g : Fin 32) (w : Micro) (s : State), whenMov g w s → 
    exec (.mov g w) s = .next (wordRest g w false none (setReg g w.dst ((shadow g (fetched g s)).uReg g w.src) (shadow g
        (fetched g s))))) ∧
  (∀ (g : Fin 32) (w : Micro) (s : State), whenLdi g w s → 
    exec (.ldi g w) s = .next (wordRest g w false none (setReg g w.dst (w.imm % 256) (shadow g (fetched g s))))) ∧
  (∀ (g : Fin 32) (w : Micro) (s : State), whenAdd g w s → 
    exec (.add g w) s = .next (wordRest g w false none (aluOp g w true ((aluAdd ((shadow g (fetched g s)).uReg g w.dst) ((shadow g
        (fetched g s)).uReg g w.src)).val) (some (aluAdd ((shadow g (fetched g s)).uReg g w.dst) ((shadow g
        (fetched g s)).uReg g w.src)).c) (shadow g (fetched g s))))) ∧
  (∀ (g : Fin 32) (w : Micro) (s : State), whenAddi g w s → 
    exec (.addi g w) s = .next (wordRest g w false none (aluOp g w true ((aluAdd ((shadow g (fetched g s)).uReg g w.dst)
        (immS w)).val) (some (aluAdd ((shadow g (fetched g s)).uReg g w.dst) (immS w)).c) (shadow g (fetched g s))))) ∧
  (∀ (g : Fin 32) (w : Micro) (s : State), whenSub g w s → 
    exec (.sub g w) s = .next (wordRest g w false none (aluOp g w true ((aluSub ((shadow g (fetched g s)).uReg g w.dst) ((shadow g
        (fetched g s)).uReg g w.src)).val) (some !(aluSub ((shadow g (fetched g s)).uReg g w.dst) ((shadow g
        (fetched g s)).uReg g w.src)).c) (shadow g (fetched g s))))) ∧
  (∀ (g : Fin 32) (w : Micro) (s : State), whenAnd g w s → 
    exec (.and g w) s = .next (wordRest g w false none (aluOp g w true ((shadow g (fetched g s)).uReg g w.dst &&& (shadow g
        (fetched g s)).uReg g w.src) (none) (shadow g (fetched g s))))) ∧
  (∀ (g : Fin 32) (w : Micro) (s : State), whenOr g w s → 
    exec (.or g w) s = .next (wordRest g w false none (aluOp g w true ((shadow g (fetched g s)).uReg g w.dst ||| (shadow g
        (fetched g s)).uReg g w.src) (none) (shadow g (fetched g s))))) ∧
  (∀ (g : Fin 32) (w : Micro) (s : State), whenXor g w s → 
    exec (.xor g w) s = .next (wordRest g w false none (aluOp g w true ((shadow g (fetched g s)).uReg g w.dst ^^^ (shadow g
        (fetched g s)).uReg g w.src) (none) (shadow g (fetched g s))))) ∧
  (∀ (g : Fin 32) (w : Micro) (s : State), whenShl g w s → 
    exec (.shl g w) s = .next (wordRest g w false none (aluOp g w true (((shadow g (fetched g s)).uReg g w.dst * 2 ^
        (w.imm % 32)) % 2 ^ 32) (none) (shadow g (fetched g s))))) ∧
  (∀ (g : Fin 32) (w : Micro) (s : State), whenShr g w s → 
    exec (.shr g w) s = .next (wordRest g w false none (aluOp g w true ((shadow g (fetched g s)).uReg g w.dst / 2 ^ (w.imm % 32))
        (none) (shadow g (fetched g s))))) ∧
  (∀ (g : Fin 32) (w : Micro) (s : State), whenCmp g w s → 
    exec (.cmp g w) s = .next (wordRest g w false none (aluOp g w false ((aluSub ((shadow g (fetched g s)).uReg g w.dst) ((shadow g
        (fetched g s)).uReg g w.src)).val) (some !(aluSub ((shadow g (fetched g s)).uReg g w.dst) ((shadow g
        (fetched g s)).uReg g w.src)).c) (shadow g (fetched g s))))) ∧
  (∀ (g : Fin 32) (w : Micro) (s : State), whenCmpi g w s → 
    exec (.cmpi g w) s = .next (wordRest g w false none (aluOp g w false ((aluSub ((shadow g (fetched g s)).uReg g w.dst)
        (immS w)).val) (some !(aluSub ((shadow g (fetched g s)).uReg g w.dst) (immS w)).c) (shadow g (fetched g s))))) ∧
  (∀ (g : Fin 32) (w : Micro) (s : State), whenLdent g w s → 
    exec (.ldent g w) s = .next (wordRest g w false none (ldentOp g w (shadow g (fetched g s))))) ∧
  (∀ (g : Fin 32) (w : Micro) (s : State), whenFld g w s → 
    exec (.fld g w) s = .next (wordRest g w false none (fldOp g w (shadow g (fetched g s))))) ∧
  (∀ (g : Fin 32) (w : Micro) (s : State), whenIssue g w s → 
    exec (.issue g w) s = .next (wordRest g w false none (issueOp g w (shadow g (fetched g s))))) ∧
  (∀ (g : Fin 32) (w : Micro) (s : State), whenPush g w s → 
    exec (.push g w) s = .next (wordRest g w false none (pushOp g w (shadow g (fetched g s))))) ∧
  (∀ (g : Fin 32) (w : Micro) (s : State), whenPop g w s → 
    exec (.pop g w) s = .next (wordRest g w false none (popOp g w (shadow g (fetched g s))))) ∧
  (∀ (g : Fin 32) (w : Micro) (s : State), whenTopw g w s → 
    exec (.topw g w) s = .next (wordRest g w false none (topwOp g w (shadow g (fetched g s))))) ∧
  (∀ (g : Fin 32) (w : Micro) (s : State), whenLdins g w s → 
    exec (.ldins g w) s = .next (wordRest g w false none (ldinsOp g w (shadow g (fetched g s))))) ∧
  (∀ (g : Fin 32) (w : Micro) (s : State), whenSetf g w s → 
    exec (.setf g w) s = .next (wordRest g w false none (setfOp g w (shadow g (fetched g s))))) ∧
  (∀ (g : Fin 32) (w : Micro) (s : State), whenClrl g w s → 
    exec (.clrl g w) s = .next (wordRest g w false none (clrlOp g w (shadow g (fetched g s))))) ∧
  (∀ (g : Fin 32) (w : Micro) (s : State), whenArmc g w s → 
    exec (.armc g w) s = .next (wordRest g w false none (armcOp g w (shadow g (fetched g s))))) ∧
  (∀ (g : Fin 32) (w : Micro) (s : State), whenPndg g w s → 
    exec (.pndg g w) s = .next (wordRest g w false none (pndgOp g w (shadow g (fetched g s))))) ∧
  (∀ (g : Fin 32) (w : Micro) (s : State), whenSetstop g w s → 
    exec (.setstop g w) s = .next (wordRest g w false none (setstopOp g w (shadow g (fetched g s))))) ∧
  (∀ (g : Fin 32) (w : Micro) (s : State), whenPost g w s → 
    exec (.post g w) s = .next (wordRest g w false none (postOp g w (shadow g (fetched g s))))) ∧
  (∀ (g : Fin 32) (w : Micro) (s : State), whenCsrr g w s → 
    exec (.csrr g w) s = .next (wordRest g w false none (csrrOp g w (shadow g (fetched g s))))) ∧
  (∀ (g : Fin 32) (w : Micro) (s : State), whenCsrw g w s → 
    exec (.csrw g w) s = .next (wordRest g w false none (csrwOp g w (shadow g (fetched g s))))) ∧
  (∀ (g : Fin 32) (w : Micro) (result : Nat) (s : State), whenTest g w result s → 
    exec (.test g w result) s = .next (wordRest g w false none (testOp g w result (shadow g (fetched g s))))) ∧
  (∀ (g : Fin 32) (w : Micro) (s : State), whenDisp g w s → 
    exec (.disp g w) s = .next (wordRest g w false (some ((shadow g (fetched g s)).nextAddr g ((w.next + ((shadow g
        (fetched g s)).uReg g w.src &&& w.imm)) % 2 ^ 14))) (shadow g (fetched g s)))) ∧
  (∀ (g : Fin 32) (w : Micro) (s : State), whenReti g w s → 
    exec (.reti g w) s = .next (wordRest g w true (some (((shadow g (fetched g s)).gp g).sq.rtn % 2 ^ 14,
        bit ((shadow g (fetched g s)).gp g).sq.rtn 14)) ((shadow g (fetched g s)).onSq g (fun x => { x with masked := false }))))

/-- Reserved opcodes, commands, interrupts and primer runs of a sequencer take effect: each row named here, on the state and operands its condition names, ends in the state that its own effect gives. -/
def Obligations.SequencerEventsTakeEffect : Prop :=
  (∀ (g : Fin 32) (w : Micro) (s : State), whenReservedOpcode g w s → 
    exec (.reservedOpcode g w) s = .next (settle (wordRest g w false none (ufault g 3 (shadow g (fetched g s)))))) ∧
  (∀ (g : Fin 32) (seg : Nat) (s : State), whenSqCmdArm g seg s → 
    exec (.sqCmdArm g seg) s = .next (raiseInt g 2 (s.onSq g (fun x => { x with cmd := 2 ^ 28 * 1 + seg % 2 ^ 20 })))) ∧
  (∀ (g : Fin 32) (s : State), whenSqCmdResume g s → 
    exec (.sqCmdResume g) s = .next (raiseInt g 2 (s.onSq g (fun x => { x with cmd := 2 ^ 28 * 2 + 0 % 2 ^ 20 })))) ∧
  (∀ (g : Fin 32) (s : State), whenSqCmdSnap g s → 
    exec (.sqCmdSnap g) s = .next (raiseInt g 2 (s.onSq g (fun x => { x with cmd := 2 ^ 28 * 3 + 0 % 2 ^ 20 })))) ∧
  (∀ (g : Fin 32) (s : State), whenInterruptTake g s → 
    exec (.interruptTake g) s = .next (if (s.r .SQ_INTP_PEND g).testBit 2 then takeInt g 2 0x3C00 (s.gp g).sq.reqCmd s
      else if (s.r .SQ_INTP_PEND g).testBit 1 then takeInt g 1 0x3C08 (s.gp g).sq.reqDone s else takeInt g 0 0x3C10
          (s.gp g).sq.reqTrace s)) ∧
  (∀ (g : Fin 32) (s : State), whenPrimerTimeout g s → 
    exec (.primerTimeout g) s = .next (event EV_PRIMER_TIMEOUT [(5, g.val)] (s.w .SQ_UCTL_URUN g 0))) ∧
  (∀ (d : Desc) (s : State), whenSeqService d s → 
    exec (.seqService d) s = .next (complete 0x060C d ST_OK false 0 0 0 (forAll (maskBits 32 d.a0) toService (started d s)))) ∧
  (∀ (d : Desc) (pkg p : List Byte) (s : State), whenSeqPrime d pkg p s → 
    exec (.seqPrime d) s = .next (if (firstBad ((started d s).primeChecks d pkg p)).isNone then
      complete 0x060B d ST_OK false 0 0 0 (forAll (maskBits 32 d.a0) (prime p (pkgRelease pkg) d.a2 d.a3) (started d s))
      else complete 0x060B d ((firstBad ((started d s).primeChecks d pkg p)).getD 0) false 0 0 0 (started d s)))

/-- CH.CONFIG and the TSET commands take effect: each row named here, on the state and operands its condition names, ends in the state that its own effect gives. -/
def Obligations.TimingAndChannelCommandsTakeEffect : Prop :=
  (∀ (d : Desc) (s : State), whenChConfig d s → 
    exec (.chConfig d) s = .next (complete 0x0301 d ST_OK false 0 0 0 (chConfigAct d (started d s)).after)) ∧
  (∀ (d : Desc) (s : State), whenTsetWrite d s → 
    exec (.tsetWrite d) s = .next (complete 0x0401 d ST_OK false 0 0 0 ((started d s).onGp d.a0 (fun x =>
      { x with tsets := tset {} x.tsets d.a1 (tsetOf (s.winN d.path d.a2 800)) })))) ∧
  (∀ (d : Desc) (s : State), whenTsetRead d s → 
    exec (.tsetRead d) s = .next (complete 0x0402 d ST_OK false 0 0 0 ((started d s).winStore d.path d.a2 (tget {}
        (s.gp d.a0).tsets d.a1).image))) ∧
  (∀ (d : Desc) (s : State), whenTsetInvalidate d s → 
    exec (.tsetInvalidate d) s = .next (complete 0x0403 d ST_OK false 0 0 0 ((started d s).onGp d.a0 (fun x =>
      { x with tsets := tset {} x.tsets d.a1 { tget {} x.tsets d.a1 with valid := false } }))))

/-- The PAT commands take effect: each row named here, on the state and operands its condition names, ends in the state that its own effect gives. -/
def Obligations.PatternCommandsTakeEffect : Prop :=
  (∀ (d : Desc) (portFail : Bool) (s : State), whenPatBind d portFail s → 
    exec (.patBind d portFail) s = .next (freeCmd d (bind d.a0 d.a1 d.a2 d.a3 d.a4
      ((upTo 256).foldl (fun t i => tset 0 t i ((started d s).loadN d.a5 (d.a6 + 16 * i) 16)) [])
      { started d s with jobs := s.jobs ++ [.bind d d.a0] }))) ∧
  (∀ (g : Fin 32) (j : Job) (s : State), whenPatBindDone g j s → 
    exec (.patBindDone g) s = .next (complete 0x0501 j.desc ST_OK false 0 0 0 { s with jobs := s.jobs.filter (· != j) })) ∧
  (∀ (d : Desc) (s : State), whenPatQuota d s → 
    exec (.patQuota d) s = .next (complete 0x0503 d ST_OK false 0 0 0 (patQuotaAct d (started d s)).after)) ∧
  (∀ (d : Desc) (s : State), whenPatRing d s → 
    exec (.patRing d) s = .next (complete 0x0504 d ST_OK false 0 0 0 (patRingAct d (started d s)).after)) ∧
  (∀ (d : Desc) (portFail : Bool) (s : State), whenPatStage d portFail s → 
    exec (.patStage d portFail) s = .next (freeCmd d
        (nextStages d.a0 { started d s with jobs := s.jobs ++ [.stageNew d d.a0 portFail] }))) ∧
  (∀ (g : Fin 32) (pf : Option Nat) (d : Desc) (x base count a sp n : Nat) (t u w s : State),
      whenPatStageDone g pf d x base count a sp n t u w s → 
    exec (.patStageDone g pf) s = .next (if 100 ≤ sp then ringStages (sp - 100) (w.jobs.length + 1) w else w)) ∧
  (∀ (g : Fin 32) (d : Desc) (x r since : Nat) (s : State), whenStageChunkTimeout g d x r since s → 
    exec (.stageChunkTimeout g) s = .next (nextStages g.val (stageEnd (.stageRing d x r since) ST_TIMEOUT 0 0 s))) ∧
  (∀ (d : Desc) (t s : State), whenPatPrepare d t s → 
    exec (.patPrepare d) s = .next (freeCmd d { t with jobs := t.jobs ++ [.prepare d d.a0] })) ∧
  (∀ (p : Fin 32) (j : Job) (s : State), whenPatPrepareDone p j s → 
    exec (.patPrepareDone p) s = .next (complete 0x0505 j.desc ST_OK false 0 0 0 (prepared p.val (dropJob j s)))) ∧
  (∀ (d : Desc) (s : State), whenPatRelease d s → 
    exec (.patRelease d) s = .next (complete 0x0506 d ST_OK false 0 0 0 (clearPrep d.a0 (unpin d.a0 (started d s))))) ∧
  (∀ (r : Fin 48) (v : Nat) (s : State), whenSrCommit r v s → 
    exec (.srCommit r v) s = .next (if (s.w .SR_HEAD_HEAD r v).r .SR_CFG_USE r == 1 then acceptRows r (s.r .SR_HEAD_HEAD r) ((v -
        (s.rg r).accepted) / 64 + 1) (s.w .SR_HEAD_HEAD r v)
      else ringStages r (s.jobs.length + 1) (s.w .SR_HEAD_HEAD r v))) ∧
  (∀ (r : Fin 48) (rows : Nat) (z : RingSrc) (s : State), whenDeepStoreRowFeed r rows z s → 
    exec (.deepStoreRowFeed r (rows + 1)) s = .next (feedRows r.val rows (fedRow r.val z s)))

/-- Sensors, supplies, resets, the start and the THM commands take effect: each row named here, on the state and operands its condition names, ends in the state that its own effect gives. -/
def Obligations.PowerTakesEffect : Prop :=
  (∀ (die hbm : List (Nat × Option Int)) (s : State), whenThermalSample die hbm s → 
    exec (.thermalSample die hbm) s = .next (settle (shutLimits (s.dieTaken die) (s.stacksTaken hbm) (throttle (dieRead
        (s.dieTaken die) (stacksRead (s.stacksTaken hbm) s)))))) ∧
  (∀ (sensor : Fin 96) (s : State), whenDieTrip sensor s → 
    exec (.dieTrip sensor) s = .next (settle (shutdown 2 sensor 0x7FFF s))) ∧
  (∀ (s : State), whenThrottleTick s → 
    exec .throttleTick s = .next (throttleStep s)) ∧
  (∀ (ack : Bool) (mv ma margin : Nat) (s : State), whenAvsTick ack mv ma margin s → 
    exec (.avsTick ack mv ma margin) s = .next (avsReading ack mv ma margin s)) ∧
  (∀ (s : State), whenPmbusTimeout s → 
    exec .pmbusTimeout s = .next (avsNack s)) ∧
  (∀ (lowNs : Nat) (s : State), whenPorstNAssert lowNs s → 
    exec (.porstNAssert lowNs) s = .next (domainReset s.recm.reload (onPwr
        (fun p => { p with porstLow := true, warmLow := false, warmFlush := false }) s))) ∧
  (∀ (s : State), whenPorstNRelease s → 
    exec .porstNRelease s = .next (beginStart (lifeAdd 0x14 0 8 4 1 (domainReset s.recm.reload s)))) ∧
  (∀ (lowNs : Nat) (t s : State), whenWarmrstNAssert lowNs t s → 
    exec (.warmrstNAssert lowNs) s = .next ((domainReset t.recm (onPwr
        (fun p => { p with warmLow := true, warmFlush := true }) t)).setF .REC_STAT_FLUSHING)) ∧
  (∀ (s : State), whenWarmrstNRelease s → 
    exec .warmrstNRelease s = .next (if s.pwr.warmFlush then onPwr (fun p => { p with warmLow := false }) s else beginStart s)) ∧
  (∀ (lowNs : Nat) (s : State), whenPwrfailNAssert lowNs s → 
    exec (.pwrfailNAssert lowNs) s = .next (onPwr (fun p => { p with dead := true, phase := 0 }) (portsOff (settle (failPark
        (lifeAdd 0x14 0 16 4 1 s)))))) ∧
  (∀ (badCopies : List Nat) (s : State), whenFlushDone badCopies s → 
    exec (.flushDone badCopies) s = .next (flushed badCopies s)) ∧
  (∀ (ptype copy : Nat) (s : State), whenXspiTimeout ptype copy s → 
    exec (.xspiTimeout ptype copy) s = .next (if s.pwr.xspiRetried.contains (ptype + 256 * copy) then onPwr
        (fun p => { p with flashFail := p.flashFail ++ [ptype + 256 * copy] }) s
      else onPwr (fun p => { p with xspiRetried := p.xspiRetried ++ [ptype + 256 * copy] }) s)) ∧
  (∀ (die : List (Nat × Option Int)) (selfTestFail : Nat) (vcmFail : Option (Fin 128 × Nat)) (td0 : CalRaw) (s : State),
      whenStartPhaseEnd die selfTestFail vcmFail td0 s → 
    exec (.startPhaseEnd die selfTestFail vcmFail td0) s = .next (if s.pwr.phase = 1 then nextPhase (bootStep 1 (checkRecords
        (fixUnits s)))
      else if s.pwr.phase = 2 then nextPhase (raiseOtp (patchStep (bootStep 3 (bootStep 2 s))))
      else if s.pwr.phase = 3 then nextPhase (primerPhase selfTestFail (sampleDue (dieRead (s.dieTaken die) s)))
      else if s.pwr.phase = 4 then nextPhase (trainVcm (vcmFail.map (fun x => (x.1.val, x.2))) s)
      else if s.pwr.phase = 5 then nextPhase (phase5 td0 s)
      else if s.pwr.phase = 6 then nextPhase (phase6 s) else phase7 s)) ∧
  (∀ (d : Desc) (s : State), whenThmConfig d s → 
    exec (.thmConfig d) s = .next (complete 0x0F01 d ST_OK false 0 0 0 (restage
        (((started d s).w .THM_CFG_TLIM 0 d.a0).w .THM_CFG_PCAP 0 d.a1)))) ∧
  (∀ (d : Desc) (s : State), whenThmRead d s → 
    exec (.thmRead d) s = .next (complete 0x0F02 d ST_OK false 0 0 0 ((started d s).winStore d.path d.a0
        ((started d s).thmWords.flatMap (bytesOf 4))))) ∧
  (∀ (d : Desc) (s : State), whenThmShutrec d s → 
    exec (.thmShutrec d) s = .next (complete 0x0F03 d ST_OK false 0 0 0 ((started d s).winStore d.path d.a0
        ((started d s).recBytes 8 0 0 64).2))) ∧
  (∀ (d : Desc) (s : State), whenSysAckShutdown d s → 
    exec (.sysAckShutdown d) s = .next (complete 0x0103 d ST_OK false 0 0 0 (setShutPend false (started d s))))

/-- Boundaries, flow instructions, vectors, starts and stops take effect: each row named here, on the state and operands its condition names, ends in the state that its own effect gives. -/
def Obligations.SequencersPlay : Prop :=
  (∀ (p : Fin 32) (b : Nat) (s : State), whenBoundary p b s → 
    exec (.boundary p) s = .next (applyFollow p b ((quieted p s).follow p b).1 ((quieted p s).follow p b).2 (quieted p s))) ∧
  (∀ (p : Fin 32) (i b : Nat) (s : State), whenLoopBegin p i b s → 
    exec (.loopBegin p) s = .next (loopBegin p i b (s.onPt p (fun x => { x with chain := x.chain + 1 })))) ∧
  (∀ (p : Fin 32) (i b : Nat) (s : State), whenLoopEnd p i b s → 
    exec (.loopEnd p) s = .next (loopEnd p i b (s.onPt p (fun x => { x with chain := x.chain + 1 })))) ∧
  (∀ (p : Fin 32) (i b : Nat) (s : State), whenCall p i b s → 
    exec (.call p) s = .next (beginSeg p (finSeg i) b ((s.onPt p (fun x => { x with chain := x.chain + 1 })).onPt p
        (fun x => { x with calls := (s.r .PT_POS_IP p + 1) :: x.calls })))) ∧
  (∀ (p : Fin 32) (i b : Nat) (s : State), whenRet p i b s → 
    exec (.ret p) s = .next (retSeg p i b (s.onPt p (fun x => { x with chain := x.chain + 1 })))) ∧
  (∀ (p : Fin 32) (i b : Nat) (s : State), whenWait p i b s → 
    exec (.wait p) s = .next (waitSeg p i b (s.onPt p (fun x => { x with chain := x.chain + 1 })))) ∧
  (∀ (p : Fin 32) (i b : Nat) (s t : State), whenSetflag p i b s t → 
    exec (.setflag p) s = .next (flowNext p (if bit i 36 then setFlags p (2 ^ finCsel i) 0 t else setFlags p 0 (2 ^ finCsel i) t))) ∧
  (∀ (p : Fin 32) (reads : List PoolRead) (l : List (Nat × VData)) (z : TSet) (t s : State), whenVectorStart p reads l z t s → 
    exec (.vectorStart p reads) s = .next (settle (vectorGo p z.len l t))) ∧
  (∀ (d : Desc) (peg seg : Option Nat) (t s : State), whenSeqStart d peg seg t s → 
    exec (.seqStart d) s = .next ({ t with jobs := t.jobs ++ [.start d] })) ∧
  (∀ (d : Desc) (s : State), whenStartDeadline d s → 
    exec (.startDeadline d) s = .next (seqStart d s)) ∧
  (∀ (p : Fin 32) (phi : Nat) (a : Armed) (t u s : State), whenStartInstant p phi a t u s → 
    exec (.startInstant p) s = .next (event EV_PITCH_START [(5, p.val), (64,
        phi)] (supply p (forAll (u.members p) (startLead p) (u.onPt p (fun x => { x with plen := (u.pMinLead p).getD 1024 })))))) ∧
  (∀ (d : Desc) (s : State), whenSeqStop d s → 
    exec (.seqStop d) s = .next (complete 0x0606 d ST_OK false 0 0 0 (if s.pstate d.a0 = ARMED then settle (abandon d.a0 0xD
        (started d s))
      else if s.pstate d.a0 = RUNNING then planStop d.a0 { cause := 0xD, when' := .vector (s.now + 32) }
          (started d s) else started d s))) ∧
  (∀ (p : Fin 32) (c b : Nat) (s : State), whenStopInstant p c b s → 
    exec (.stopInstant p) s = .next (fixStop p c s)) ∧
  (∀ (p : Fin 32) (t s : State), whenStoppingComplete p t s → 
    exec (.stoppingComplete p) s = .next (settle (finishStop p false t))) ∧
  (∀ (n : Fin 8) (t s : State), whenMarkPulseEnd n t s → 
    exec (.markPulseEnd n) s = .next ({ t with mark := tset {} t.mark n.val { tget {} t.mark n.val with active := false } })) ∧
  (∀ (src : RefSrc) (rising : Bool) (coarse : Nat) (fine : Fin 1024) (s : State), 
    exec (.refStamp src rising coarse fine) s = .next (match src with
      | .gref => if rising then settle (grefStamp (coarse * 65536 + 64 * fine.val) s) else s
      | .tdc n => settle (sourceStamp n.val rising (s.stampTime n.val coarse fine.val) coarse s))) ∧
  (∀ (p : Fin 32) (s : State), whenRefMissingTimeout p s → 
    exec (.refMissingTimeout p) s = .next (settle (declareLoss p 4 s))) ∧
  (∀ (p : Fin 32) (a : Nat) (s : State), whenHoldLimit p a s → 
    exec (.holdLimit p) s = .next (settle (parkPitch 5 4 p s))) ∧
  (∀ (s : State), whenGrefTimeout s → 
    exec .grefTimeout s = .next (settle (loseGref 4 s))) ∧
  (∀ (ppm : Int) (s : State), 
    exec (.grefFreqCheck ppm) s = .next (settle
        (if ppm.natAbs ≤ 200 then { s with guy := { s.guy with inRange := true, rangeFrom := if s.guy.inRange then s.guy.rangeFrom else s.now } }
      else loseGref (2 + (if s.guy.gref && s.grefMissing then 4 else 0)) { s with guy := { s.guy with inRange := false } })))

/-- The SEC commands and the events of the key unit take effect: each row named here, on the state and operands its condition names, ends in the state that its own effect gives. -/
def Obligations.SecurityCommandsTakeEffect : Prop :=
  (∀ (d : Desc) (s : State), whenSecQuote d s → 
    exec (.secQuote d) s = .next (request (.quote d
        (s.r .SEC_LOG_COUNT) s.sec.logHead) { started d s with jobs := s.jobs ++ [.quote d] })) ∧
  (∀ (d : Desc) (s : State), whenSecLog d s → 
    exec (.secLog d) s = .next (complete 0x0D02 d ST_OK false (s.r .SEC_LOG_COUNT) (s.r .SEC_STATE_LOG_FULL) 0
        ((started d s).winStore d.path d.a2
      (bytesOf 8 (s.logPart d.a0 d.a1).length ++ (s.logPart d.a0 d.a1).flatMap (bytesOf 64))))) ∧
  (∀ (d : Desc) (s : State), whenSecCert d s → 
    exec (.secCert d) s = .next (complete 0x0D03 d ST_OK false 0 0 0 ((started d s).winStore d.path d.a0
        ((upTo 3040).map Config.icert ++ s.skeyRecord)))) ∧
  (∀ (d : Desc) (s : State), whenSecKeystate d s → 
    exec (.secKeystate d) s = .next (complete 0x0D04 d ST_OK false 0 0 0 ((started d s).winStore d.path d.a0 (keyBlocks s)))) ∧
  (∀ (d : Desc) (s : State), whenSecOwner d s → 
    exec (.secOwner d) s = .next (if ownerSigns (started d s) d then complete 0x0D05 d ST_OK false 0 0 0 (setOwner (bits
        (s.winN d.path d.a1 128) 511 256) (bits (s.winN d.path d.a1 128) 543 512) (started d s))
      else complete 0x0D05 d ST_AUTH false 0 0 0 (started d s))) ∧
  (∀ (d : Desc) (s : State), whenSecDebug d s → 
    exec (.secDebug d) s = .next (if d.a0 = 0 then reply 0x0D06 d (debugChallenge d (started d s)).2 (debugChallenge d (started d s)).1
      else if (started d s).unlockFails ((started d s).winN d.path d.a1 128) ((started d s).winLoad d.path d.a1 128)
      ((started d s).winLoad d.path (d.a1 + 128) (blockLen ((started d s).winN d.path (d.a1 + 128) 16)))
      then complete 0x0D06 d ST_AUTH false 0 0 0 (dropChallenge (started d s))
      else complete 0x0D06 d ST_OK false 0 0 0 (raiseDebug (bits ((started d s).winN d.path d.a1 128) 519 512) (dropChallenge
          (started d s))))) ∧
  (∀ (s : State), whenChallengeExpiry s → 
    exec .challengeExpiry s = .next (dropChallenge s)) ∧
  (∀ (d : Desc) (s : State), whenSecSeal d s → 
    exec (.secSeal d) s = .next (appendAll (askSeal (some d) { started d s with jobs := s.jobs ++ [.seal d] }))) ∧
  (∀ (d : Desc) (s : State), whenSecLot d s → 
    exec (.secLot d) s = .next (appendAll
        (lotGo { started d s with jobs := s.jobs ++ [Job.lot d], sec := { s.sec with lotNext := some d.a1, lotClosed := false, lotReason := 2 + d.a0 } }))) ∧
  (∀ (d : Desc) (s : State), whenSecRing d s → 
    exec (.secRing d) s = .next (complete 0x0D09 d ST_OK false 0 0 0 (placeResults d.a0 d.a1 (started d s)))) ∧
  (∀ (r : SigFor) (rest : List SigFor) (k : Key) (s : State), whenReservationWriteDone r rest k s → 
    exec (.reservationWriteDone true) s = .next
        ((match r with | .scert .. => putIdent | _ => putKey) { k with resEnd := min (k.next + 32) (keySize k.oid) } { s with sec := { s.sec with resWrite := false } })) ∧
  (∀ (d : Desc) (count head : Nat) (rest : List SigFor) (k : Key) (s : State), whenSignatureDone d count head rest k s → 
    exec .signatureDone s = .next (kick (spend false k (quoteDone k d count head { s with sec := { s.sec with sigs := rest } })))) ∧
  (∀ (k : Key) (s : State), whenSessionKeyGenerated k s → 
    exec .sessionKeyGenerated s = .next (putKey { k with state := 2 } (lifeAdd 0x16 0 16 4 1 s))) ∧
  (∀ (t : Nat) (s : State), whenSealTimer t s → 
    exec .sealTimer s = .next (appendAll (askSeal none s)))

/-- The SEQ table, program, flag, counter, halt and marker commands take effect: each row named here, on the state and operands its condition names, ends in the state that its own effect gives. -/
def Obligations.SeqCommandsTakeEffect : Prop :=
  (∀ (d : Desc) (s : State), whenSeqLoad d s → 
    exec (.seqLoad d) s = .next
        (freeCmd d { touchPitch d.a0 (started d s) with jobs := s.jobs ++ [.load d d.a0 d.a1 d.a2 d.a3 d.a4] })) ∧
  (∀ (d : Desc) (prog : List Nat) (s : State), whenSeqProg d prog s → 
    exec (.seqProg d) s = .next (complete 0x0604 d ST_OK false 0 0 0 (loadWindow d.a0 (touchPitch d.a0 ((started d s).onPt d.a0
        (fun x => { x with prog := prog })))))) ∧
  (∀ (d : Desc) (s : State), whenSeqFlag d s → 
    exec (.seqFlag d) s = .next (complete 0x0608 d ST_OK false 0 0 0 (setFlags d.a0 d.a1 d.a2 (started d s)))) ∧
  (∀ (d : Desc) (s : State), whenSeqCounter d s → 
    exec (.seqCounter d) s = .next (complete 0x0609 d ST_OK false 0 0 0 (loadCounter d.a0 d.a1 d.a2 (started d s)))) ∧
  (∀ (d : Desc) (s : State), whenSeqHalt d s → 
    exec (.seqHalt d) s = .next (complete 0x0607 d ST_OK false 0 0 0 (planStop d.a0 { cause := 0xF, when' := .boundary (s.now + 24) }
        (started d s)))) ∧
  (∀ (d : Desc) (s : State), whenSeqMark d s → 
    exec (.seqMark d) s = .next (complete 0x060A d ST_OK false 0 0 0
        (((started d s).wImg .MK_ROUTE 0 d.a1 d.a0).wImg .MK_OFF 0 d.a2 d.a0))) ∧
  (∀ (p : Fin 32) (portFail : Bool) (d : Desc) (x sp a n base : Nat) (s t : State), whenSeqLoadDone p portFail d x sp a n base s t → 
    exec (.seqLoadDone p portFail) s = .next (complete 0x0603 d ST_OK false 0 0 0 (loadedTable p sp a n base t)))

/-- Pegs, beats, PTP and the TIME commands take effect: each row named here, on the state and operands its condition names, ends in the state that its own effect gives. -/
def Obligations.TimeTakesEffect : Prop :=
  (∀ (coarse : Nat) (fine : Fin 1024) (width64 t : Nat) (u s : State), whenGpegPulse coarse fine width64 t u s → 
    exec (.gpegPulse coarse fine width64) s = .next
        (if width64 < 32 then u.inc .GY_CNT_BADW else if width64 < 96 then reflection t u else if width64 < 192 then pegPulse t false u
      else if 256 ≤ width64 ∧ width64 < 544 then pegPulse t true u else u.inc .GY_CNT_BADW)) ∧
  (∀ (c : Nat) (s : State), whenEchoDrive c s → 
    exec .echoDrive s = .next (onGuy (fun (g : Guy) => { g with echoAt := none, echoLowAt := s.now + 16 }) s)) ∧
  (∀ (e : Nat) (s : State), whenReflectionTimeout e s → 
    exec .reflectionTimeout s = .next (missRefl s)) ∧
  (∀ (n : Nat) (s : State), whenPegWindowMiss n s → 
    exec .pegWindowMiss s = .next (missPeg n s)) ∧
  (∀ (d : Desc) (s : State), whenTimeGuycfg d s → 
    exec (.timeGuycfg d) s = .next (complete 0x0C01 d ST_OK false 0 0 0 (timeGuycfgAct d (started d s)).after)) ∧
  (∀ (d : Desc) (s : State), whenTimeAlign d s → 
    exec (.timeAlign d) s = .next (freeCmd d (onGuy (fun
        (g : Guy) => { g with align := some { d := d, deadline := (started d s).now + 1000000 * d.a0 } })
      ((started d s).setF .GY_STATUS_ALIGN_ARMED)))) ∧
  (∀ (z : Align) (s : State), whenTimeAlignTimeout z s → 
    exec .timeAlignTimeout s = .next (complete 0x0C02 z.d ST_TIMEOUT false 0 0 0 (onGuy (fun (g : Guy) => { g with align := none })
        (s.w .GY_STATUS_ALIGN_ARMED 0 0)))) ∧
  (∀ (d : Desc) (s : State), whenTimeAccept d s → 
    exec (.timeAccept d) s = .next (complete 0x0C03 d ST_OK false 0 0 0 (acceptShift d.a0 (started d s)))) ∧
  (∀ (d : Desc) (s : State), whenTimePtpcfg d s → 
    exec (.timePtpcfg d) s = .next (complete 0x0C04 d ST_OK false 0 0 0 (timePtpcfgAct d (started d s)).after)) ∧
  (∀ (d : Desc) (s : State), whenTimeSet d s → 
    exec (.timeSet d) s = .next (complete 0x0C05 d ST_OK false 0 0 0 (setTime d.a0 (started d s)))) ∧
  (∀ (d : Desc) (s : State), whenTimeRead d s → 
    exec (.timeRead d) s = .next (complete 0x0C06 d ST_OK false 0 0 0 ((started d s).winStore d.path d.a0 (bytesOf 32 (pack [(64,
        s.clk.ns), (32, s.clk.frac), (32, s.clk.epoch),
      (64, s.guy.beat), (32, (started d s).img .TM_STATUS 0), (32, (started d s).img .GY_STATUS 0)]))))) ∧
  (∀ (d : Desc) (s : State), whenTimeFwd d s → 
    exec (.timeFwd d) s = .next (complete 0x0C07 d ST_OK false 0 0 0 ((started d s).w .TM_FWD_FWD 0 d.a0))) ∧
  (∀ (port : Fin 12) (m : PtpMsg) (t s : State), whenPtp port m t s → 
    exec (.ptp port m) s = .next (ptpIn port m t)) ∧
  (∀ (s : State), whenAnnounceTimeout s → 
    exec .announceTimeout s = .next (showPorts (enterHoldover s))) ∧
  (∀ (port : Fin 12) (kind : PtpKind) (s : State), whenPtpMessageInterval port kind s → 
    exec (.ptpMessageInterval port kind) s = .next (intervalDue port kind s)) ∧
  (∀ (port : Fin 12) (s : State), whenTsqEntryTimeout port s → 
    exec (.tsqEntryTimeout port) s = .next (sendHeld port (showTsq port (s.onPp port
        (fun x => { x with tsq := x.tsq.filter (fun q => !s.tsqOld q) }))))) ∧
  (∀ (port : Fin 12) (q : Nat × PtpKind × Nat) (s : State), whenTsqHoldTimeout port q s → 
    exec (.tsqHoldTimeout port) s = .next ((s.setF .PP_STAT_TSQ_OVF port).onPp port (fun x => { x with held := none })))

/-- Pitch formation, references and timeline maps take effect: each row named here, on the state and operands its condition names, ends in the state that its own effect gives. -/
def Obligations.TimelinesTakeEffect : Prop :=
  (∀ (d : Desc) (s : State), whenSeqFollow d s → 
    exec (.seqFollow d) s = .next (complete 0x0602 d ST_OK false 0 0 0 (seqFollowAct d (started d s)).after)) ∧
  (∀ (p : Fin 32) (r : PhReg) (v : Nat) (s : State), whenPhRegisterWrite p r v s → 
    exec (.phRegisterWrite p r v) s = .next (follow p (s.phImages p (PhReg.reg r) v) s)) ∧
  (∀ (d : Desc) (s : State), whenSeqForm d s → 
    exec (.seqForm d) s = .next (reply 0x0601 d (formEnd d ((regrouped (started d s) (seqFormAct d (started d s)).after).drop 1)
        (seqFormAct d (started d s)).after).2
      (formEnd d ((regrouped (started d s) (seqFormAct d (started d s)).after).drop 1) (seqFormAct d (started d s)).after).1)) ∧
  (∀ (d : Desc) (l : List Nat) (t : Nat) (s : State), whenGroupRamp d l t s → 
    exec .groupRamp s = .next (if
        (l.drop 1).isEmpty then complete 0x0601 d ST_OK false 0 0 0 { s with jobs := s.jobs.filter (· != .ramp d l t) }
      else { s with jobs := s.jobs.filter (· != .ramp d l t) ++ [.ramp d (l.drop 1) s.now] })) ∧
  (∀ (p : Fin 32) (s : State), whenAcqTimeout p s → 
    exec (.acqTimeout p) s = .next (event EV_REF_NOLOCK [(5, p.val)] (s.w .PT_STATUS_TRK p 0))) ∧
  (∀ (s : State), whenGrefReturn s → 
    exec .grefReturn s = .next
        ({ s.setF .TM_STATUS_GREF_DISC with guy := { s.guy with gref := true, mult := false, grefAt := s.now * ETU } })) ∧
  (∀ (s : State), whenMultiplierLock s → 
    exec .multiplierLock s = .next (forAll (upTo 32) (fun p t => if (t.w .PT_STATUS_GREF_HOLD p 0).isGref p &&
        (t.w .PT_STATUS_GREF_HOLD p 0).r .PT_STATUS_TRK p == 1
      then lockTracker p (t.w .PT_STATUS_GREF_HOLD p 0) else t.w .PT_STATUS_GREF_HOLD p 0) { s with guy := { s.guy with mult := true, everLocked := true } })) ∧
  (∀ (x : CalRaw) (s : State), whenTdcx00CalDone x s → 
    exec (.tdcx00CalDone x) s = .next (calTdcx00 x (s.w .GY_STATUS_CALPEND 0 0))) ∧
  (∀ (p : Fin 32) (m : MapSeg) (s : State), whenMapSegmentPublish p m s → 
    exec (.mapSegmentPublish p) s = .next (s.onTrk p (fun k => { k with segs := (k.segs ++ [m]).filter s.segKept })))

/-- Pairing, mirroring, heartbeats and the TWIN commands take effect: each row named here, on the state and operands its condition names, ends in the state that its own effect gives. -/
def Obligations.TwinTakesEffect : Prop :=
  (∀ (d : Desc) (s : State), whenTwinPair d s → 
    exec (.twinPair d) s = .next (beginPair d (started d s))) ∧
  (∀ (d : Desc) (t : Nat) (s : State), whenTwinPairTimeout d t s → 
    exec .twinPairTimeout s = .next (pairFails ST_TIMEOUT 0 s)) ∧
  (∀ (d : Desc) (u s : State), whenTwinUnpair d u s → 
    exec (.twinUnpair d) s = .next (if u.tw = TW_UNPAIRED then complete 0x1002 d ST_OK false 0 0 0 u
      else if u.tw = TW_TAKEN_OVER then
      (if u.twin.open' = true ∨ ∃ n ∈ u.partnerMbs, u.r .MB_STAT_OUTSTANDING n ≠ 0 then complete 0x1002 d ST_STATE false 0 0 0 u
      else complete 0x1002 d ST_OK false 0 0 0 (unpair (forAll u.partnerMbs (fun n t => t.w .MB_CFG_EN n 0) u)))
      else complete 0x1002 d ST_OK false 0 0 0 (unpair (pairFails ST_STATE 0 (sendPair 0 false u))))) ∧
  (∀ (d : Desc) (s : State), whenTwinStatus d s → 
    exec (.twinStatus d) s = .next (complete 0x1003 d ST_OK false 0 0 0 ((started d s).winStore d.path d.a0 (started d s).twinBytes))) ∧
  (∀ (items : List MirrorItem) (s : State), whenMirror items s → 
    exec (.mirror items) s = .next (takeItems items s)) ∧
  (∀ (n : Nat) (s : State), whenMirrorAck n s → 
    exec (.mirrorAck n) s = .next (ackItems (min n s.twin.inFlight) s)) ∧
  (∀ (ident : Nat) (half senior : Bool) (pages : List (Nat × Nat)) (complete : Bool) (s : State),
      whenPair ident half senior pages complete s → 
    exec (.pair ident half senior pages complete) s = .next (if ident ≠ s.partnerId then pairFails ST_RANGE 1 s
      else if b2n half = s.r .TW_STATE_HALF ∨ b2n senior = s.r .TW_STATE_SENIOR then pairFails ST_RANGE 2 s
      else if pages.any (fun e => (s.mbTaken 64 ++ s.evrTaken).any (clash (pageAt e.1, 4096 * e.2))) then pairFails ST_RANGE 3 s
      else twinGo (onTwin (fun w => { w with confirmed := w.confirmed || complete, evr := pages.headD (0, 0) }) s))) ∧
  (∀ (s : State), whenSyncDone s → 
    exec .syncDone s = .next (twinGo (onTwin (fun w => { w with confirmed := true }) s))) ∧
  (∀ (s : State), whenHeartbeatSend s → 
    exec .heartbeatSend s = .next (sendBeat s)) ∧
  (∀ (seq pstate : Nat) (s : State), whenHeartbeat seq pstate s → 
    exec (.heartbeat seq pstate) s = .next (onTwin (fun w => { w with hbRx := seq % 2 ^ 32, hbAt := s.now, missed := 0 }) s)) ∧
  (∀ (s : State), whenHeartbeatMiss s → 
    exec .heartbeatMiss s = .next (faultEvent 0xC 0 suspect (onTwin (fun w => { w with missed := w.missed + 1 })
        (s.inc .TW_STATE_HB_MISS)))) ∧
  (∀ (s : State), whenFailing s → 
    exec .failing s = .next (takeover 2 s)) ∧
  (∀ (high : Bool) (t s : State), whenTwinAliveTimeout high t s → 
    exec (.twinAliveTimeout high) s = .next (if high && t.line == 2 &&
        (t.tw == TW_PAIRED || t.tw == TW_SUSPECT) then takeover 2 t else t)) ∧
  (∀ (s : State), whenTwinAliveRange s → 
    exec .twinAliveRange s = .next (sideEvent s)) ∧
  (∀ (s : State), 
    exec .twinAliveReturn s = .next (onTwin (fun w => { w with badSince := none, sideRaised := false }) (s.w .TW_STATE_LINE 0 1))) ∧
  (∀ (t : Nat) (s : State), whenSidebandTimeout t s → 
    exec .sidebandTimeout s = .next (event EV_TWIN_SIDEBAND [(2,
        s.r .TW_STATE_LINE)] (sideEvent (onTwin (fun w => { w with sideRaised := true }) s)))) ∧
  (∀ (groups : Nat) (t s : State), whenInternalFault groups t s → 
    exec (.internalFault groups) s = .next (takeRecord 2 3 0 0 (sendTwin M_FAILING (bytesOf 4 0) (onTwin
        (fun w => { w with aliveOut := 2 }) t))))

/-- Refresh, reads, writes and repair of the vector cache memory and the VCM commands take effect: each row named here, on the state and operands its condition names, ends in the state that its own effect gives. -/
def Obligations.VectorCacheTakesEffect : Prop :=
  (∀ (vp : Fin 128) (s : State), whenRefreshInterval vp s → 
    exec (.refreshInterval vp) s = .next (refreshDue vp s)) ∧
  (∀ (vp : Fin 128) (allBank : Bool) (s : State), whenRefreshIssue vp allBank s → 
    exec (.refreshIssue vp allBank) s = .next (if allBank then refreshAll vp s else refreshBank vp s)) ∧
  (∀ (a err : Nat) (s : State), whenVcmReadDone a err s → 
    exec (.vcmReadDone a err) s = .next (if s.queuedFull (a / 64) then
      (match s.vcm.reads.find? (fun r => r.gran == a / 64) with
      | some r => resupply r.grp (takeRead r false (s.inc .VP_CNT_FWD_CNT (vcmPort a)))
      | none => bulkRead (a / 64) false (s.inc .VP_CNT_FWD_CNT (vcmPort a)))
      else dramRead a err (s.pick (vcmPort a)) s)) ∧
  (∀ (vp : Fin 128) (e : WqEntry) (t s : State), whenVcmWriteDrain vp e t s → 
    exec (.vcmWriteDrain vp) s = .next ((if e.full then t.setBad 0 ((t.bad 0).filter (· != e.gran)) else t).w .VP_STAT_WQ_DEPTH vp
      ((if e.full then t.setBad 0 ((t.bad 0).filter (· != e.gran)) else t).vp vp).wq.length)) ∧
  (∀ (vp : Fin 128) (q : Retire) (rest : List Retire) (s : State), whenRowRepair vp q rest s → 
    exec (.rowRepair vp) s = .next (repairRow vp q rest s)) ∧
  (∀ (d : Desc) (s : State), whenVcmInfo d s → 
    exec (.vcmInfo d) s = .next (complete 0x0A01 d ST_OK false 0 0 0 ((started d s).winStore d.path d.a0
        (([(started d s).img .VCM_STATE 0, (started d s).img .VCM_INT 0] ++
      (upTo 4).map (fun v => (started d s).img .VS_STAT v) ++ (upTo 128).map (fun v => (started d s).img .VP_STAT v)).flatMap
          (bytesOf 4))))) ∧
  (∀ (d : Desc) (s : State), whenVcmErrlog d s → 
    exec (.vcmErrlog d) s = .next (complete 0x0A02 d ST_OK false 0 0 0 ((started d s).winStore d.path d.a0
      (bytesOf 8 (s.vcm.list.take d.a1).length ++ (s.vcm.list.take d.a1).flatMap (bytesOf 8))))) ∧
  (∀ (d : Desc) (s : State), whenVcmFill d s → 
    exec (.vcmFill d) s = .next (freeCmd d { started d s with jobs := s.jobs ++ [.fill d d.a0 d.a1 d.a2] })) ∧
  (∀ (k : Nat) (d : Desc) (a n x : Nat) (s : State), whenVcmFillDone k d a n x s → 
    exec (.vcmFillDone k) s = .next (complete 0x0A03 d ST_OK false 0 0 0 (filled a n x (dropJob (.fill d a n x) s)))) ∧
  (∀ (d : Desc) (s : State), whenVcmRetrain d s → 
    exec (.vcmRetrain d) s = .next (freeCmd d (beginRetrain d (started d s)))) ∧
  (∀ (fail : Option (Fin 128 × Nat)) (j : Job) (s : State), whenVcmRetrainDone fail j s → 
    exec (.vcmRetrainDone fail) s = .next (complete 0x0A04 j.desc (if fail.isSome then ST_FAULT else ST_OK) false 0 0 0 (trainVcm
        (fail.map (fun x => (x.1.val, x.2))) (dropJob j s)))) ∧
  (∀ (d : Desc) (s : State), whenVcmScrub d s → 
    exec (.vcmScrub d) s = .next (complete 0x0A05 d ST_OK false 0 0 0 ((started d s).w .VCM_SCRUB_EN 0 d.a0)))

/-- Posting, waking, dispatching and finishing work items takes effect: each row named here, on the state and operands its condition names, ends in the state that its own effect gives. -/
def Obligations.WorkItemsAreServed : Prop :=
  (∀ (cls producer type key payload : Nat) (held : Bool) (s : State), whenWorkItemPost cls producer type key payload held s → 
    exec (.workItemPost cls producer type key payload held) s = .next (post cls producer type key payload held s)) ∧
  (∀ (id : Nat) (s : State), whenWorkItemReady id s → 
    exec (.workItemReady id) s = .next (match s.disp.items.find? (fun x => x.id == id && x.st == .held && s.raced x.key) with
      | some x => raceCancel { s with disp := { s.disp with items := s.disp.items.filter (· != x) } }
      | none => wakeItem id s)) ∧
  (∀ (server : Fin 17) (x : Item) (t s : State), whenWorkItemDispatch server x t s → 
    exec (.workItemDispatch server) s = .next (serve server x t)) ∧
  (∀ (t s : State), whenDuLoadWindow t s → 
    exec .duLoadWindow s = .next ({ t with disp := { t.disp with busy := [], windowAt := s.now } })) ∧
  (∀ (server : Fin 17) (results : List Handler) (x : Item) (s : State), whenWorkItemDone server results x s → 
    exec (.workItemDone server results) s = .next (if server.val = 0 then freeItem 0 x (mpDone x s) else freeItem server x (runSites
        (server - 1) x results s))) ∧
  (∀ (core : Fin 16) (site : Nat) (x : Item) (f : FlowProg) (z : Site) (u t : Nat) (s : State),
      whenFlowBudgetTimer core site x f z u t s → 
    exec (.flowBudgetTimer core site) s = .next (siteFault core z 3 x s)) ∧
  (∀ (core : Fin 16) (x : Item) (f : FlowProg) (u t : Nat) (r s : State), whenFlowHangTimer core x f u t r s → 
    exec (.flowHangTimer core) s = .next (if (s.fc core).hung = some x.id then
      freeItem (1 + core) x (((s.pitchSites core x.key).foldl
          (fun t z => if z.served = some x.id then t else siteFault core z 5 x t) s).onFc core (fun y => { y with hung := none }))
      else (r.w .FC_STATE_STATE 0 3 core).onFc core
          (fun y => { y with hung := some x.id, prog := some (freshSites f), reload := some r.now }))) ∧
  (∀ (d : Desc) (s : State), whenSecFlow d s → 
    exec (.secFlow d) s = .next (if d.a1 = 0 then complete 0x0D20 d ST_OK false 0 0 0 (loadCore d.a0 none [] (started d s))
      else match firstBad (flowChecks (started d s) d) with
      | some st => complete 0x0D20 d st false 0 0 0 (started d s)
      | none => { loadCore d.a0 (some (flowProgOf (started d s) d)) ((started d s).flowImg d d.a1).pitches (started d s) with
      jobs := s.jobs ++ [.flowEntry d d.a0 s.now] })) ∧
  (∀ (core : Fin 16) (d : Desc) (t : Nat) (s : State), whenFlowEntryReturn core d t s → 
    exec (.flowEntryReturn core) s = .next
        (complete 0x0D20 d ST_OK false 0 0 0 { s.w .FC_STATE_STATE 0 1 core with jobs := s.jobs.filter (· != .flowEntry d core t) })) ∧
  (∀ (core : Fin 16) (d : Desc) (t : Nat) (s : State), whenFlowEntryTimeout core d t s → 
    exec (.flowEntryTimeout core) s = .next
        (complete 0x0D20 d ST_TIMEOUT false 0 0 0 { emptyCore core s with jobs := s.jobs.filter (· != .flowEntry d core t) }))

/-- The REC commands and the record unit's timers take effect: each row named here, on the state and operands its condition names, ends in the state that its own effect gives. -/
def Obligations.RecordCommandsTakeEffect : Prop :=
  (∀ (d : Desc) (s : State), whenRecRead d s → 
    exec (.recRead d) s = .next (if
        ((started d s).changing d.a0).1 then { ((started d s).changing d.a0).2 with jobs := s.jobs ++ [.recRead d 1 s.now] }
      else reply 0x0E01 d (recDeliver d ST_OK ((started d s).changing d.a0).2).2 (recDeliver d ST_OK
          ((started d s).changing d.a0).2).1)) ∧
  (∀ (d : Desc) (k t : Nat) (u s : State), whenRecReadRetry d k t u s → 
    exec .recReadRetry s = .next (reply 0x0E01 d (recDeliver d (if (s.changing d.a0).1 then ST_STALE else ST_OK) u).2 (recDeliver d
        (if (s.changing d.a0).1 then ST_STALE else ST_OK) u).1)) ∧
  (∀ (t : Nat) (s : State), whenCalendarCheck t s → 
    exec .calendarCheck s = .next (keyDueEvent t (calDueEvent t s))) ∧
  (∀ (d : Desc) (s : State), whenRecCalendar d s → 
    exec (.recCalendar d) s = .next (complete 0x0E03 d ST_OK false 0 0 0 (recWrite 0xB 0 (fun u => bytesOf 64 (pack [(32, u), (32, 0),
      (48, if d.a0 = 0 then d.a1 else s.calDue), (16, 0), (48, if d.a0 = 1 then d.a1 else s.keyDue)])) (started d s)))) ∧
  (∀ (d : Desc) (s : State), whenRecFlush d s → 
    exec (.recFlush d) s = .next (askFlush { started d s with jobs := s.jobs ++ [.flush d (s.rb .REC_STAT_FLUSHING)] })) ∧
  (∀ (s : State), whenFlushTimer s → 
    exec .flushTimer s = .next (askFlush s)) ∧
  (∀ (s : State), 
    exec .lifeSecond s = .next (if (lifeTick s).rb .TM_STATUS_HOLDOVER then lifeAdd 0x17 0 12 4 1 (lifeTick s) else lifeTick s)) ∧
  (∀ (mv : List (Nat × Nat)) (s : State), 
    exec (.railSample mv) s = .next (mv.foldl (fun t e => railRead t e.1 e.2) s)) ∧
  (∀ (lane : Fin 48) (bin : Nat) (s : State), whenLaneHour lane bin s → 
    exec (.laneHour lane bin) s = .next (lifeAdd 0x12 lane (8 + 4 * bin) 4 1 (s.onLn lane (fun x => { x with activeAt := s.now }))))
end

