-- ==== Sys2Proof/Laws/Tab.lean ====
section
/-! SUPPORT. Laws of sparse tables, byte memories and the register file: read after write, what a write leaves alone, and that
every write keeps the canonical form. -/

namespace Sys2Proof.Machine

variable {α : Type}

/-! ## Sparse tables -/

theorem tget_terase_self (d : α) (t : Tab α) (k : Nat) : tget d (terase t k) k = d := by
  induction t with
  | nil => rfl
  | cons e r ih =>
    obtain ⟨k', v⟩ := e
    by_cases h : k' = k
    · simpa [terase, h] using ih
    · simpa [terase, tget, h] using ih

theorem tget_terase_ne (d : α) (t : Tab α) {k j : Nat} (h : j ≠ k) : tget d (terase t k) j = tget d t j := by
  induction t with
  | nil => rfl
  | cons e r ih =>
    obtain ⟨k', v⟩ := e
    by_cases hk : k' = k
    · subst hk
      simpa [terase, tget, Ne.symm h] using ih
    · by_cases hj : k' = j
      · subst hj; simp [terase, tget, hk]
      · simpa [terase, tget, hk, hj] using ih

theorem tget_tinsert_self (d : α) (t : Tab α) (k : Nat) (v : α) (h : ∀ e ∈ t, e.1 ≠ k) : tget d (tinsert t k v) k = v := by
  induction t with
  | nil => simp [tinsert, tget]
  | cons e r ih =>
    obtain ⟨k', v'⟩ := e
    by_cases hk : k < k'
    · simp [tinsert, hk, tget]
    · have hne : k' ≠ k := h (k', v') (by simp)
      simp only [tinsert, hk, if_false, tget, hne]
      exact ih (fun e he => h e (by simp [he]))

theorem tget_tinsert_ne (d : α) (t : Tab α) {k j : Nat} (v : α) (h : j ≠ k) : tget d (tinsert t k v) j = tget d t j := by
  induction t with
  | nil => simp [tinsert, tget, Ne.symm h]
  | cons e r ih =>
    obtain ⟨k', v'⟩ := e
    by_cases hk : k < k'
    · simp [tinsert, hk, tget, Ne.symm h]
    · simp only [tinsert, hk, if_false, tget, ih]

theorem terase_ne (t : Tab α) (k : Nat) : ∀ e ∈ terase t k, e.1 ≠ k := by
  intro e he; simpa using (List.mem_filter.mp he).2

@[simp] theorem tget_tset_self [DecidableEq α] (d : α) (t : Tab α) (k : Nat) (v : α) : tget d (tset d t k v) k = v := by
  by_cases h : v = d
  · simp [tset, h, tget_terase_self]
  · simp only [tset, h, if_false]
    exact tget_tinsert_self d _ k v (terase_ne t k)

theorem tget_tset_ne [DecidableEq α] (d : α) (t : Tab α) {k j : Nat} (v : α) (h : j ≠ k) : tget d (tset d t k v) j = tget d t j := by
  by_cases hv : v = d
  · simp [tset, hv, tget_terase_ne d t h]
  · simp [tset, hv, tget_tinsert_ne d _ v h, tget_terase_ne d t h]

theorem tget_tset [DecidableEq α] (d : α) (t : Tab α) (k j : Nat) (v : α) :
    tget d (tset d t k v) j = if j = k then v else tget d t j := by
  by_cases h : j = k
  · subst h; simp
  · simp [h, tget_tset_ne d t v h]

/-- Canonical form as a statement about every pair of neighbours. -/
theorem tsorted_iff (t : Tab α) : tsorted t = true ↔ (t.map (·.1)).Pairwise (· < ·) := by
  induction t with
  | nil => simp [tsorted]
  | cons e r ih =>
    cases r with
    | nil => simp [tsorted]
    | cons f r =>
      obtain ⟨a, v⟩ := e
      obtain ⟨b, w⟩ := f
      simp only [tsorted, Bool.and_eq_true, decide_eq_true_eq, ih, List.map_cons, List.pairwise_cons, List.mem_cons]
      constructor
      · rintro ⟨hab, hb, hr⟩
        refine ⟨?_, hb, hr⟩
        rintro x (rfl | hx)
        · exact hab
        · exact lt_trans hab (hb x hx)
      · rintro ⟨ha, hb, hr⟩
        exact ⟨ha b (Or.inl rfl), hb, hr⟩

theorem keys_tinsert (t : Tab α) (k : Nat) (v : α) : ∀ x, x ∈ (tinsert t k v).map (·.1) ↔ x = k ∨ x ∈ t.map (·.1) := by
  induction t with
  | nil => simp [tinsert]
  | cons e r ih =>
    obtain ⟨k', v'⟩ := e
    intro x
    by_cases hk : k < k'
    · simp [tinsert, hk]
    · simp only [tinsert, hk, if_false, List.map_cons, List.mem_cons, ih x]; tauto

theorem tinsert_sorted (t : Tab α) (k : Nat) (v : α) (hs : (t.map (·.1)).Pairwise (· < ·)) (h : ∀ e ∈ t, e.1 ≠ k) :
    ((tinsert t k v).map (·.1)).Pairwise (· < ·) := by
  induction t with
  | nil => simp [tinsert]
  | cons e r ih =>
    obtain ⟨k', v'⟩ := e
    simp only [List.map_cons, List.pairwise_cons] at hs
    by_cases hk : k < k'
    · simp only [tinsert, hk, if_true, List.map_cons, List.pairwise_cons, List.mem_cons]
      refine ⟨?_, hs.1, hs.2⟩
      rintro x (rfl | hx)
      · exact hk
      · exact lt_trans hk (hs.1 x hx)
    · have hlt : k' < k := by have := h (k', v') (by simp); simp at this; omega
      simp only [tinsert, hk, if_false, List.map_cons, List.pairwise_cons]
      refine ⟨?_, ih hs.2 (fun e he => h e (by simp [he]))⟩
      intro x hx
      rcases (keys_tinsert r k v x).mp hx with rfl | hx
      · exact hlt
      · exact hs.1 x hx

theorem mem_tinsert {t : Tab α} {k : Nat} {v : α} {e : Nat × α} (h : e ∈ tinsert t k v) : e = (k, v) ∨ e ∈ t := by
  induction t with
  | nil => simpa [tinsert] using h
  | cons f r ih =>
    obtain ⟨k', v'⟩ := f
    by_cases hk : k < k'
    · simpa [tinsert, hk] using h
    · simp only [tinsert, hk, if_false, List.mem_cons] at h
      rcases h with rfl | h
      · exact Or.inr (by simp)
      · rcases ih h with h | h
        · exact Or.inl h
        · exact Or.inr (by simp [h])

/-- Every write keeps the canonical form. -/
theorem twf_tset [DecidableEq α] (d : α) (t : Tab α) (k : Nat) (v : α) (h : twf d t = true) : twf d (tset d t k v) = true := by
  simp only [twf, Bool.and_eq_true, tsorted_iff, List.all_eq_true, bne_iff_ne] at h ⊢
  have hs : ((terase t k).map (·.1)).Pairwise (· < ·) := h.1.sublist ((List.filter_sublist (l := t)).map _)
  have ha : ∀ e ∈ terase t k, e.2 ≠ d := fun e he => h.2 e (List.mem_filter.mp he).1
  by_cases hv : v = d
  · simp only [tset, hv, if_true]; exact ⟨hs, ha⟩
  · simp only [tset, hv, if_false]
    refine ⟨tinsert_sorted _ k v hs (terase_ne t k), fun e he => ?_⟩
    rcases mem_tinsert he with rfl | he
    · exact hv
    · exact ha e he

/-! ## Byte memories -/

namespace Mem

@[simp] theorem rd_wr_self (m : Mem) (a : Nat) (b : Byte) : (m.wr a b).rd a = b := tget_tset_self blank m a b

theorem rd_wr_ne (m : Mem) {a c : Nat} (b : Byte) (h : c ≠ a) : (m.wr a b).rd c = m.rd c := tget_tset_ne blank m b h

theorem wf_wr {m : Mem} (a : Nat) (b : Byte) (h : m.wf = true) : (m.wr a b).wf = true := twf_tset blank m a b h

theorem wf_wrs (b : List Byte) : ∀ {m : Mem} (a : Nat), m.wf = true → (m.wrs a b).wf = true := by
  induction b with
  | nil => intro m a h; exact h
  | cons x r ih => intro m a h; exact ih (a + 1) (wf_wr a x h)

theorem wf_fill (b : Byte) (n : Nat) : ∀ {m : Mem} (a : Nat), m.wf = true → (m.fill a b n).wf = true := by
  induction n with
  | zero => intro m a h; exact h
  | succ n ih => intro m a h; exact ih (a + 1) (wf_wr a b h)

/-- A store leaves every byte outside its extent alone. -/
theorem rd_wrs_out (b : List Byte) : ∀ (m : Mem) (a c : Nat), (c < a ∨ a + b.length ≤ c) → (m.wrs a b).rd c = m.rd c := by
  induction b with
  | nil => intros; rfl
  | cons x r ih =>
    intro m a c h
    rw [List.length_cons] at h
    rw [wrs, ih _ _ _ (by omega), rd_wr_ne m x (by omega)]

/-- A store puts its bytes into its extent. -/
theorem rd_wrs_in (b : List Byte) : ∀ (m : Mem) (a i : Nat), i < b.length → (m.wrs a b).rd (a + i) = b.getD i 0 := by
  induction b with
  | nil => intro m a i h; simp at h
  | cons x r ih =>
    intro m a i h
    cases i with
    | zero =>
      have := rd_wrs_out r (m.wr a x) (a + 1) a (Or.inl (Nat.lt_succ_self a))
      simpa [wrs] using this
    | succ i =>
      have := ih (m.wr a x) (a + 1) i (by simpa using h)
      rw [wrs]; simpa [Nat.add_assoc, Nat.add_comm 1 i] using this

@[simp] theorem length_rds (m : Mem) (n : Nat) : ∀ a, (m.rds a n).length = n := by
  induction n with
  | zero => intro a; rfl
  | succ n ih => intro a; simp [rds, ih]

theorem getD_rds (m : Mem) (n : Nat) : ∀ a i, i < n → (m.rds a n).getD i 0 = m.rd (a + i) := by
  induction n with
  | zero => intro a i h; omega
  | succ n ih =>
    intro a i h
    cases i with
    | zero => simp [rds]
    | succ i => simpa [rds, Nat.add_assoc, Nat.add_comm 1 i] using ih (a + 1) i (by omega)

/-- What is read back from the extent of a store is what was stored. -/
theorem rds_wrs (m : Mem) (a : Nat) (b : List Byte) : (m.wrs a b).rds a b.length = b := by
  apply List.ext_getElem (by simp)
  intro i h₁ h₂
  have := getD_rds (m.wrs a b) b.length a i h₂
  rw [rd_wrs_in b m a i h₂] at this
  simpa [List.getD_eq_getElem?_getD, h₁, h₂] using this

/-- A read of an extent that a store does not touch. -/
theorem rds_wrs_out (m : Mem) (a c n : Nat) (b : List Byte) (h : c + n ≤ a ∨ a + b.length ≤ c) : (m.wrs a b).rds c n = m.rds c n := by
  apply List.ext_getElem (by simp)
  intro i h₁ h₂
  simp only [length_rds] at h₁
  have e₁ := getD_rds (m.wrs a b) n c i h₁
  have e₂ := getD_rds m n c i h₁
  rw [rd_wrs_out b m a (c + i) (by omega)] at e₁
  simpa [List.getD_eq_getElem?_getD, h₁] using e₁.trans e₂.symm

end Mem

/-! ## Byte strings -/

@[simp] theorem length_bytesOf (n : Nat) : ∀ v, (bytesOf n v).length = n := by
  induction n with
  | zero => intro v; rfl
  | succ n ih => intro v; simp [bytesOf, ih]

/-- A number of n bytes survives being written out as bytes. -/
theorem ofBytes_bytesOf (n : Nat) : ∀ v, ofBytes (bytesOf n v) = v % 256 ^ n := by
  induction n with
  | zero => intro v; simp [bytesOf, ofBytes, Nat.mod_one]
  | succ n ih =>
    intro v
    have h : v % 256 ^ (n + 1) = v % 256 + 256 * (v / 256 % 256 ^ n) := by rw [pow_succ', Nat.mod_mul]
    simp [bytesOf, ofBytes, ih, h]

theorem rdn_wrn (m : Mem) (a n v : Nat) : (m.wrn a n v).rdn a n = v % 256 ^ n := by
  have := Mem.rds_wrs m a (bytesOf n v)
  rw [length_bytesOf] at this
  rw [Mem.rdn, Mem.wrn, this, ofBytes_bytesOf]

/-! ## The register file -/

theorem Fld.ctorIdx_inj {f g : Fld} (h : f.ctorIdx = g.ctorIdx) : f = g := by
  rw [← Fld.ofNat_ctorIdx f, ← Fld.ofNat_ctorIdx g, h]

theorem RKey.lt_trans' {a b c : RKey} (h₁ : a.lt b = true) (h₂ : b.lt c = true) : a.lt c = true := by
  simp only [RKey.lt, Bool.or_eq_true, Bool.and_eq_true, decide_eq_true_eq, beq_iff_eq] at *
  omega

theorem RKey.lt_of_not {a b : RKey} (hne : b ≠ a) (h : ¬ a.lt b = true) : b.lt a = true := by
  simp only [RKey.lt, Bool.or_eq_true, Bool.and_eq_true, decide_eq_true_eq, beq_iff_eq] at *
  by_cases hf : b.fld.ctorIdx = a.fld.ctorIdx
  · have hfe := Fld.ctorIdx_inj hf
    by_cases hu : b.unit = a.unit
    · have hi : b.idx ≠ a.idx := by
        intro hi; apply hne; cases a; cases b; simp_all
      omega
    · omega
  · omega

theorem rget_rerase_self (d : Nat) (t : Regs) (k : RKey) : rget d (rerase t k) k = d := by
  induction t with
  | nil => rfl
  | cons e r ih =>
    obtain ⟨k', v⟩ := e
    by_cases h : k' = k
    · simpa [rerase, h] using ih
    · simpa [rerase, rget, h] using ih

theorem rget_rerase_ne (d : Nat) (t : Regs) {k j : RKey} (h : j ≠ k) : rget d (rerase t k) j = rget d t j := by
  induction t with
  | nil => rfl
  | cons e r ih =>
    obtain ⟨k', v⟩ := e
    by_cases hk : k' = k
    · subst hk
      simpa [rerase, rget, Ne.symm h] using ih
    · by_cases hj : k' = j
      · subst hj; simp [rerase, rget, hk]
      · simpa [rerase, rget, hk, hj] using ih

theorem rget_rinsert_self (d : Nat) (t : Regs) (k : RKey) (v : Nat) (h : ∀ e ∈ t, e.1 ≠ k) : rget d (rinsert t k v) k = v := by
  induction t with
  | nil => simp [rinsert, rget]
  | cons e r ih =>
    obtain ⟨k', v'⟩ := e
    by_cases hk : k.lt k' = true
    · simp [rinsert, hk, rget]
    · have hne : k' ≠ k := h (k', v') (by simp)
      have e := ih (fun e he => h e (by simp [he]))
      simp [rinsert, hk, rget, hne, e]

theorem rget_rinsert_ne (d : Nat) (t : Regs) {k j : RKey} (v : Nat) (h : j ≠ k) : rget d (rinsert t k v) j = rget d t j := by
  induction t with
  | nil => simp [rinsert, rget, Ne.symm h]
  | cons e r ih =>
    obtain ⟨k', v'⟩ := e
    by_cases hk : k.lt k' = true
    · simp [rinsert, hk, rget, Ne.symm h]
    · simp [rinsert, hk, rget, ih]

theorem rerase_ne (t : Regs) (k : RKey) : ∀ e ∈ rerase t k, e.1 ≠ k := by
  intro e he; simpa using (List.mem_filter.mp he).2

@[simp] theorem rget_rset_self (d : Nat) (t : Regs) (k : RKey) (v : Nat) : rget d (rset d t k v) k = v := by
  by_cases h : v = d
  · simp [rset, h, rget_rerase_self]
  · simp only [rset, h, if_false]
    exact rget_rinsert_self d _ k v (rerase_ne t k)

theorem rget_rset_ne (d d' : Nat) (t : Regs) {k j : RKey} (v : Nat) (h : j ≠ k) : rget d (rset d' t k v) j = rget d t j := by
  by_cases hv : v = d'
  · simp [rset, hv, rget_rerase_ne d t h]
  · simp [rset, hv, rget_rinsert_ne d _ v h, rget_rerase_ne d t h]

end Sys2Proof.Machine
end

