-- ==== Sys2Proof/Laws/Keep.lean ====
section
/-! SUPPORT. What the shared operations keep: the canonical form of memories and registers, the queue and the time. -/

namespace Sys2Proof.Machine

variable {q : List Instr} {n : Nat} {s t : State}

/-- An update of a part that is neither memory, registers, queue nor time. -/
theorem Ok.same (h : s.Ok q n) (hm : t.mem = s.mem) (hr : t.regs = s.regs) (hp : t.pending = s.pending) (hn : t.now = s.now) :
    t.Ok q n := by
  obtain ⟨⟨h₁, h₂⟩, h₃, h₄⟩ := h
  exact ⟨⟨hm ▸ h₁, hr ▸ h₂⟩, hp.trans h₃, hn.trans h₄⟩

/-- A record update of other parts. -/
theorem Ok.parts {free : Nat} {chan : Tab Chan} {grp : Tab Grp} {pitch : Tab Pitch} {tdc : Tab Tdc} {meas : Tab Meas} {ring : Tab
    Ring} {lport : Tab LPort} {lane : Tab Lane} {vport : Tab VPort} {vcm : VcmAll} {guy : Guy} {clk : Clock} {ptp : Tab PtpPort}
    {mbox : Mbox} {jobs : List Job} {disp : Disp} {sec : Sec} {pwr : Pwr} {recm : RecMem} {cal : Cal} {twin : Twin} {mark : Tab
    MarkOut} {xtrig : Tab Xtrig} {lines : Tab (List (Nat × Nat))} {bus : Bus} {cyc : Cyc} (h : s.Ok q n) :
    (State.mk s.pending s.now free s.regs s.mem chan grp pitch tdc meas ring lport lane vport vcm guy clk ptp mbox jobs disp sec
    pwr recm cal twin mark xtrig lines bus cyc).Ok q n := h

theorem Ok.foldl {α : Type} {l : List α} {f : State → α → State} (h : s.Ok q n) (hf : ∀ t x, t.Ok q n → (f t x).Ok q n) :
    (l.foldl f s).Ok q n := by
  induction l generalizing s with
  | nil => exact h
  | cons a r ih => exact ih (hf s a h)

theorem forAll_ok {l : List Nat} {f : Nat → State → State} (h : s.Ok q n) (hf : ∀ k t, t.Ok q n → (f k t).Ok q n) :
    (forAll l f s).Ok q n := Ok.foldl h (fun t x ht => hf x t ht)

theorem Ok.ite {c : Prop} [Decidable c] (hs : s.Ok q n) (ht : t.Ok q n) : (if c then s else t).Ok q n := by
  split <;> assumption

/-- An outcome whose next state keeps the invariant, the queue and the time. -/
structure OutOk (q : List Instr) (n : Nat) (o : Out) : Prop where
  ok : ∀ t, o = .next t → t.Ok q n

theorem OutOk.next (h : s.Ok q n) : OutOk q n (.next s) := ⟨fun _ e => (Host.Outcome.next.inj e) ▸ h⟩

theorem Ok.snd {α : Type} {p : α × State} {a : α} (e : p = (a, t)) (h : p.2.Ok q n) : t.Ok q n := by subst e; exact h

theorem Ok.fst {α : Type} {p : State × α} {a : α} (e : p = (t, a)) (h : p.1.Ok q n) : t.Ok q n := by subst e; exact h

theorem Ok.mid {α β : Type} {p : α × State × β} {a : α} {b : β} (e : p = (a, t, b)) (h : p.2.1.Ok q n) : t.Ok q n := by
  subst e; exact h

theorem Ok.act {α : Type} {p : α × Act} {a : α} {x : Act} (e : p = (a, x)) (h : p.2.after.Ok q n) : x.after.Ok q n := by
  subst e; exact h

/-- A result whose state, if it has one, keeps the invariant. -/
structure ExcOk {ε : Type} (q : List Instr) (n : Nat) (r : Except ε State) : Prop where
  ok : ∀ t, r = .ok t → t.Ok q n

theorem ExcOk.val {ε : Type} (h : s.Ok q n) : ExcOk (ε := ε) q n (.ok s) := ⟨fun _ e => (Except.ok.inj e) ▸ h⟩
theorem ExcOk.err {ε : Type} {x : ε} : ExcOk q n (.error x : Except ε State) := ⟨fun _ e => by injection e⟩
theorem ExcOk.get {ε : Type} {r : Except ε State} (e : r = .ok t) (h : ExcOk q n r) : t.Ok q n := h.ok t e

/-- An optional state that keeps the invariant. -/
structure OptOk (q : List Instr) (n : Nat) (r : Option State) : Prop where
  ok : ∀ t, r = some t → t.Ok q n

theorem OptOk.val (h : s.Ok q n) : OptOk q n (some s) := ⟨fun _ e => (Option.some.inj e) ▸ h⟩
theorem OptOk.non : OptOk q n none := ⟨fun _ e => by injection e⟩
theorem OptOk.get {r : Option State} (e : r = some t) (h : OptOk q n r) : t.Ok q n := h.ok t e

theorem keys_rinsert (t : Regs) (k : RKey) (v : Nat) : ∀ x, x ∈ (rinsert t k v).map (·.1) ↔ x = k ∨ x ∈ t.map (·.1) := by
  induction t with
  | nil => simp [rinsert]
  | cons e r ih =>
    obtain ⟨k', v'⟩ := e
    intro x
    by_cases hk : k.lt k' = true
    · simp [rinsert, hk]
    · simp only [rinsert, hk, List.map_cons, List.mem_cons, Bool.false_eq_true, if_false, ih x]; tauto

theorem mem_rinsert {t : Regs} {k : RKey} {v : Nat} {e : RKey × Nat} (h : e ∈ rinsert t k v) : e = (k, v) ∨ e ∈ t := by
  induction t with
  | nil => simpa [rinsert] using h
  | cons f r ih =>
    obtain ⟨k', v'⟩ := f
    by_cases hk : k.lt k' = true
    · simpa [rinsert, hk] using h
    · simp only [rinsert, hk, Bool.false_eq_true, if_false, List.mem_cons] at h
      rcases h with rfl | h
      · exact Or.inr (by simp)
      · rcases ih h with h | h
        · exact Or.inl h
        · exact Or.inr (by simp [h])

theorem rinsert_sorted (t : Regs) (k : RKey) (v : Nat) (hs : (t.map (·.1)).Pairwise (fun a b => a.lt b = true)) (h : ∀ e ∈ t, e.1 ≠ k) :
    ((rinsert t k v).map (·.1)).Pairwise (fun a b => a.lt b = true) := by
  induction t with
  | nil => simp [rinsert]
  | cons e r ih =>
    obtain ⟨k', v'⟩ := e
    simp only [List.map_cons, List.pairwise_cons] at hs
    by_cases hk : k.lt k' = true
    · simp only [rinsert, hk, if_true, List.map_cons, List.pairwise_cons, List.mem_cons]
      refine ⟨?_, hs.1, hs.2⟩
      rintro x (rfl | hx)
      · exact hk
      · exact RKey.lt_trans' hk (hs.1 x hx)
    · have hlt : k'.lt k = true := RKey.lt_of_not (h (k', v') (by simp)) hk
      simp only [rinsert, hk, Bool.false_eq_true, if_false, List.map_cons, List.pairwise_cons]
      refine ⟨?_, ih hs.2 (fun e he => h e (by simp [he]))⟩
      intro x hx
      rcases (keys_rinsert r k v x).mp hx with rfl | hx
      · exact hlt
      · exact hs.1 x hx

/-- A field write keeps the register file's form. -/
theorem regsWf_rset (t : Regs) (k : RKey) (v : Nat) (h : regsWf t) :
    regsWf (rset (k.fld.resetAt k.unit k.idx) t k (v % 2 ^ k.fld.width)) := by
  have hs : ((rerase t k).map (·.1)).Pairwise (fun a b => a.lt b = true) := h.1.sublist ((List.filter_sublist (l := t)).map _)
  have ha : ∀ e ∈ rerase t k, e.2 < 2 ^ e.1.fld.width ∧ e.2 ≠ e.1.fld.resetAt e.1.unit e.1.idx :=
    fun e he => h.2 e (List.mem_filter.mp he).1
  unfold rset
  split
  · exact ⟨hs, ha⟩
  · rename_i hv
    refine ⟨rinsert_sorted _ k _ hs (rerase_ne t k), fun e he => ?_⟩
    rcases mem_rinsert he with rfl | he
    · exact ⟨Nat.mod_lt _ (by positivity), hv⟩
    · exact ha e he

theorem State.w_ok {f : Fld} {u v i : Nat} (h : s.Ok q n) : (s.w f u v i).Ok q n :=
  ⟨⟨h.1.1, regsWf_rset s.regs ⟨f, u, i⟩ v h.1.2⟩, h.2.1, h.2.2⟩

theorem State.setSpace_ok {sp : Nat} {m : Mem} (h : s.Ok q n) (hm : m.wf = true) : (s.setSpace sp m).Ok q n := by
  obtain ⟨⟨h₁, h₂⟩, h₃, h₄⟩ := h
  simp only [Mems.wf, Bool.and_eq_true] at h₁
  refine ⟨⟨?_, h₂⟩, h₃, h₄⟩
  unfold State.setSpace
  dsimp only
  split <;> simp [Mems.wf, hm, h₁]

theorem space_wf {sp : Nat} (h : s.Ok q n) : (s.space sp).wf = true := by
  have h₁ := h.1.1
  simp only [Mems.wf, Bool.and_eq_true] at h₁
  unfold State.space
  split <;> simp [h₁]

theorem State.setBad_ok {sp : Nat} {l : List Nat} (h : s.Ok q n) : (s.setBad sp l).Ok q n := by
  obtain ⟨⟨h₁, h₂⟩, h₃, h₄⟩ := h
  refine ⟨⟨?_, h₂⟩, h₃, h₄⟩
  unfold State.setBad
  dsimp only
  split <;> exact h₁

theorem State.store_ok {sp a : Nat} {b : List Byte} (h : s.Ok q n) : (s.store sp a b).Ok q n :=
  State.setBad_ok (State.setSpace_ok h (Mem.wf_wrs b a (space_wf h)))

end Sys2Proof.Machine
end

