-- ==== Sys2Proof/Laws/KeepOps.lean ====
section
/-! SUPPORT. What the shared operations keep: the canonical form of memories and registers, the queue and the time. -/

namespace Sys2Proof.Machine
variable {q : List Instr} {n : Nat}

theorem onCyc_ok {x0 : Cyc → Cyc} {x1 : State} (h1 : x1.Ok q n) : (onCyc x0 x1).Ok q n := by
  unfold onCyc
  repeat' first | with_reducible assumption | fail_if_no_progress with_reducible apply Ok.parts

theorem State.setW_ok {x0 : State} {x1 : Fld} {x2 x3 x4 : Nat} (h0 : x0.Ok q n) : (State.setW x0 x1 x2 x3 x4).Ok q n := by
  unfold State.setW
  repeat' first
    | (with_reducible first | assumption | apply State.w_ok | apply onCyc_ok)
    | (extract_lets +onlyGivenNames t; (have hs : State.Ok q n t := ?_); on_goal 1 => (clear_value t; revert t; intro u hs))
    | split

theorem State.setF_ok {x0 : State} {x1 : Fld} {x2 x3 : Nat} (h0 : x0.Ok q n) : (State.setF x0 x1 x2 x3).Ok q n := by
  unfold State.setF
  repeat' (with_reducible first | assumption | apply State.setW_ok)

theorem noteUp_ok {x0 : RKey} {x1 : Nat} {x2 : State} (h2 : x2.Ok q n) : (noteUp x0 x1 x2).Ok q n := by
  unfold noteUp
  repeat' first | (with_reducible first | assumption | apply onCyc_ok) | split

theorem State.inc_ok {x0 : State} {x1 : Fld} {x2 x3 x4 : Nat} (h0 : x0.Ok q n) : (State.inc x0 x1 x2 x3 x4).Ok q n := by
  unfold State.inc
  repeat' (with_reducible first | assumption | apply noteUp_ok | apply State.w_ok)

theorem State.hi_ok {x0 : State} {x1 : Fld} {x2 x3 : Nat} (h0 : x0.Ok q n) : (State.hi x0 x1 x2 x3).Ok q n := by
  unfold State.hi
  repeat' (with_reducible first | assumption | apply noteUp_ok | apply State.w_ok)

theorem State.onCh_ok {x0 : State} {x1 : Nat} {x2 : Chan → Chan} (h0 : x0.Ok q n) : (State.onCh x0 x1 x2).Ok q n := by
  unfold State.onCh
  repeat' first | with_reducible assumption | fail_if_no_progress with_reducible apply Ok.parts

theorem State.onGp_ok {x0 : State} {x1 : Nat} {x2 : Grp → Grp} (h0 : x0.Ok q n) : (State.onGp x0 x1 x2).Ok q n := by
  unfold State.onGp
  repeat' first | with_reducible assumption | fail_if_no_progress with_reducible apply Ok.parts

theorem State.onPt_ok {x0 : State} {x1 : Nat} {x2 : Pitch → Pitch} (h0 : x0.Ok q n) : (State.onPt x0 x1 x2).Ok q n := by
  unfold State.onPt
  repeat' first | with_reducible assumption | fail_if_no_progress with_reducible apply Ok.parts

theorem State.onTd_ok {x0 : State} {x1 : Nat} {x2 : Tdc → Tdc} (h0 : x0.Ok q n) : (State.onTd x0 x1 x2).Ok q n := by
  unfold State.onTd
  repeat' first | with_reducible assumption | fail_if_no_progress with_reducible apply Ok.parts

theorem State.onMs_ok {x0 : State} {x1 : Nat} {x2 : Meas → Meas} (h0 : x0.Ok q n) : (State.onMs x0 x1 x2).Ok q n := by
  unfold State.onMs
  repeat' first | with_reducible assumption | fail_if_no_progress with_reducible apply Ok.parts

theorem State.onRg_ok {x0 : State} {x1 : Nat} {x2 : Ring → Ring} (h0 : x0.Ok q n) : (State.onRg x0 x1 x2).Ok q n := by
  unfold State.onRg
  repeat' first | with_reducible assumption | fail_if_no_progress with_reducible apply Ok.parts

theorem State.onLp_ok {x0 : State} {x1 : Nat} {x2 : LPort → LPort} (h0 : x0.Ok q n) : (State.onLp x0 x1 x2).Ok q n := by
  unfold State.onLp
  repeat' first | with_reducible assumption | fail_if_no_progress with_reducible apply Ok.parts

theorem State.onLn_ok {x0 : State} {x1 : Nat} {x2 : Lane → Lane} (h0 : x0.Ok q n) : (State.onLn x0 x1 x2).Ok q n := by
  unfold State.onLn
  repeat' first | with_reducible assumption | fail_if_no_progress with_reducible apply Ok.parts

theorem State.onVp_ok {x0 : State} {x1 : Nat} {x2 : VPort → VPort} (h0 : x0.Ok q n) : (State.onVp x0 x1 x2).Ok q n := by
  unfold State.onVp
  repeat' first | with_reducible assumption | fail_if_no_progress with_reducible apply Ok.parts

theorem State.onPp_ok {x0 : State} {x1 : Nat} {x2 : PtpPort → PtpPort} (h0 : x0.Ok q n) : (State.onPp x0 x1 x2).Ok q n := by
  unfold State.onPp
  repeat' first | with_reducible assumption | fail_if_no_progress with_reducible apply Ok.parts

theorem State.onSq_ok {x0 : State} {x1 : Nat} {x2 : Seqr → Seqr} (h0 : x0.Ok q n) : (State.onSq x0 x1 x2).Ok q n := by
  unfold State.onSq
  repeat' (with_reducible first | assumption | apply State.onGp_ok)

theorem State.onCu_ok {x0 : State} {x1 : Nat} {x2 : CapUnit → CapUnit} (h0 : x0.Ok q n) : (State.onCu x0 x1 x2).Ok q n := by
  unfold State.onCu
  repeat' (with_reducible first | assumption | apply State.onGp_ok)

theorem State.fresh_ok {x0 : State} (h0 : x0.Ok q n) : (State.fresh x0).2.Ok q n := by
  unfold State.fresh
  repeat' first | with_reducible assumption | fail_if_no_progress with_reducible apply Ok.parts

theorem State.storeN_ok {x0 : State} {x1 x2 x3 x4 : Nat} (h0 : x0.Ok q n) : (State.storeN x0 x1 x2 x3 x4).Ok q n := by
  unfold State.storeN
  repeat' (with_reducible first | assumption | apply State.store_ok)

theorem queueBytes_ok {x0 : Nat} {x1 : List Byte} {x2 : State} (h2 : x2.Ok q n) : (queueBytes x0 x1 x2).Ok q n := by
  induction x1 generalizing x0 x2 with
  | nil =>
    unfold queueBytes
    repeat' (with_reducible first | assumption | apply ih | apply State.w_ok | apply State.onVp_ok)
  | cons b r ih =>
    unfold queueBytes
    repeat' (with_reducible first | assumption | apply ih | apply State.w_ok | apply State.onVp_ok)

theorem nrtStore_ok {x0 : Nat} {x1 : List Byte} {x2 : State} (h2 : x2.Ok q n) : (nrtStore x0 x1 x2).Ok q n := by
  unfold nrtStore
  repeat' (with_reducible first | assumption | apply queueBytes_ok | apply State.store_ok)

theorem State.winStore_ok {x0 : State} {x1 : Path} {x2 : Nat} {x3 : List Byte} (h0 : x0.Ok q n) : (State.winStore x0 x1 x2 x3).Ok q n := by
  unfold State.winStore
  repeat' first
    | (intro)
    | (with_reducible first | assumption | apply State.inc_ok | apply State.store_ok | apply State.w_ok | apply forAll_ok)
    | (extract_lets +onlyGivenNames t; (have hs : State.Ok q n t := ?_); on_goal 1 => (clear_value t; revert t; intro u hs))
    | split

theorem State.pump_ok {x0 : State} {x1 : Nat} (h0 : x0.Ok q n) : (State.pump x0 x1).Ok q n := by
  unfold State.pump
  repeat' first | (with_reducible first | assumption | apply State.onLp_ok) | split

theorem State.send_ok {x0 : State} {x1 : Nat} {x2 : Pkt} (h0 : x0.Ok q n) : (State.send x0 x1 x2).Ok q n := by
  unfold State.send
  repeat' first | (with_reducible first | assumption | apply State.inc_ok | apply State.pump_ok | apply State.onLp_ok) | split

theorem ctrlWord_ok {x0 x1 x2 : Nat} {x3 : State} (h3 : x3.Ok q n) : (ctrlWord x0 x1 x2 x3).Ok q n := by
  unfold ctrlWord
  repeat' (with_reducible first | assumption | apply State.onLp_ok)

theorem releaseCr_ok {x0 x1 x2 x3 : Nat} {x4 : State} (h4 : x4.Ok q n) : (releaseCr x0 x1 x2 x3 x4).Ok q n := by
  unfold releaseCr
  repeat' first
    | (unfold t; clear t)
    | (with_reducible first | assumption | apply State.onLp_ok | apply ctrlWord_ok)
    | (extract_lets +onlyGivenNames t; (have hs : State.Ok q n t := ?_); on_goal 1 => (clear_value t; revert t; intro u hs))
    | split

theorem event_ok {x0 : Nat} {x1 : List (Nat × Nat)} {x2 : State} (h2 : x2.Ok q n) : (event x0 x1 x2).Ok q n := by
  unfold event
  repeat' first
    | (intro)
    | (with_reducible first | assumption | apply State.storeN_ok | apply State.w_ok | apply State.send_ok | apply State.inc_ok
                            | apply forAll_ok)
    | (extract_lets +onlyGivenNames t; (have hs : State.Ok q n t := ?_); on_goal 1 => (clear_value t; revert t; intro u hs))
    | (fail_if_no_progress extract_lets +onlyGivenNames u)
    | split
    | fail_if_no_progress with_reducible apply Ok.parts

theorem State.onRec_ok {x0 : State} {x1 x2 : Nat} {x3 : RecEnt → RecEnt} (h0 : x0.Ok q n) : (State.onRec x0 x1 x2 x3).Ok q n := by
  unfold State.onRec
  repeat' first | with_reducible assumption | fail_if_no_progress with_reducible apply Ok.parts

theorem setLife_ok {x0 x1 x2 x3 x4 : Nat} {x5 : State} (h5 : x5.Ok q n) : (setLife x0 x1 x2 x3 x4 x5).Ok q n := by
  unfold setLife
  repeat' (with_reducible first | assumption | apply State.onRec_ok)

theorem lifeAdd_ok {x0 x1 x2 x3 x4 : Nat} {x5 : State} (h5 : x5.Ok q n) : (lifeAdd x0 x1 x2 x3 x4 x5).Ok q n := by
  unfold lifeAdd
  repeat' (with_reducible first | assumption | apply setLife_ok)

theorem recWrite_ok {x0 x1 : Nat} {x2 : Nat → List Byte} {x3 : State} (h3 : x3.Ok q n) : (recWrite x0 x1 x2 x3).Ok q n := by
  unfold recWrite
  repeat' (with_reducible first | assumption | apply State.onRec_ok)

theorem askFlush_ok {x0 : State} (h0 : x0.Ok q n) : (askFlush x0).Ok q n := by
  unfold askFlush
  repeat' first | (with_reducible first | assumption | apply State.setF_ok) | split

theorem setTimes_ok {x0 x1 : Nat} {x2 : List Nat} {x3 : State} (h3 : x3.Ok q n) : (setTimes x0 x1 x2 x3).Ok q n := by
  unfold setTimes
  repeat' first | with_reducible assumption | fail_if_no_progress with_reducible apply Ok.parts

theorem faultEvent_ok {x0 x1 : Nat} {x2 : State → State} {x3 : State} (h2 : ∀ a0, a0.Ok q n → (x2 a0).Ok q n) (h3 : x3.Ok q n) : (faultEvent x0 x1 x2 x3).Ok q n := by
  unfold faultEvent
  repeat' first
    | (with_reducible first | assumption | apply lifeAdd_ok | apply event_ok | apply State.setF_ok | apply askFlush_ok
                            | apply setTimes_ok | apply h2)
    | (extract_lets +onlyGivenNames t; (have hs : State.Ok q n t := ?_); on_goal 1 => (clear_value t; revert t; intro u hs))
    | (fail_if_no_progress extract_lets +onlyGivenNames u)
    | split

theorem poolFault_ok {x0 : Nat} {x1 : State} (h1 : x1.Ok q n) : (poolFault x0 x1).Ok q n := by
  unfold poolFault
  repeat' first | (intro) | (with_reducible first | assumption | apply faultEvent_ok)

theorem cuFill_ok {x0 : Nat} {x1 : State} (h1 : x1.Ok q n) : (cuFill x0 x1).Ok q n := by
  unfold cuFill
  repeat' (with_reducible first | assumption | apply State.hi_ok | apply State.w_ok)

theorem overflow_ok {x0 x1 x2 x3 : Nat} {x4 : State} (h4 : x4.Ok q n) : (overflow x0 x1 x2 x3 x4).Ok q n := by
  unfold overflow
  repeat' first | (with_reducible first | assumption | apply event_ok | apply State.onPt_ok) | split

theorem itemOverflow_ok {x0 : Nat} {x1 : State} (h1 : x1.Ok q n) : (itemOverflow x0 x1).Ok q n := by
  unfold itemOverflow
  repeat' first | (with_reducible first | assumption | apply overflow_ok) | split

theorem duRefuse_ok {x0 : Nat} {x1 : State} (h1 : x1.Ok q n) : (duRefuse x0 x1).Ok q n := by
  unfold duRefuse
  repeat' (with_reducible first | assumption | apply State.setF_ok | apply State.inc_ok)

theorem keepRefused_ok {x0 : Item} {x1 : State} (h1 : x1.Ok q n) : (keepRefused x0 x1).Ok q n := by
  unfold keepRefused
  repeat' first
    | (with_reducible first | assumption | apply State.inc_ok | apply cuFill_ok | apply itemOverflow_ok)
    | (extract_lets +onlyGivenNames t; (have hs : State.Ok q n t := ?_); on_goal 1 => (clear_value t; revert t; intro u hs))
    | (fail_if_no_progress extract_lets +onlyGivenNames u)
    | split
    | fail_if_no_progress with_reducible apply Ok.parts

theorem settleRefused_ok {x0 : State} (h0 : x0.Ok q n) : (settleRefused x0).Ok q n := by
  unfold settleRefused
  repeat' first
    | (intro)
    | (with_reducible first | assumption | apply keepRefused_ok | apply duRefuse_ok | apply Ok.foldl)
    | fail_if_no_progress with_reducible apply Ok.parts

theorem raceCancel_ok {x0 : State} (h0 : x0.Ok q n) : (raceCancel x0).Ok q n := by
  unfold raceCancel
  repeat' (with_reducible first | assumption | apply State.inc_ok)

theorem post_ok {x0 x1 x2 x3 x4 : Nat} {x5 : Bool} {x6 : State} (h6 : x6.Ok q n) : (post x0 x1 x2 x3 x4 x5 x6).Ok q n := by
  unfold post
  repeat' first
    | (with_reducible first | assumption | apply raceCancel_ok | apply duRefuse_ok)
    | (extract_lets +onlyGivenNames t; (have hs : State.Ok q n t := ?_); on_goal 1 => (clear_value t; revert t; intro u hs))
    | (fail_if_no_progress extract_lets +onlyGivenNames u)
    | split
    | fail_if_no_progress with_reducible apply Ok.parts

theorem cancelKey_ok {x0 : Nat} {x1 : State} (h1 : x1.Ok q n) : (cancelKey x0 x1).Ok q n := by
  unfold cancelKey
  repeat' first | (with_reducible first | assumption | apply State.inc_ok) | fail_if_no_progress with_reducible apply Ok.parts

theorem msgFreed_ok {x0 : Item} {x1 : State} (h1 : x1.Ok q n) : (msgFreed x0 x1).Ok q n := by
  unfold msgFreed
  repeat' first | (with_reducible first | assumption | apply releaseCr_ok) | split

theorem readmitFrom_ok {x0 : List Item} {x1 : State} (h1 : x1.Ok q n) : (readmitFrom x0 x1).Ok q n := by
  induction x0 generalizing x1 with
  | nil =>
    unfold readmitFrom
    repeat' first
      | (unfold t; clear t)
      | (with_reducible first | assumption | apply ih | apply msgFreed_ok | apply cuFill_ok | apply raceCancel_ok)
      | (extract_lets +onlyGivenNames t; (have hs : State.Ok q n t := ?_); on_goal 1 => (clear_value t; revert t; intro u hs))
      | split
      | fail_if_no_progress with_reducible apply Ok.parts
  | cons b r ih =>
    unfold readmitFrom
    repeat' first
      | (unfold t; clear t)
      | (with_reducible first | assumption | apply ih | apply msgFreed_ok | apply cuFill_ok | apply raceCancel_ok)
      | (extract_lets +onlyGivenNames t; (have hs : State.Ok q n t := ?_); on_goal 1 => (clear_value t; revert t; intro u hs))
      | split
      | fail_if_no_progress with_reducible apply Ok.parts

theorem readmit_ok {x0 : State} (h0 : x0.Ok q n) : (readmit x0).Ok q n := by
  unfold readmit
  repeat' (with_reducible first | assumption | apply readmitFrom_ok)

theorem writeCpl_ok {x0 x1 : Nat} {x2 : State} (h2 : x2.Ok q n) : (writeCpl x0 x1 x2).Ok q n := by
  unfold writeCpl
  repeat' (with_reducible first | assumption | apply State.storeN_ok | apply State.w_ok)

theorem mirror_ok {x0 : MirrorItem} {x1 : State} (h1 : x1.Ok q n) : (mirror x0 x1).Ok q n := by
  unfold mirror
  repeat' first | with_reducible assumption | split | fail_if_no_progress with_reducible apply Ok.parts

theorem mirrorMb_ok {x0 : Nat} {x1 : State} (h1 : x1.Ok q n) : (mirrorMb x0 x1).Ok q n := by
  unfold mirrorMb
  repeat' first | (with_reducible first | assumption | apply mirror_ok) | split

theorem notifyCpl_ok {x0 : Desc} {x1 : Nat} {x2 : State} (h2 : x2.Ok q n) : (notifyCpl x0 x1 x2).Ok q n := by
  unfold notifyCpl
  repeat' first | (with_reducible first | assumption | apply State.send_ok) | split

theorem drained_ok {x0 : Nat} {x1 : State} (h1 : x1.Ok q n) : (drained x0 x1).Ok q n := by
  unfold drained
  repeat' first
    | (with_reducible first | assumption | apply mirrorMb_ok | apply State.w_ok)
    | (extract_lets +onlyGivenNames t; (have hs : State.Ok q n t := ?_); on_goal 1 => (clear_value t; revert t; intro u hs))
    | split
    | fail_if_no_progress with_reducible apply Ok.parts

theorem freeCmd_ok {x0 : Desc} {x1 : State} (h1 : x1.Ok q n) : (freeCmd x0 x1).Ok q n := by
  unfold freeCmd
  repeat' first | (with_reducible first | assumption | apply readmit_ok) | fail_if_no_progress with_reducible apply Ok.parts

theorem complete_ok {x0 : Nat} {x1 : Desc} {x2 : Nat} {x3 : Bool} {x4 x5 x6 : Nat} {x7 : State} (h7 : x7.Ok q n) : (complete x0 x1 x2 x3 x4 x5 x6 x7).Ok q n := by
  unfold complete
  repeat' first
    | (unfold t; clear t)
    | (with_reducible first | assumption | apply poolFault_ok | apply mirror_ok | apply mirrorMb_ok | apply writeCpl_ok
                            | apply freeCmd_ok | apply State.w_ok | apply drained_ok | apply notifyCpl_ok)
    | (extract_lets +onlyGivenNames t; (have hs : State.Ok q n t := ?_); on_goal 1 => (clear_value t; revert t; intro u hs))
    | (fail_if_no_progress extract_lets +onlyGivenNames u)
    | split

theorem started_ok {x0 : Desc} {x1 : State} (h1 : x1.Ok q n) : (started x0 x1).Ok q n := by
  unfold started
  repeat' first | with_reducible assumption | fail_if_no_progress with_reducible apply Ok.parts

theorem reply_ok {x0 : Nat} {x1 : Desc} {x2 : Reply} {x3 : State} (h3 : x3.Ok q n) : (reply x0 x1 x2 x3).Ok q n := by
  unfold reply
  repeat' first | (with_reducible first | assumption | apply complete_ok | apply freeCmd_ok) | split

theorem runCmd_ok {x0 : Nat} {x1 : Desc} {x2 : List (Bool × Nat)} {x3 : State → State × Reply} {x4 : State} (h3 : ∀ a0, a0.Ok q n → (x3 a0).1.Ok q n) (h4 : x4.Ok q n) : (runCmd x0 x1 x2 x3 x4).Ok q n := by
  unfold runCmd
  repeat' first
    | (with_reducible first | assumption | apply started_ok | apply complete_ok | apply reply_ok | apply h3)
    | (extract_lets +onlyGivenNames t; (have hs : State.Ok q n t := ?_); on_goal 1 => (clear_value t; revert t; intro u hs))
    | split

theorem checked_ok {x0 : List (Bool × Nat)} {x1 : State × Reply} {x2 : State} (h1 : x1.1.Ok q n) (h2 : x2.Ok q n) : (checked x0 x1 x2).1.Ok q n := by
  unfold checked
  repeat' first | with_reducible assumption | split

end Sys2Proof.Machine
end

