-- ==== Sys2Proof/Laws/KeepOperands.lean ====
section
/-! SUPPORT. What the operand forms keep: the canonical form of memories and registers, the queue and the time. -/

namespace Sys2Proof.Machine
variable {q : List Instr} {n : Nat}

theorem runAct_ok {x0 : Nat} {x1 : Desc} {x2 : List (Bool × Nat)} {x3 : State → Act} {x4 : State} (h3 : ∀ a0, a0.Ok q n → (x3 a0).after.Ok q n) (h4 : x4.Ok q n) : (runAct x0 x1 x2 x3 x4).Ok q n := by
  unfold runAct
  repeat' first | (intro) | (with_reducible first | assumption | apply runCmd_ok | apply checked_ok | apply h3)

theorem State.wImg_ok {x0 : State} {x1 : Reg} {x2 x3 x4 : Nat} (h0 : x0.Ok q n) : (State.wImg x0 x1 x2 x3 x4).Ok q n := by
  unfold State.wImg
  repeat' first | (intro) | (with_reducible first | assumption | apply State.w_ok | apply Ok.foldl)

end Sys2Proof.Machine
end

