-- ==== Sys2Proof/Laws/KeepFlags.lean ====
section
/-! SUPPORT. What the flag rules keep: the canonical form of memories and registers, the queue and the time. -/

namespace Sys2Proof.Machine
variable {q : List Instr} {n : Nat}

theorem w1c_ok {x0 : Fld} {x1 x2 x3 : Nat} {x4 : State} (h4 : x4.Ok q n) : (w1c x0 x1 x2 x3 x4).Ok q n := by
  unfold w1c
  repeat' (with_reducible first | assumption | apply State.w_ok)

theorem rcRead_ok {x0 : Fld} {x1 x2 : Nat} {x3 : State} (h3 : x3.Ok q n) : (rcRead x0 x1 x2 x3).Ok q n := by
  unfold rcRead
  repeat' (with_reducible first | assumption | apply onCyc_ok | apply State.w_ok)

end Sys2Proof.Machine
end

