-- ==== Sys2Proof/Laws/KeepLog.lean ====
section
/-! SUPPORT. What the measured-boot log keeps: the canonical form of memories and registers, the queue and the time. -/

namespace Sys2Proof.Machine
variable {q : List Instr} {n : Nat}

theorem measure_ok {x0 x1 x2 x3 : Nat} {x4 : State} (h4 : x4.Ok q n) : (measure x0 x1 x2 x3 x4).Ok q n := by
  unfold measure
  repeat' first
    | (with_reducible first | assumption | apply State.w_ok | apply event_ok | apply State.setF_ok)
    | (extract_lets +onlyGivenNames t; (have hs : State.Ok q n t := ?_); on_goal 1 => (clear_value t; revert t; intro u hs))
    | (fail_if_no_progress extract_lets +onlyGivenNames u)
    | split
    | fail_if_no_progress with_reducible apply Ok.parts

end Sys2Proof.Machine
end

