-- ==== Sys2Proof/Laws/KeepPhase.lean ====
section
/-! SUPPORT. What phases and times keep: the canonical form of memories and registers, the queue and the time. -/

namespace Sys2Proof.Machine
variable {q : List Instr} {n : Nat}

theorem onGuy_ok {x0 : Guy → Guy} {x1 : State} (h1 : x1.Ok q n) : (onGuy x0 x1).Ok q n := by
  unfold onGuy
  repeat' first | with_reducible assumption | fail_if_no_progress with_reducible apply Ok.parts

theorem showResid_ok {x0 : State} (h0 : x0.Ok q n) : (showResid x0).Ok q n := by
  unfold showResid
  repeat' (with_reducible first | assumption | apply State.w_ok)

theorem moveBoff_ok {x0 : Int} {x1 : State} (h1 : x1.Ok q n) : (moveBoff x0 x1).Ok q n := by
  unfold moveBoff
  repeat' (with_reducible first | assumption | apply State.w_ok | apply showResid_ok | apply onGuy_ok)

theorem cancelDrift_ok {x0 : State} (h0 : x0.Ok q n) : (cancelDrift x0).Ok q n := by
  unfold cancelDrift
  repeat' first | (with_reducible first | assumption | apply onGuy_ok | apply moveBoff_ok) | split

end Sys2Proof.Machine
end

