-- ==== Sys2Proof/Laws/KeepChannel.lean ====
section
/-! SUPPORT. What channels and edges keep: the canonical form of memories and registers, the queue and the time. -/

namespace Sys2Proof.Machine
variable {q : List Instr} {n : Nat}

theorem takeS_ok {x0 : State} {x1 : Nat} (h0 : x0.Ok q n) : (takeS x0 x1).2.Ok q n := by
  unfold takeS
  repeat' first | (with_reducible first | assumption | apply State.onCh_ok) | split

theorem plainSym_ok {x0 : State} {x1 x2 : Nat} (h0 : x0.Ok q n) : (plainSym x0 x1 x2).2.Ok q n := by
  unfold plainSym
  repeat' first | (with_reducible first | assumption | apply takeS_ok) | split

theorem resolveSym_ok {x0 : State} {x1 x2 : Nat} (h0 : x0.Ok q n) : (resolveSym x0 x1 x2).2.Ok q n := by
  unfold resolveSym
  repeat' first
    | (with_reducible first | assumption | apply State.onCh_ok | apply plainSym_ok)
    | (extract_lets +onlyGivenNames t; (have hs : State.Ok q n t := ?_); on_goal 1 => (clear_value t; revert t; intro u hs))
    | split

theorem vectorChan_ok {x0 x1 x2 x3 x4 x5 : Nat} {x6 : Option TEntry} {x7 : State} (h7 : x7.Ok q n) : (vectorChan x0 x1 x2 x3 x4 x5 x6 x7).Ok q n := by
  unfold vectorChan
  repeat' first
    | (unfold t; clear t)
    | (with_reducible first | assumption | apply resolveSym_ok | apply State.setF_ok | apply event_ok | apply State.onPt_ok
                            | apply State.onCh_ok)
    | (extract_lets +onlyGivenNames t; (have hs : State.Ok q n t := ?_); on_goal 1 => (clear_value t; revert t; intro u hs))
    | split
    | with_reducible refine Ok.snd (by assumption) ?_

theorem placeEdge_ok {x0 x1 : Nat} {x2 : Sig} {x3 : State} (h3 : x3.Ok q n) : (placeEdge x0 x1 x2 x3).Ok q n := by
  unfold placeEdge
  repeat' first
    | (with_reducible first | assumption | apply State.onCh_ok | apply State.inc_ok | apply State.setF_ok)
    | (extract_lets +onlyGivenNames t; (have hs : State.Ok q n t := ?_); on_goal 1 => (clear_value t; revert t; intro u hs))
    | (fail_if_no_progress extract_lets +onlyGivenNames u)
    | split

theorem takeStrobe_ok {x0 x1 : Nat} {x2 x3 : Wave} {x4 : State} (h4 : x4.Ok q n) : (takeStrobe x0 x1 x2 x3 x4).Ok q n := by
  unfold takeStrobe
  repeat' first
    | (unfold t; clear t)
    | (with_reducible first | assumption | apply State.setF_ok | apply State.onCh_ok)
    | (extract_lets +onlyGivenNames t; (have hs : State.Ok q n t := ?_); on_goal 1 => (clear_value t; revert t; intro u hs))
    | (fail_if_no_progress extract_lets +onlyGivenNames u)
    | split

theorem parkChan_ok {x0 x1 : Nat} {x2 : State} (h2 : x2.Ok q n) : (parkChan x0 x1 x2).Ok q n := by
  unfold parkChan
  repeat' first
    | (with_reducible first | assumption | apply State.w_ok | apply State.setF_ok | apply State.onCh_ok)
    | (extract_lets +onlyGivenNames t; (have hs : State.Ok q n t := ?_); on_goal 1 => (clear_value t; revert t; intro u hs))
    | split

theorem unparkChan_ok {x0 : Nat} {x1 : State} (h1 : x1.Ok q n) : (unparkChan x0 x1).Ok q n := by
  unfold unparkChan
  repeat' (with_reducible first | assumption | apply State.onCh_ok | apply State.w_ok)

theorem startChan_ok {x0 : Nat} {x1 : State} (h1 : x1.Ok q n) : (startChan x0 x1).Ok q n := by
  unfold startChan
  repeat' first | (with_reducible first | assumption | apply unparkChan_ok | apply State.onCh_ok) | split

end Sys2Proof.Machine
end

