-- ==== Sys2Proof/Laws/KeepSeqOps.lean ====
section
/-! SUPPORT. What conditions and the predicted path keep: the canonical form of memories and registers, the queue and the time. -/

namespace Sys2Proof.Machine
variable {q : List Instr} {n : Nat}

theorem latchEvent_ok {x0 x1 x2 x3 : Nat} {x4 : State} (h4 : x4.Ok q n) : (latchEvent x0 x1 x2 x3 x4).Ok q n := by
  unfold latchEvent
  repeat' (with_reducible first | assumption | apply State.onPt_ok)

theorem condEvent_ok {x0 x1 x2 x3 : Nat} {x4 : State} (h4 : x4.Ok q n) : (condEvent x0 x1 x2 x3 x4).Ok q n := by
  unfold condEvent
  repeat' first
    | (with_reducible first | assumption | apply onCyc_ok | apply latchEvent_ok)
    | (extract_lets +onlyGivenNames t; (have hs : State.Ok q n t := ?_); on_goal 1 => (clear_value t; revert t; intro u hs))
    | split

theorem latchNow_ok {x0 x1 : Nat} {x2 : State} (h2 : x2.Ok q n) : (latchNow x0 x1 x2).Ok q n := by
  unfold latchNow
  repeat' first | (intro) | (with_reducible first | assumption | apply latchEvent_ok | apply Ok.foldl) | split

theorem latchLevels_ok {x0 x1 : Nat} {x2 : State} (h2 : x2.Ok q n) : (latchLevels x0 x1 x2).Ok q n := by
  unfold latchLevels
  repeat' (with_reducible first | assumption | apply State.onPt_ok)

theorem latchAll_ok {x0 : State} (h0 : x0.Ok q n) : (latchAll x0).Ok q n := by
  unfold latchAll
  repeat' first | (intro) | (with_reducible first | assumption | apply latchLevels_ok | apply forAll_ok) | split

theorem setFlags_ok {x0 x1 x2 : Nat} {x3 : State} (h3 : x3.Ok q n) : (setFlags x0 x1 x2 x3).Ok q n := by
  unfold setFlags
  repeat' first
    | (with_reducible first | assumption | apply onCyc_ok | apply State.w_ok | apply latchLevels_ok)
    | (extract_lets +onlyGivenNames t; (have hs : State.Ok q n t := ?_); on_goal 1 => (clear_value t; revert t; intro u hs))
    | (fail_if_no_progress extract_lets +onlyGivenNames u)
    | split

theorem loadCounter_ok {x0 x1 x2 : Nat} {x3 : State} (h3 : x3.Ok q n) : (loadCounter x0 x1 x2 x3).Ok q n := by
  unfold loadCounter
  repeat' first
    | (with_reducible first | assumption | apply State.w_ok | apply latchLevels_ok)
    | (extract_lets +onlyGivenNames t; (have hs : State.Ok q n t := ?_); on_goal 1 => (clear_value t; revert t; intro u hs))
    | split

theorem countEvent_ok {x0 x1 x2 : Nat} {x3 : State} (h3 : x3.Ok q n) : (countEvent x0 x1 x2 x3).Ok q n := by
  unfold countEvent
  repeat' first
    | (intro)
    | (unfold t; clear t)
    | (with_reducible first | assumption | apply onCyc_ok | apply State.w_ok | apply latchLevels_ok | apply forAll_ok)
    | (extract_lets +onlyGivenNames t; (have hs : State.Ok q n t := ?_); on_goal 1 => (clear_value t; revert t; intro u hs))
    | split

theorem fixStop_ok {x0 x1 : Nat} {x2 : State} (h2 : x2.Ok q n) : (fixStop x0 x1 x2).Ok q n := by
  unfold fixStop
  repeat' (with_reducible first | assumption | apply onCyc_ok | apply State.w_ok | apply State.onPt_ok)

theorem planStop_ok {x0 : Nat} {x1 : StopPlan} {x2 : State} (h2 : x2.Ok q n) : (planStop x0 x1 x2).Ok q n := by
  unfold planStop
  repeat' (with_reducible first | assumption | apply State.onPt_ok)

theorem loadWindow_ok {x0 : Nat} {x1 : State} (h1 : x1.Ok q n) : (loadWindow x0 x1).Ok q n := by
  unfold loadWindow
  repeat' (with_reducible first | assumption | apply State.onPt_ok)

end Sys2Proof.Machine
end

