-- ==== Sys2Proof/Laws/KeepCapture.lean ====
section
/-! SUPPORT. What capture units keep: the canonical form of memories and registers, the queue and the time. -/

namespace Sys2Proof.Machine
variable {q : List Instr} {n : Nat}

theorem bufferRec_ok {x0 : Nat} {x1 : CapRec} {x2 : State} (h2 : x2.Ok q n) : (bufferRec x0 x1 x2).Ok q n := by
  unfold bufferRec
  repeat' (with_reducible first | assumption | apply cuFill_ok | apply State.onCu_ok)

theorem emit_ok {x0 x1 : Nat} {x2 : CapRec} {x3 : Bool} {x4 : State} (h4 : x4.Ok q n) : (emit x0 x1 x2 x3 x4).Ok q n := by
  unfold emit
  repeat' first
    | (unfold t; clear t)
    | (with_reducible first | assumption | apply overflow_ok | apply State.onCu_ok | apply bufferRec_ok)
    | (extract_lets +onlyGivenNames t; (have hs : State.Ok q n t := ?_); on_goal 1 => (clear_value t; revert t; intro u hs))
    | split

theorem flushRaw_ok {x0 x1 x2 : Nat} {x3 x4 : Bool} {x5 : State} (h5 : x5.Ok q n) : (flushRaw x0 x1 x2 x3 x4 x5).Ok q n := by
  unfold flushRaw
  repeat' first
    | (with_reducible first | assumption | apply emit_ok | apply State.onCu_ok)
    | (extract_lets +onlyGivenNames t; (have hs : State.Ok q n t := ?_); on_goal 1 => (clear_value t; revert t; intro u hs))
    | (fail_if_no_progress extract_lets +onlyGivenNames u)
    | split

theorem flushRed_ok {x0 x1 x2 : Nat} {x3 x4 : Bool} {x5 : State} (h5 : x5.Ok q n) : (flushRed x0 x1 x2 x3 x4 x5).Ok q n := by
  unfold flushRed
  repeat' first
    | (with_reducible first | assumption | apply emit_ok | apply State.onCu_ok)
    | (extract_lets +onlyGivenNames t; (have hs : State.Ok q n t := ?_); on_goal 1 => (clear_value t; revert t; intro u hs))
    | (fail_if_no_progress extract_lets +onlyGivenNames u)
    | split

theorem flushStrip_ok {x0 x1 x2 : Nat} {x3 x4 : Bool} {x5 : State} (h5 : x5.Ok q n) : (flushStrip x0 x1 x2 x3 x4 x5).Ok q n := by
  unfold flushStrip
  repeat' first
    | (with_reducible first | assumption | apply emit_ok | apply State.onCu_ok)
    | (extract_lets +onlyGivenNames t; (have hs : State.Ok q n t := ?_); on_goal 1 => (clear_value t; revert t; intro u hs))
    | (fail_if_no_progress extract_lets +onlyGivenNames u)
    | split

theorem toSlot_ok {x0 : Nat} {x1 : CapRec} {x2 : State} (h2 : x2.Ok q n) : (toSlot x0 x1 x2).Ok q n := by
  unfold toSlot
  repeat' first | (with_reducible first | assumption | apply State.onCu_ok | apply nrtStore_ok) | split

theorem toWindow_ok {x0 : Nat} {x1 : CapRec} {x2 : State} (h2 : x2.Ok q n) : (toWindow x0 x1 x2).Ok q n := by
  unfold toWindow
  repeat' first
    | (with_reducible first | assumption | apply nrtStore_ok)
    | (extract_lets +onlyGivenNames t; (have hs : State.Ok q n t := ?_); on_goal 1 => (clear_value t; revert t; intro u hs))
    | fail_if_no_progress with_reducible apply Ok.parts

theorem capstream_ok {x0 x1 x2 : Nat} {x3 : List Byte} {x4 : State} (h4 : x4.Ok q n) : (capstream x0 x1 x2 x3 x4).Ok q n := by
  induction x2 generalizing x0 x1 x3 x4 with
  | zero =>
    unfold capstream
    repeat' first
      | (with_reducible first | assumption | apply ih | apply State.onCu_ok | apply State.send_ok)
      | (extract_lets +onlyGivenNames t; (have hs : State.Ok q n t := ?_); on_goal 1 => (clear_value t; revert t; intro u hs))
      | split
  | succ k ih =>
    unfold capstream
    repeat' first
      | (with_reducible first | assumption | apply ih | apply State.onCu_ok | apply State.send_ok)
      | (extract_lets +onlyGivenNames t; (have hs : State.Ok q n t := ?_); on_goal 1 => (clear_value t; revert t; intro u hs))
      | split

theorem toStream_ok {x0 : Nat} {x1 : CapRec} {x2 : State} (h2 : x2.Ok q n) : (toStream x0 x1 x2).Ok q n := by
  unfold toStream
  repeat' first
    | (unfold t; clear t)
    | (with_reducible first | assumption | apply capstream_ok | apply State.onCu_ok | apply State.w_ok | apply State.store_ok)
    | (extract_lets +onlyGivenNames t; (have hs : State.Ok q n t := ?_); on_goal 1 => (clear_value t; revert t; intro u hs))
    | split

theorem turnRing_ok {x0 : Nat} {x1 : CapRec} {x2 : State} (h2 : x2.Ok q n) : (turnRing x0 x1 x2).Ok q n := by
  unfold turnRing
  repeat' (with_reducible first | assumption | apply State.onCu_ok)

theorem releaseRecs_ok {x0 x1 x2 : Nat} {x3 : State} (h3 : x3.Ok q n) : (releaseRecs x0 x1 x2 x3).Ok q n := by
  induction x2 generalizing x0 x1 x3 with
  | zero =>
    unfold releaseRecs
    repeat' first
      | (unfold t; clear t)
      | (with_reducible first | assumption | apply ih | apply cuFill_ok | apply toStream_ok | apply turnRing_ok
                              | apply State.onCu_ok | apply toSlot_ok | apply toWindow_ok)
      | (extract_lets +onlyGivenNames t; (have hs : State.Ok q n t := ?_); on_goal 1 => (clear_value t; revert t; intro u hs))
      | split
  | succ k ih =>
    unfold releaseRecs
    repeat' first
      | (unfold t; clear t)
      | (with_reducible first | assumption | apply ih | apply cuFill_ok | apply toStream_ok | apply turnRing_ok
                              | apply State.onCu_ok | apply toSlot_ok | apply toWindow_ok)
      | (extract_lets +onlyGivenNames t; (have hs : State.Ok q n t := ?_); on_goal 1 => (clear_value t; revert t; intro u hs))
      | split

theorem release_ok {x0 x1 : Nat} {x2 : State} (h2 : x2.Ok q n) : (release x0 x1 x2).Ok q n := by
  unfold release
  repeat' (with_reducible first | assumption | apply releaseRecs_ok)

theorem assertLines_ok {x0 x1 : Nat} {x2 : State} (h2 : x2.Ok q n) : (assertLines x0 x1 x2).Ok q n := by
  unfold assertLines
  repeat' first
    | (intro)
    | (with_reducible first | assumption | apply forAll_ok)
    | split
    | fail_if_no_progress with_reducible apply Ok.parts

theorem trigTimeout_ok {x0 : Nat} {x1 : State} (h1 : x1.Ok q n) : (trigTimeout x0 x1).Ok q n := by
  unfold trigTimeout
  repeat' first
    | (with_reducible first | assumption | apply State.onPt_ok | apply State.inc_ok | apply State.w_ok)
    | (fail_if_no_progress extract_lets +onlyGivenNames u)
    | split

theorem triggerVec_ok {x0 x1 : Nat} {x2 : State} (h2 : x2.Ok q n) : (triggerVec x0 x1 x2).1.Ok q n := by
  unfold triggerVec
  repeat' first
    | (with_reducible first | assumption | apply trigTimeout_ok | apply assertLines_ok | apply condEvent_ok | apply State.w_ok
                            | apply State.onPt_ok | apply State.inc_ok)
    | (extract_lets +onlyGivenNames t; (have hs : State.Ok q n t := ?_); on_goal 1 => (clear_value t; revert t; intro u hs))
    | (fail_if_no_progress extract_lets +onlyGivenNames u)
    | split

theorem State.setA_ok {x0 : State} {x1 x2 : Nat} (h0 : x0.Ok q n) : (State.setA x0 x1 x2).Ok q n := by
  unfold State.setA
  repeat' (with_reducible first | assumption | apply State.w_ok)

theorem State.onAcq_ok {x0 : State} {x1 : Nat} {x2 : Acq → Acq} (h0 : x0.Ok q n) : (State.onAcq x0 x1 x2).Ok q n := by
  unfold State.onAcq
  repeat' (with_reducible first | assumption | apply State.onPt_ok)

theorem openUnits_ok {x0 x1 : Nat} {x2 : State} (h2 : x2.Ok q n) : (openUnits x0 x1 x2).Ok q n := by
  unfold openUnits
  repeat' first | (intro) | (with_reducible first | assumption | apply State.onCu_ok | apply forAll_ok)

theorem tryOpen_ok {x0 x1 : Nat} {x2 : State} (h2 : x2.Ok q n) : (tryOpen x0 x1 x2).1.Ok q n := by
  unfold tryOpen
  repeat' first
    | (with_reducible first | assumption | apply openUnits_ok | apply State.onAcq_ok)
    | (fail_if_no_progress extract_lets +onlyGivenNames u)
    | split

theorem tryRearm_ok {x0 : Nat} {x1 : State} (h1 : x1.Ok q n) : (tryRearm x0 x1).Ok q n := by
  unfold tryRearm
  repeat' first
    | (with_reducible first | assumption | apply State.onAcq_ok | apply State.setA_ok)
    | (extract_lets +onlyGivenNames t; clear_value t; revert t; intro u)
    | split

theorem holdOff_ok {x0 : Nat} {x1 : State} (h1 : x1.Ok q n) : (holdOff x0 x1).Ok q n := by
  unfold holdOff
  repeat' first
    | (with_reducible first | assumption | apply State.onAcq_ok)
    | (fail_if_no_progress extract_lets +onlyGivenNames u)
    | split

theorem trigEvent_ok {x0 x1 : Nat} {x2 : State} (h2 : x2.Ok q n) : (trigEvent x0 x1 x2).Ok q n := by
  unfold trigEvent
  repeat' first
    | (intro)
    | (unfold t; clear t)
    | (with_reducible first | assumption | apply emit_ok | apply State.onAcq_ok | apply State.setA_ok | apply State.inc_ok
                            | apply forAll_ok)
    | (extract_lets +onlyGivenNames t; (have hs : State.Ok q n t := ?_); on_goal 1 => (clear_value t; revert t; intro u hs))
    | (fail_if_no_progress extract_lets +onlyGivenNames u)
    | split

theorem trigEvents_ok {x0 x1 : Nat} {x2 x3 : Bool} {x4 : State} (h4 : x4.Ok q n) : (trigEvents x0 x1 x2 x3 x4).2.Ok q n := by
  unfold trigEvents
  repeat' first | (with_reducible first | assumption | apply State.onAcq_ok) | split

theorem trigTimes_ok {x0 x1 x2 : Nat} {x3 : State} (h3 : x3.Ok q n) : (trigTimes x0 x1 x2 x3).Ok q n := by
  induction x2 generalizing x0 x1 x3 with
  | zero =>
    unfold trigTimes
    repeat' (with_reducible first | assumption | apply ih | apply trigEvent_ok)
  | succ k ih =>
    unfold trigTimes
    repeat' (with_reducible first | assumption | apply ih | apply trigEvent_ok)

theorem stripHits_ok {x0 : Nat} {x1 : VecInfo} {x2 : State} (h2 : x2.Ok q n) : (stripHits x0 x1 x2).Ok q n := by
  unfold stripHits
  repeat' (with_reducible first | assumption | apply State.onCu_ok)

theorem capVec_ok {x0 x1 x2 : Nat} {x3 : Bool} {x4 : State} (h4 : x4.Ok q n) : (capVec x0 x1 x2 x3 x4).Ok q n := by
  unfold capVec
  repeat' first
    | (unfold t; clear t)
    | (with_reducible first | assumption | apply emit_ok | apply flushRaw_ok | apply State.onCu_ok | apply flushRed_ok
                            | apply stripHits_ok | apply flushStrip_ok)
    | (extract_lets +onlyGivenNames t; (have hs : State.Ok q n t := ?_); on_goal 1 => (clear_value t; revert t; intro u hs))
    | (fail_if_no_progress extract_lets +onlyGivenNames u)
    | split

theorem flushAll_ok {x0 x1 : Nat} {x2 : Bool} {x3 : State} (h3 : x3.Ok q n) : (flushAll x0 x1 x2 x3).Ok q n := by
  unfold flushAll
  repeat' first
    | (intro)
    | (with_reducible first | assumption | apply flushStrip_ok | apply flushRed_ok | apply flushRaw_ok | apply forAll_ok)

theorem spillMark_ok {x0 x1 x2 x3 : Nat} {x4 : State} (h4 : x4.Ok q n) : (spillMark x0 x1 x2 x3 x4).Ok q n := by
  unfold spillMark
  repeat' (with_reducible first | assumption | apply flushStrip_ok | apply flushRed_ok | apply flushRaw_ok | apply State.setF_ok | apply emit_ok)

theorem capPitch_ok {x0 x1 : Nat} {x2 : State} (h2 : x2.Ok q n) : (capPitch x0 x1 x2).Ok q n := by
  unfold capPitch
  repeat' first
    | (intro)
    | (unfold t; clear t)
    | (with_reducible first | assumption | apply spillMark_ok | apply capVec_ok | apply State.onCu_ok | apply forAll_ok)
    | (extract_lets +onlyGivenNames t; (have hs : State.Ok q n t := ?_); on_goal 1 => (clear_value t; revert t; intro u hs))
    | split

theorem windowRec_ok {x0 x1 x2 : Nat} {x3 : State} (h3 : x3.Ok q n) : (windowRec x0 x1 x2 x3).Ok q n := by
  unfold windowRec
  repeat' (with_reducible first | assumption | apply post_ok | apply bufferRec_ok)

theorem ovfRec_ok {x0 x1 : Nat} {x2 : State} (h2 : x2.Ok q n) : (ovfRec x0 x1 x2).Ok q n := by
  unfold ovfRec
  repeat' (with_reducible first | assumption | apply State.w_ok | apply State.setF_ok | apply State.onCu_ok | apply bufferRec_ok)

theorem closeWindow_ok {x0 x1 : Nat} {x2 : State} (h2 : x2.Ok q n) : (closeWindow x0 x1 x2).Ok q n := by
  unfold closeWindow
  repeat' first
    | (intro)
    | (with_reducible first | assumption | apply windowRec_ok | apply State.w_ok | apply State.onAcq_ok | apply forAll_ok)

theorem endAcq_ok {x0 x1 : Nat} {x2 : State} (h2 : x2.Ok q n) : (endAcq x0 x1 x2).Ok q n := by
  unfold endAcq
  repeat' first
    | (with_reducible first | assumption | apply flushAll_ok | apply ovfRec_ok | apply closeWindow_ok | apply release_ok
                            | apply State.onAcq_ok | apply State.setA_ok | apply forAll_ok)
    | split

theorem tryClose_ok {x0 : Nat} {x1 : State} (h1 : x1.Ok q n) : (tryClose x0 x1).Ok q n := by
  unfold tryClose
  repeat' first
    | (with_reducible first | assumption | apply endAcq_ok | apply release_ok | apply closeWindow_ok | apply event_ok
                            | apply State.onAcq_ok | apply State.setA_ok | apply forAll_ok)
    | (extract_lets +onlyGivenNames t; (have hs : State.Ok q n t := ?_); on_goal 1 => (clear_value t; revert t; intro u hs))
    | (fail_if_no_progress extract_lets +onlyGivenNames u)
    | split

theorem takeVec_ok {x0 x1 : Nat} {x2 x3 : Bool} {x4 : State} (h4 : x4.Ok q n) : (takeVec x0 x1 x2 x3 x4).Ok q n := by
  unfold takeVec
  repeat' first
    | (intro)
    | (unfold t; clear t)
    | (with_reducible first | assumption | apply trigEvents_ok | apply trigTimes_ok | apply State.onCu_ok | apply capPitch_ok
                            | apply flushAll_ok | apply forAll_ok)
    | (extract_lets +onlyGivenNames t; (have hs : State.Ok q n t := ?_); on_goal 1 => (clear_value t; revert t; intro u hs))
    | (fail_if_no_progress extract_lets +onlyGivenNames u)
    | split
    | with_reducible refine Ok.snd (by assumption) ?_

theorem endPost_ok {x0 x1 : Nat} {x2 : State} (h2 : x2.Ok q n) : (endPost x0 x1 x2).Ok q n := by
  unfold endPost
  repeat' first
    | (intro)
    | (with_reducible first | assumption | apply State.onAcq_ok | apply State.onCu_ok | apply forAll_ok)
    | (fail_if_no_progress extract_lets +onlyGivenNames u)
    | split

theorem acqVec_ok {x0 x1 : Nat} {x2 : Bool} {x3 : State} (h3 : x3.Ok q n) : (acqVec x0 x1 x2 x3).Ok q n := by
  unfold acqVec
  repeat' first
    | (unfold t; clear t)
    | (with_reducible first | assumption | apply tryOpen_ok | apply tryRearm_ok | apply takeVec_ok | apply overflow_ok
                            | apply endPost_ok)
    | split

end Sys2Proof.Machine
end

