-- ==== Sys2Proof/Laws/KeepCalib.lean ====
section
/-! SUPPORT. What calibration keeps: the canonical form of memories and registers, the queue and the time. -/

namespace Sys2Proof.Machine
variable {q : List Instr} {n : Nat}

theorem retargetChan_ok {x0 : Int} {x1 : Nat} {x2 : State} (h2 : x2.Ok q n) : (retargetChan x0 x1 x2).Ok q n := by
  unfold retargetChan
  repeat' (with_reducible first | assumption | apply State.onCh_ok)

theorem retargetTdc_ok {x0 : Int} {x1 : Nat} {x2 : State} (h2 : x2.Ok q n) : (retargetTdc x0 x1 x2).Ok q n := by
  unfold retargetTdc
  repeat' (with_reducible first | assumption | apply State.onTd_ok)

theorem takeTemp_ok {x0 : Nat} {x1 : State} (h1 : x1.Ok q n) : (takeTemp x0 x1).Ok q n := by
  unfold takeTemp
  repeat' first | (with_reducible first | assumption | apply State.setF_ok | apply State.w_ok) | split

theorem retarget_ok {x0 : Nat} {x1 : State} (h1 : x1.Ok q n) : (retarget x0 x1).Ok q n := by
  unfold retarget
  repeat' (with_reducible first | assumption | apply retargetChan_ok | apply retargetTdc_ok | apply State.onGp_ok | apply forAll_ok)

theorem tdRefresh_ok {x0 : Nat} {x1 : State} (h1 : x1.Ok q n) : (tdRefresh x0 x1).Ok q n := by
  unfold tdRefresh
  repeat' (with_reducible first | assumption | apply State.w_ok)

theorem applyTdc_ok {x0 : Nat} {x1 : State} (h1 : x1.Ok q n) : (applyTdc x0 x1).Ok q n := by
  unfold applyTdc
  repeat' (with_reducible first | assumption | apply tdRefresh_ok | apply State.onTd_ok)

theorem applyChan_ok {x0 : Nat} {x1 : State} (h1 : x1.Ok q n) : (applyChan x0 x1).Ok q n := by
  unfold applyChan
  repeat' first | (intro) | (with_reducible first | assumption | apply State.w_ok | apply State.onCh_ok | apply forAll_ok)

theorem setApplied_ok {x0 : Nat} {x1 : State} (h1 : x1.Ok q n) : (setApplied x0 x1).Ok q n := by
  unfold setApplied
  repeat' (with_reducible first | assumption | apply State.w_ok)

theorem applyGroup_ok {x0 : Nat} {x1 : State} (h1 : x1.Ok q n) : (applyGroup x0 x1).Ok q n := by
  unfold applyGroup
  repeat' (with_reducible first | assumption | apply applyChan_ok | apply setApplied_ok | apply State.onGp_ok | apply forAll_ok)

theorem stepTdc_ok {x0 : Nat} {x1 : State} (h1 : x1.Ok q n) : (stepTdc x0 x1).Ok q n := by
  unfold stepTdc
  repeat' (with_reducible first | assumption | apply tdRefresh_ok | apply State.onTd_ok)

theorem stepChan_ok {x0 : Nat} {x1 : State} (h1 : x1.Ok q n) : (stepChan x0 x1).Ok q n := by
  unfold stepChan
  repeat' first | (intro) | (with_reducible first | assumption | apply State.w_ok | apply State.onCh_ok | apply forAll_ok)

theorem compareApplied_ok {x0 : Nat} {x1 : State} (h1 : x1.Ok q n) : (compareApplied x0 x1).Ok q n := by
  unfold compareApplied
  repeat' first | (with_reducible first | assumption | apply State.setF_ok | apply setApplied_ok) | split

theorem quietGroup_ok {x0 : Nat} {x1 : State} (h1 : x1.Ok q n) : (quietGroup x0 x1).Ok q n := by
  unfold quietGroup
  repeat' first
    | (intro)
    | (with_reducible first | assumption | apply stepChan_ok | apply State.onGp_ok | apply stepTdc_ok | apply compareApplied_ok
                            | apply forAll_ok)
    | split

theorem driftCheck_ok {x0 : Nat} {x1 : State} (h1 : x1.Ok q n) : (driftCheck x0 x1).Ok q n := by
  unfold driftCheck
  repeat' first
    | (intro)
    | (with_reducible first | assumption | apply event_ok | apply State.inc_ok | apply State.setF_ok | apply State.w_ok
                            | apply forAll_ok)
    | split

theorem quietStep_ok {x0 : Nat} {x1 : State} (h1 : x1.Ok q n) : (quietStep x0 x1).Ok q n := by
  unfold quietStep
  repeat' (with_reducible first | assumption | apply driftCheck_ok | apply quietGroup_ok | apply forAll_ok)

theorem sampleTdc_ok {x0 : Nat} {x1 : State} (h1 : x1.Ok q n) : (sampleTdc x0 x1).Ok q n := by
  unfold sampleTdc
  repeat' first | (with_reducible first | assumption | apply stepTdc_ok | apply applyTdc_ok) | split

theorem sampleGroup_ok {x0 : Nat} {x1 : State} (h1 : x1.Ok q n) : (sampleGroup x0 x1).Ok q n := by
  unfold sampleGroup
  repeat' first
    | (with_reducible first | assumption | apply sampleTdc_ok | apply retarget_ok | apply applyGroup_ok | apply compareApplied_ok
                            | apply driftCheck_ok | apply forAll_ok)
    | (extract_lets +onlyGivenNames t; (have hs : State.Ok q n t := ?_); on_goal 1 => (clear_value t; revert t; intro u hs))
    | split

theorem sampleDue_ok {x0 : State} (h0 : x0.Ok q n) : (sampleDue x0).Ok q n := by
  unfold sampleDue
  repeat' first
    | (with_reducible first | assumption | apply sampleGroup_ok | apply forAll_ok)
    | fail_if_no_progress with_reducible apply Ok.parts

theorem applyPitch_ok {x0 : Nat} {x1 : State} (h1 : x1.Ok q n) : (applyPitch x0 x1).Ok q n := by
  unfold applyPitch
  repeat' first
    | (intro)
    | (with_reducible first | assumption | apply applyGroup_ok | apply applyTdc_ok | apply State.w_ok | apply forAll_ok)
    | split

theorem unfreezeTdc_ok {x0 : Nat} {x1 : State} (h1 : x1.Ok q n) : (unfreezeTdc x0 x1).Ok q n := by
  unfold unfreezeTdc
  repeat' (with_reducible first | assumption | apply applyTdc_ok)

theorem calTdcx00_ok {x0 : CalRaw} {x1 : State} (h1 : x1.Ok q n) : (calTdcx00 x0 x1).Ok q n := by
  unfold calTdcx00
  repeat' first | (with_reducible first | assumption | apply tdRefresh_ok | apply State.onTd_ok) | split

theorem putSet_ok {x0 : Nat} {x1 : CalSet} {x2 : State} (h2 : x2.Ok q n) : (putSet x0 x1 x2).Ok q n := by
  unfold putSet
  repeat' first | with_reducible assumption | fail_if_no_progress with_reducible apply Ok.parts

theorem stageUnit_ok {x0 : Nat} {x1 : List Nat} {x2 : CalRaw} {x3 : State} (h3 : x3.Ok q n) : (stageUnit x0 x1 x2 x3).1.Ok q n := by
  unfold stageUnit
  repeat' first
    | (unfold t; clear t)
    | (with_reducible first | assumption | apply putSet_ok | apply State.w_ok)
    | (extract_lets +onlyGivenNames t; (have hs : State.Ok q n t := ?_); on_goal 1 => (clear_value t; revert t; intro u hs))
    | (fail_if_no_progress extract_lets +onlyGivenNames u)
    | split

theorem stageTrims_ok {x0 : CalPhase} {x1 : State} (h1 : x1.Ok q n) : (stageTrims x0 x1).1.Ok q n := by
  unfold stageTrims
  repeat' first
    | (with_reducible first | assumption | apply putSet_ok)
    | (fail_if_no_progress extract_lets +onlyGivenNames u)
    | split

theorem openGap_ok {x0 : Nat} {x1 : State} (h1 : x1.Ok q n) : (openGap x0 x1).Ok q n := by
  unfold openGap
  repeat' (with_reducible first | assumption | apply State.onTd_ok)

theorem holdTdc_ok {x0 : Nat} {x1 : State} (h1 : x1.Ok q n) : (holdTdc x0 x1).Ok q n := by
  unfold holdTdc
  repeat' first
    | (with_reducible first | assumption | apply State.onTd_ok | apply State.onMs_ok)
    | (extract_lets +onlyGivenNames t; (have hs : State.Ok q n t := ?_); on_goal 1 => (clear_value t; revert t; intro u hs))
    | split

theorem freeTdc_ok {x0 : Nat} {x1 : State} (h1 : x1.Ok q n) : (freeTdc x0 x1).Ok q n := by
  unfold freeTdc
  repeat' (with_reducible first | assumption | apply State.onTd_ok)

theorem calRunStart_ok {x0 : Desc} {x1 : State} (h1 : x1.Ok q n) : (calRunStart x0 x1).Ok q n := by
  unfold calRunStart
  repeat' first
    | (intro)
    | (with_reducible first | assumption | apply holdTdc_ok | apply State.onCh_ok | apply State.setF_ok | apply State.w_ok
                            | apply forAll_ok)
    | (extract_lets +onlyGivenNames t; (have hs : State.Ok q n t := ?_); on_goal 1 => (clear_value t; revert t; intro u hs))
    | fail_if_no_progress with_reducible apply Ok.parts

theorem execCalRun_ok {x0 : Desc} {x1 : State} (h1 : x1.Ok q n) : OutOk q n (execCalRun x0 x1) := by
  unfold execCalRun
  repeat' first
    | (intro)
    | (with_reducible first | assumption | apply OutOk.next | apply runCmd_ok | apply checked_ok | apply calRunStart_ok)

theorem stageUnits_ok {x0 : Nat} {x1 : List Nat} {x2 : List CalRaw} {x3 : State} {x4 : Nat × Nat × Nat} (h3 : x3.Ok q n) : (stageUnits x0 x1 x2 x3 x4).1.Ok q n := by
  induction x2 generalizing x0 x1 x3 x4 with
  | nil =>
    unfold stageUnits
    repeat' (with_reducible first | assumption | apply ih | apply stageUnit_ok)
  | cons b r ih =>
    unfold stageUnits
    repeat' (with_reducible first | assumption | apply ih | apply stageUnit_ok)

theorem stageAllTrims_ok {x0 : List CalPhase} {x1 : State} {x2 : Nat × Nat} (h1 : x1.Ok q n) : (stageAllTrims x0 x1 x2).1.Ok q n := by
  induction x0 generalizing x1 x2 with
  | nil =>
    unfold stageAllTrims
    repeat' (with_reducible first | assumption | apply ih | apply stageTrims_ok)
  | cons b r ih =>
    unfold stageAllTrims
    repeat' (with_reducible first | assumption | apply ih | apply stageTrims_ok)

theorem calRunStaged_ok {x0 : List CalRaw} {x1 : List CalPhase} {x2 x3 x4 : Nat} {x5 : State} (h5 : x5.Ok q n) : (calRunStaged x0 x1 x2 x3 x4 x5).1.Ok q n := by
  unfold calRunStaged
  repeat' first
    | (intro)
    | (with_reducible first | assumption | apply putSet_ok | apply stageUnits_ok | apply stageAllTrims_ok | apply State.w_ok
                            | apply forAll_ok)
    | split
    | fail_if_no_progress with_reducible apply Ok.parts

theorem resultWord_ok {x0 : Nat} {x1 : State} (h1 : x1.Ok q n) : (resultWord x0 x1).2.Ok q n := by
  unfold resultWord
  repeat' first | (with_reducible first | assumption | apply State.fresh_ok) | split

theorem calRunEnded_ok {x0 : Nat} {x1 : State} (h1 : x1.Ok q n) : (calRunEnded x0 x1).Ok q n := by
  unfold calRunEnded
  repeat' first
    | (with_reducible first | assumption | apply State.setF_ok | apply State.w_ok)
    | (extract_lets +onlyGivenNames t; (have hs : State.Ok q n t := ?_); on_goal 1 => (clear_value t; revert t; intro u hs))
    | fail_if_no_progress with_reducible apply Ok.parts

theorem execCalRunDone_ok {x0 : List CalRaw} {x1 : List CalPhase} {x2 : State} (h2 : x2.Ok q n) : OutOk q n (execCalRunDone x0 x1 x2) := by
  unfold execCalRunDone
  repeat' first
    | (with_reducible first | assumption | apply OutOk.next | apply calRunStaged_ok | apply calRunEnded_ok | apply freeTdc_ok
                            | apply resultWord_ok | apply complete_ok | apply forAll_ok)
    | split

theorem execCalCommit_ok {x0 : Desc} {x1 : State} (h1 : x1.Ok q n) : OutOk q n (execCalCommit x0 x1) := by
  unfold execCalCommit
  repeat' first
    | (intro)
    | (with_reducible first | assumption | apply OutOk.next | apply runCmd_ok | apply checked_ok | apply State.w_ok)
    | (extract_lets +onlyGivenNames t; (have hs : State.Ok q n t := ?_); on_goal 1 => (clear_value t; revert t; intro u hs))
    | fail_if_no_progress with_reducible apply Ok.parts

theorem saveMap_ok {x0 : State} (h0 : x0.Ok q n) : (saveMap x0).Ok q n := by
  unfold saveMap
  repeat' (with_reducible first | assumption | apply recWrite_ok)

theorem saveTrims_ok {x0 : State} (h0 : x0.Ok q n) : (saveTrims x0).Ok q n := by
  unfold saveTrims
  repeat' (with_reducible first | assumption | apply recWrite_ok)

theorem commitPoint_ok {x0 : Nat} {x1 : State} (h1 : x1.Ok q n) : (commitPoint x0 x1).Ok q n := by
  unfold commitPoint
  repeat' (with_reducible first | assumption | apply putSet_ok | apply State.w_ok | apply measure_ok | apply saveMap_ok)

theorem commitTrims_ok {x0 : State} (h0 : x0.Ok q n) : (commitTrims x0).Ok q n := by
  unfold commitTrims
  repeat' first
    | (with_reducible first | assumption | apply measure_ok | apply saveTrims_ok | apply putSet_ok)
    | fail_if_no_progress with_reducible apply Ok.parts

theorem commitEnded_ok {x0 : State} (h0 : x0.Ok q n) : (commitEnded x0).Ok q n := by
  unfold commitEnded
  repeat' first
    | (intro)
    | (with_reducible first | assumption | apply retarget_ok | apply State.setF_ok | apply forAll_ok)
    | (extract_lets +onlyGivenNames t; (have hs : State.Ok q n t := ?_); on_goal 1 => (clear_value t; revert t; intro u hs))
    | split
    | fail_if_no_progress with_reducible apply Ok.parts

theorem execCalCommitDone_ok {x0 : State} (h0 : x0.Ok q n) : OutOk q n (execCalCommitDone x0) := by
  unfold execCalCommitDone
  repeat' first
    | (with_reducible first | assumption | apply OutOk.next | apply State.w_ok | apply complete_ok | apply commitEnded_ok
                            | apply commitPoint_ok | apply commitTrims_ok)
    | (extract_lets +onlyGivenNames t; (have hs : State.Ok q n t := ?_); on_goal 1 => (clear_value t; revert t; intro u hs))
    | split
    | fail_if_no_progress with_reducible apply Ok.parts

theorem execCalDiscard_ok {x0 : Desc} {x1 : State} (h1 : x1.Ok q n) : OutOk q n (execCalDiscard x0 x1) := by
  unfold execCalDiscard
  repeat' first
    | (intro)
    | (with_reducible first | assumption | apply OutOk.next | apply runCmd_ok | apply State.w_ok)
    | (extract_lets +onlyGivenNames t; (have hs : State.Ok q n t := ?_); on_goal 1 => (clear_value t; revert t; intro u hs))
    | fail_if_no_progress with_reducible apply Ok.parts

theorem sysoffFrom_ok {x0 : Desc} {x1 : Nat} {x2 : List Nat} {x3 : State} (h3 : x3.Ok q n) : (sysoffFrom x0 x1 x2 x3).Ok q n := by
  induction x2 generalizing x0 x1 x3 with
  | nil =>
    unfold sysoffFrom
    repeat' first
      | (intro)
      | (with_reducible first | assumption | apply ih | apply State.w_ok | apply tdRefresh_ok | apply forAll_ok)
      | split
  | cons b r ih =>
    unfold sysoffFrom
    repeat' first
      | (intro)
      | (with_reducible first | assumption | apply ih | apply State.w_ok | apply tdRefresh_ok | apply forAll_ok)
      | split

theorem calSysoffAct_ok {x0 : Desc} {x1 : State} (h1 : x1.Ok q n) : (calSysoffAct x0 x1).after.Ok q n := by
  unfold calSysoffAct
  repeat' (with_reducible first | assumption | apply sysoffFrom_ok)

theorem execCalSysoff_ok {x0 : Desc} {x1 : State} (h1 : x1.Ok q n) : OutOk q n (execCalSysoff x0 x1) := by
  unfold execCalSysoff
  repeat' (with_reducible first | assumption | apply OutOk.next | apply runAct_ok | apply calSysoffAct_ok)

end Sys2Proof.Machine
end

