-- ==== Sys2Proof/Laws/KeepTdc.lean ====
section
/-! SUPPORT. What timestamps and measurements keep: the canonical form of memories and registers, the queue and the time. -/

namespace Sys2Proof.Machine
variable {q : List Instr} {n : Nat}

theorem setMstate_ok {x0 x1 : Nat} {x2 : State} (h2 : x2.Ok q n) : (setMstate x0 x1 x2).Ok q n := by
  unfold setMstate
  repeat' first | (intro) | (with_reducible first | assumption | apply State.w_ok | apply State.onMs_ok | apply forAll_ok)

theorem writeResult_ok {x0 : Meas} {x1 x2 : Nat} {x3 : Path} {x4 : State} (h4 : x4.Ok q n) : (writeResult x0 x1 x2 x3 x4).Ok q n := by
  unfold writeResult
  repeat' (with_reducible first | assumption | apply State.winStore_ok)

theorem endMeas_ok {x0 x1 : Nat} {x2 : State} (h2 : x2.Ok q n) : (endMeas x0 x1 x2).Ok q n := by
  unfold endMeas
  repeat' first | (with_reducible first | assumption | apply State.onMs_ok) | split

theorem parkMeas_ok {x0 x1 : List Nat} {x2 : State} (h2 : x2.Ok q n) : (parkMeas x0 x1 x2).Ok q n := by
  unfold parkMeas
  repeat' first | (intro) | (with_reducible first | assumption | apply endMeas_ok | apply forAll_ok) | split

theorem parkAllMeas_ok {x0 : State} (h0 : x0.Ok q n) : (parkAllMeas x0).Ok q n := by
  unfold parkAllMeas
  repeat' first | (intro) | (with_reducible first | assumption | apply endMeas_ok | apply forAll_ok)

theorem preemptTdcs_ok {x0 : List Nat} {x1 : State} (h1 : x1.Ok q n) : (preemptTdcs x0 x1).Ok q n := by
  unfold preemptTdcs
  repeat' first | (intro) | (with_reducible first | assumption | apply endMeas_ok | apply forAll_ok) | split

theorem stopMeas_ok {x0 : Nat} {x1 : State} (h1 : x1.Ok q n) : (stopMeas x0 x1).Ok q n := by
  unfold stopMeas
  repeat' first | (intro) | (with_reducible first | assumption | apply endMeas_ok | apply forAll_ok) | split

theorem gateVec_ok {x0 x1 x2 x3 : Nat} {x4 : State} (h4 : x4.Ok q n) : (gateVec x0 x1 x2 x3 x4).Ok q n := by
  unfold gateVec
  repeat' first | (intro) | (with_reducible first | assumption | apply State.onMs_ok | apply forAll_ok) | split

theorem gateXtrig_ok {x0 x1 : Nat} {x2 : State} (h2 : x2.Ok q n) : (gateXtrig x0 x1 x2).Ok q n := by
  unfold gateXtrig
  repeat' first | (intro) | (with_reducible first | assumption | apply State.onMs_ok | apply forAll_ok)

theorem addSample_ok {x0 : Nat} {x1 : Int} {x2 : Nat} {x3 : Stamp} {x4 : State} (h4 : x4.Ok q n) : (addSample x0 x1 x2 x3 x4).Ok q n := by
  unfold addSample
  repeat' first
    | (with_reducible first | assumption | apply State.onMs_ok | apply State.w_ok | apply endMeas_ok)
    | (extract_lets +onlyGivenNames t; (have hs : State.Ok q n t := ?_); on_goal 1 => (clear_value t; revert t; intro u hs))
    | (fail_if_no_progress extract_lets +onlyGivenNames u)
    | split

theorem pairUp_ok {x0 : Nat} {x1 x2 : Stamp} {x3 : State} (h3 : x3.Ok q n) : (pairUp x0 x1 x2 x3).Ok q n := by
  unfold pairUp
  repeat' first
    | (unfold t; clear t)
    | (with_reducible first | assumption | apply State.onMs_ok | apply addSample_ok)
    | (extract_lets +onlyGivenNames t; (have hs : State.Ok q n t := ?_); on_goal 1 => (clear_value t; revert t; intro u hs))
    | (fail_if_no_progress extract_lets +onlyGivenNames u)
    | split

theorem orderedStop_ok {x0 : Nat} {x1 : Stamp} {x2 : State} (h2 : x2.Ok q n) : (orderedStop x0 x1 x2).Ok q n := by
  unfold orderedStop
  repeat' first | (with_reducible first | assumption | apply State.onMs_ok | apply pairUp_ok) | split

theorem breakSigned_ok {x0 x1 : Nat} {x2 : State} (h2 : x2.Ok q n) : (breakSigned x0 x1 x2).Ok q n := by
  unfold breakSigned
  repeat' first
    | (with_reducible first | assumption | apply State.onMs_ok)
    | (fail_if_no_progress extract_lets +onlyGivenNames u)
    | split

theorem signedStamp_ok {x0 : Nat} {x1 : Stamp} {x2 : State} (h2 : x2.Ok q n) : (signedStamp x0 x1 x2).Ok q n := by
  unfold signedStamp
  repeat' first
    | (with_reducible first | assumption | apply State.onMs_ok | apply pairUp_ok)
    | (fail_if_no_progress extract_lets +onlyGivenNames u)
    | split

theorem ownSample_ok {x0 : Nat} {x1 x2 : Stamp} {x3 : Int} {x4 : Nat} {x5 : State} (h5 : x5.Ok q n) : (ownSample x0 x1 x2 x3 x4 x5).Ok q n := by
  unfold ownSample
  repeat' first | (with_reducible first | assumption | apply State.onMs_ok | apply addSample_ok) | split

theorem edgeSample_ok {x0 : Nat} {x1 : Stamp} {x2 : State} (h2 : x2.Ok q n) : (edgeSample x0 x1 x2).Ok q n := by
  unfold edgeSample
  repeat' first
    | (with_reducible first | assumption | apply addSample_ok | apply State.onMs_ok)
    | (fail_if_no_progress extract_lets +onlyGivenNames u)
    | split

theorem useStamp_ok {x0 : Nat} {x1 : Stamp} {x2 : State} (h2 : x2.Ok q n) : (useStamp x0 x1 x2).Ok q n := by
  unfold useStamp
  repeat' first
    | (with_reducible first | assumption | apply signedStamp_ok | apply State.onMs_ok | apply orderedStop_ok | apply ownSample_ok
                            | apply edgeSample_ok)
    | (extract_lets +onlyGivenNames t; (have hs : State.Ok q n t := ?_); on_goal 1 => (clear_value t; revert t; intro u hs))
    | (fail_if_no_progress extract_lets +onlyGivenNames u)
    | split

theorem takeStamp_ok {x0 : Nat} {x1 : Stamp} {x2 : State} (h2 : x2.Ok q n) : (takeStamp x0 x1 x2).Ok q n := by
  unfold takeStamp
  repeat' first
    | (with_reducible first | assumption | apply breakSigned_ok | apply State.onMs_ok | apply useStamp_ok)
    | (extract_lets +onlyGivenNames t; (have hs : State.Ok q n t := ?_); on_goal 1 => (clear_value t; revert t; intro u hs))
    | split

theorem takeStamps_ok {x0 x1 : Nat} {x2 : State} (h2 : x2.Ok q n) : (takeStamps x0 x1 x2).Ok q n := by
  unfold takeStamps
  repeat' first | (intro) | (with_reducible first | assumption | apply State.onMs_ok | apply takeStamp_ok | apply Ok.foldl)

theorem measTick_ok {x0 : State} (h0 : x0.Ok q n) : (measTick x0).Ok q n := by
  unfold measTick
  repeat' (with_reducible first | assumption | apply takeStamps_ok | apply forAll_ok)

theorem closeMeas_ok {x0 x1 : Nat} {x2 : State} (h2 : x2.Ok q n) : (closeMeas x0 x1 x2).Ok q n := by
  unfold closeMeas
  repeat' first
    | (intro)
    | (with_reducible first | assumption | apply takeStamps_ok | apply State.onMs_ok | apply breakSigned_ok | apply writeResult_ok
                            | apply State.w_ok | apply setMstate_ok | apply post_ok | apply unfreezeTdc_ok | apply event_ok
                            | apply forAll_ok)

theorem closeMeasures_ok {x0 : State} (h0 : x0.Ok q n) : (closeMeasures x0).Ok q n := by
  unfold closeMeasures
  repeat' first | (intro) | (with_reducible first | assumption | apply closeMeas_ok | apply forAll_ok) | split

theorem loseEdge_ok {x0 : Nat} {x1 : Fld} {x2 : State} (h2 : x2.Ok q n) : (loseEdge x0 x1 x2).Ok q n := by
  unfold loseEdge
  repeat' (with_reducible first | assumption | apply openGap_ok | apply State.setF_ok | apply State.inc_ok)

theorem tdcEdge_ok {x0 x1 x2 : Nat} {x3 : State} (h3 : x3.Ok q n) : (tdcEdge x0 x1 x2 x3).2.Ok q n := by
  unfold tdcEdge
  repeat' first | (with_reducible first | assumption | apply loseEdge_ok | apply State.onTd_ok | apply State.inc_ok) | split

theorem stripStamp_ok {x0 x1 : Nat} {x2 : State} (h2 : x2.Ok q n) : (stripStamp x0 x1 x2).Ok q n := by
  unfold stripStamp
  repeat' first | (with_reducible first | assumption | apply State.onCu_ok) | split

theorem stripEdge_ok {x0 : Nat} {x1 x2 : Bool} {x3 x4 : Nat} {x5 : State} (h5 : x5.Ok q n) : (stripEdge x0 x1 x2 x3 x4 x5).Ok q n := by
  unfold stripEdge
  repeat' first
    | (with_reducible first | assumption | apply tdcEdge_ok | apply stripStamp_ok | apply State.onCu_ok)
    | (fail_if_no_progress extract_lets +onlyGivenNames u)
    | split
    | with_reducible refine Ok.snd (by assumption) ?_

theorem measEdge_ok {x0 : Nat} {x1 x2 : Bool} {x3 x4 : Nat} {x5 : State} (h5 : x5.Ok q n) : (measEdge x0 x1 x2 x3 x4 x5).Ok q n := by
  unfold measEdge
  repeat' first
    | (with_reducible first | assumption | apply State.onTd_ok | apply tdcEdge_ok | apply State.onMs_ok)
    | (fail_if_no_progress extract_lets +onlyGivenNames u)
    | split
    | with_reducible refine Ok.snd (by assumption) ?_

theorem execTdcStamp_ok {x0 : Fin 1040} {x1 x2 : Bool} {x3 : Nat} {x4 : Fin 1024} {x5 : State} (h5 : x5.Ok q n) : OutOk q n (execTdcStamp x0 x1 x2 x3 x4 x5) := by
  unfold execTdcStamp
  repeat' first
    | (with_reducible first | assumption | apply OutOk.next | apply stripEdge_ok | apply measEdge_ok)
    | (fail_if_no_progress extract_lets +onlyGivenNames u)
    | split

theorem armMeas_ok {x0 : Nat} {x1 : State} (h1 : x1.Ok q n) : (armMeas x0 x1).Ok q n := by
  unfold armMeas
  repeat' first
    | (intro)
    | (with_reducible first | assumption | apply State.onMs_ok | apply State.onTd_ok | apply tdRefresh_ok | apply setMstate_ok
                            | apply State.w_ok | apply forAll_ok)

theorem execTdcArmInstant_ok {x0 : Fin 1040} {x1 : State} (h1 : x1.Ok q n) : OutOk q n (execTdcArmInstant x0 x1) := by
  unfold execTdcArmInstant
  repeat' first | (with_reducible first | assumption | apply OutOk.next | apply armMeas_ok) | split

theorem gateWindow_ok {x0 : Nat} {x1 : State} (h1 : x1.Ok q n) : (gateWindow x0 x1).Ok q n := by
  unfold gateWindow
  repeat' first
    | (with_reducible first | assumption | apply takeStamps_ok | apply State.onMs_ok | apply ownSample_ok)
    | (extract_lets +onlyGivenNames t; (have hs : State.Ok q n t := ?_); on_goal 1 => (clear_value t; revert t; intro u hs))
    | (fail_if_no_progress extract_lets +onlyGivenNames u)
    | split

theorem execFreqGateWindow_ok {x0 : Fin 1040} {x1 : State} (h1 : x1.Ok q n) : OutOk q n (execFreqGateWindow x0 x1) := by
  unfold execFreqGateWindow
  repeat' first
    | (with_reducible first | assumption | apply OutOk.next | apply gateWindow_ok)
    | (fail_if_no_progress extract_lets +onlyGivenNames u)
    | split

theorem execMeasurementTimeout_ok {x0 : Fin 1040} {x1 : State} (h1 : x1.Ok q n) : OutOk q n (execMeasurementTimeout x0 x1) := by
  unfold execMeasurementTimeout
  repeat' first
    | (with_reducible first | assumption | apply OutOk.next | apply endMeas_ok)
    | (fail_if_no_progress extract_lets +onlyGivenNames u)
    | split

theorem freeMeas_ok {x0 : Nat} {x1 : State} (h1 : x1.Ok q n) : (freeMeas x0 x1).Ok q n := by
  unfold freeMeas
  repeat' first | (intro) | (with_reducible first | assumption | apply State.w_ok | apply setMstate_ok | apply forAll_ok) | split

theorem setupMeas_ok {x0 : Nat} {x1 : Path} {x2 : Nat} {x3 : State} (h3 : x3.Ok q n) : (setupMeas x0 x1 x2 x3).Ok q n := by
  unfold setupMeas
  repeat' first
    | (with_reducible first | assumption | apply freeMeas_ok | apply State.onMs_ok | apply State.w_ok | apply setMstate_ok)
    | split

theorem execTdcSetup_ok {x0 : Desc} {x1 : State} (h1 : x1.Ok q n) : OutOk q n (execTdcSetup x0 x1) := by
  unfold execTdcSetup
  repeat' first
    | (intro)
    | (with_reducible first | assumption | apply OutOk.next | apply runCmd_ok | apply checked_ok | apply setupMeas_ok)

theorem execTdcArm_ok {x0 : Desc} {x1 : State} (h1 : x1.Ok q n) : OutOk q n (execTdcArm x0 x1) := by
  unfold execTdcArm
  repeat' first
    | (intro)
    | (with_reducible first | assumption | apply OutOk.next | apply runCmd_ok | apply checked_ok | apply State.onMs_ok
                            | apply forAll_ok)

theorem execTdcResult_ok {x0 : Desc} {x1 : State} (h1 : x1.Ok q n) : OutOk q n (execTdcResult x0 x1) := by
  unfold execTdcResult
  repeat' first
    | (intro)
    | (with_reducible first | assumption | apply OutOk.next | apply runCmd_ok | apply checked_ok | apply writeResult_ok)

theorem execTdcAbort_ok {x0 : Desc} {x1 : State} (h1 : x1.Ok q n) : OutOk q n (execTdcAbort x0 x1) := by
  unfold execTdcAbort
  repeat' first
    | (intro)
    | (with_reducible first | assumption | apply OutOk.next | apply runCmd_ok | apply checked_ok | apply endMeas_ok
                            | apply forAll_ok)

theorem execTdcRelease_ok {x0 : Desc} {x1 : State} (h1 : x1.Ok q n) : OutOk q n (execTdcRelease x0 x1) := by
  unfold execTdcRelease
  repeat' first
    | (intro)
    | (with_reducible first | assumption | apply OutOk.next | apply runCmd_ok | apply checked_ok | apply freeMeas_ok
                            | apply forAll_ok)

theorem stripMask_ok {x0 x1 : Nat} {x2 : Bool} {x3 : State} (h3 : x3.Ok q n) : (stripMask x0 x1 x2 x3).Ok q n := by
  unfold stripMask
  repeat' first
    | (intro)
    | (with_reducible first | assumption | apply State.w_ok | apply tdRefresh_ok | apply State.onTd_ok | apply forAll_ok)
    | split

theorem tdcStripAct_ok {x0 : Desc} {x1 : State} (h1 : x1.Ok q n) : (tdcStripAct x0 x1).after.Ok q n := by
  unfold tdcStripAct
  repeat' (with_reducible first | assumption | apply State.w_ok | apply stripMask_ok)

theorem execTdcStrip_ok {x0 : Desc} {x1 : State} (h1 : x1.Ok q n) : OutOk q n (execTdcStrip x0 x1) := by
  unfold execTdcStrip
  repeat' (with_reducible first | assumption | apply OutOk.next | apply runAct_ok | apply tdcStripAct_ok)

end Sys2Proof.Machine
end

