-- ==== Sys2Proof/Laws/KeepStop.lean ====
section
/-! SUPPORT. What stops and park keep: the canonical form of memories and registers, the queue and the time. -/

namespace Sys2Proof.Machine
variable {q : List Instr} {n : Nat}

theorem marksOff_ok {x0 : Nat} {x1 : State} (h1 : x1.Ok q n) : (marksOff x0 x1).Ok q n := by
  unfold marksOff
  repeat' first
    | (intro)
    | (with_reducible first | assumption | apply forAll_ok)
    | split
    | fail_if_no_progress with_reducible apply Ok.parts

theorem lockTracker_ok {x0 : Nat} {x1 : State} (h1 : x1.Ok q n) : (lockTracker x0 x1).Ok q n := by
  unfold lockTracker
  repeat' (with_reducible first | assumption | apply event_ok | apply State.w_ok)

theorem restartTracker_ok {x0 : Nat} {x1 : State} (h1 : x1.Ok q n) : (restartTracker x0 x1).Ok q n := by
  unfold restartTracker
  repeat' first
    | (with_reducible first | assumption | apply State.onPt_ok | apply State.w_ok | apply lockTracker_ok)
    | (extract_lets +onlyGivenNames t; (have hs : State.Ok q n t := ?_); on_goal 1 => (clear_value t; revert t; intro u hs))
    | split

theorem stopAcq_ok {x0 : Nat} {x1 : Bool} {x2 : State} (h2 : x2.Ok q n) : (stopAcq x0 x1 x2).Ok q n := by
  unfold stopAcq
  repeat' first
    | (with_reducible first | assumption | apply endAcq_ok)
    | (fail_if_no_progress extract_lets +onlyGivenNames u)
    | split

theorem summaries_ok {x0 : Nat} {x1 : State} (h1 : x1.Ok q n) : (summaries x0 x1).Ok q n := by
  unfold summaries
  repeat' first
    | (intro)
    | (with_reducible first | assumption | apply post_ok | apply forAll_ok)
    | (extract_lets +onlyGivenNames t; (have hs : State.Ok q n t := ?_); on_goal 1 => (clear_value t; revert t; intro u hs))
    | split
    | fail_if_no_progress with_reducible apply Ok.parts

theorem raiseInt_ok {x0 x1 : Nat} {x2 : State} (h2 : x2.Ok q n) : (raiseInt x0 x1 x2).Ok q n := by
  unfold raiseInt
  repeat' first
    | (with_reducible first | assumption | apply State.w_ok | apply State.onSq_ok)
    | (extract_lets +onlyGivenNames t; (have hs : State.Ok q n t := ?_); on_goal 1 => (clear_value t; revert t; intro u hs))
    | split

theorem traceSeg_ok {x0 x1 : Nat} {x2 : State} (h2 : x2.Ok q n) : (traceSeg x0 x1 x2).Ok q n := by
  unfold traceSeg
  repeat' first
    | (with_reducible first | assumption | apply raiseInt_ok)
    | (fail_if_no_progress extract_lets +onlyGivenNames u)
    | split

theorem reportStop_ok {x0 : Nat} {x1 : State} (h1 : x1.Ok q n) : (reportStop x0 x1).Ok q n := by
  unfold reportStop
  repeat' (with_reducible first | assumption | apply summaries_ok | apply event_ok)

theorem reportEnded_ok {x0 : State} (h0 : x0.Ok q n) : (reportEnded x0).Ok q n := by
  unfold reportEnded
  repeat' (with_reducible first | assumption | apply reportStop_ok | apply onCyc_ok | apply forAll_ok)

theorem finishStop_ok {x0 : Nat} {x1 : Bool} {x2 : State} (h2 : x2.Ok q n) : (finishStop x0 x1 x2).Ok q n := by
  unfold finishStop
  repeat' first
    | (with_reducible first | assumption | apply stopAcq_ok | apply marksOff_ok | apply State.w_ok | apply State.onPt_ok
                            | apply restartTracker_ok | apply onCyc_ok | apply reportStop_ok | apply askFlush_ok | apply parkChan_ok
                            | apply raiseInt_ok | apply applyPitch_ok | apply stopMeas_ok | apply forAll_ok)
    | split

theorem abandon_ok {x0 x1 : Nat} {x2 : State} (h2 : x2.Ok q n) : (abandon x0 x1 x2).Ok q n := by
  unfold abandon
  repeat' (with_reducible first | assumption | apply onCyc_ok | apply State.onPt_ok | apply State.w_ok)

theorem refuseStarts_ok {x0 : StartNow → Bool} {x1 : State} (h1 : x1.Ok q n) : (refuseStarts x0 x1).Ok q n := by
  unfold refuseStarts
  repeat' first
    | (intro)
    | (with_reducible first | assumption | apply State.onPt_ok | apply State.w_ok | apply onCyc_ok | apply forAll_ok)
    | split

theorem parkFlush_ok {x0 : Nat} {x1 : State} (h1 : x1.Ok q n) : (parkFlush x0 x1).Ok q n := by
  unfold parkFlush
  repeat' first | (with_reducible first | assumption | apply askFlush_ok) | split

theorem higherCause_ok {x0 x1 : Nat} {x2 : State} (h2 : x2.Ok q n) : (higherCause x0 x1 x2).Ok q n := by
  unfold higherCause
  repeat' first | (with_reducible first | assumption | apply State.w_ok) | split

theorem parkRun_ok {x0 x1 x2 : Nat} {x3 : State} (h3 : x3.Ok q n) : (parkRun x0 x1 x2 x3).Ok q n := by
  unfold parkRun
  repeat' first
    | (with_reducible first | assumption | apply parkChan_ok | apply parkMeas_ok | apply abandon_ok | apply finishStop_ok
                            | apply marksOff_ok | apply fixStop_ok | apply higherCause_ok | apply forAll_ok)
    | (extract_lets +onlyGivenNames t; (have hs : State.Ok q n t := ?_); on_goal 1 => (clear_value t; revert t; intro u hs))
    | split

theorem parkPitch_ok {x0 x1 x2 : Nat} {x3 : State} (h3 : x3.Ok q n) : (parkPitch x0 x1 x2 x3).Ok q n := by
  unfold parkPitch
  repeat' (with_reducible first | assumption | apply parkFlush_ok | apply parkRun_ok)

theorem parkChans_ok {x0 : Nat} {x1 : List Nat} {x2 : State} (h2 : x2.Ok q n) : (parkChans x0 x1 x2).Ok q n := by
  unfold parkChans
  repeat' (with_reducible first | assumption | apply parkRun_ok | apply parkFlush_ok | apply parkMeas_ok | apply parkChan_ok | apply forAll_ok)

theorem parkAll_ok {x0 : Nat} {x1 : State} (h1 : x1.Ok q n) : (parkAll x0 x1).Ok q n := by
  unfold parkAll
  repeat' (with_reducible first | assumption | apply parkRun_ok | apply parkFlush_ok | apply parkAllMeas_ok | apply parkChan_ok | apply forAll_ok)

end Sys2Proof.Machine
end

