-- ==== Sys2Proof/Laws/KeepTimeline.lean ====
section
/-! SUPPORT. What pitches and trackers keep: the canonical form of memories and registers, the queue and the time. -/

namespace Sys2Proof.Machine
variable {q : List Instr} {n : Nat}

theorem releaseSource_ok {x0 : Nat} {x1 : State} (h1 : x1.Ok q n) : (releaseSource x0 x1).Ok q n := by
  unfold releaseSource
  repeat' first
    | (with_reducible first | assumption | apply State.w_ok)
    | (extract_lets +onlyGivenNames t; (have hs : State.Ok q n t := ?_); on_goal 1 => (clear_value t; revert t; intro u hs))
    | split

theorem takeSource_ok {x0 : Nat} {x1 : State} (h1 : x1.Ok q n) : (takeSource x0 x1).Ok q n := by
  unfold takeSource
  repeat' first
    | (unfold t; clear t)
    | (with_reducible first | assumption | apply preemptTdcs_ok | apply State.onTd_ok | apply State.w_ok | apply State.onCh_ok
                            | apply State.setF_ok)
    | (extract_lets +onlyGivenNames t; (have hs : State.Ok q n t := ?_); on_goal 1 => (clear_value t; revert t; intro u hs))
    | split
    | fail_if_no_progress with_reducible apply Ok.parts

theorem follow_ok {x0 : Nat} {x1 : List Nat} {x2 : State} (h2 : x2.Ok q n) : (follow x0 x1 x2).Ok q n := by
  unfold follow
  repeat' first
    | (intro)
    | (with_reducible first | assumption | apply releaseSource_ok | apply State.wImg_ok | apply restartTracker_ok
                            | apply takeSource_ok | apply Ok.foldl)

theorem seqFollowAct_ok {x0 : Desc} {x1 : State} (h1 : x1.Ok q n) : (seqFollowAct x0 x1).after.Ok q n := by
  unfold seqFollowAct
  repeat' (with_reducible first | assumption | apply follow_ok)

theorem execSeqFollow_ok {x0 : Desc} {x1 : State} (h1 : x1.Ok q n) : OutOk q n (execSeqFollow x0 x1) := by
  unfold execSeqFollow
  repeat' (with_reducible first | assumption | apply OutOk.next | apply runAct_ok | apply seqFollowAct_ok)

theorem phWrite_ok {x0 : Nat} {x1 : Reg} {x2 : Nat} {x3 : State} (h3 : x3.Ok q n) : (phWrite x0 x1 x2 x3).Ok q n := by
  unfold phWrite
  repeat' first | (with_reducible first | assumption | apply State.setF_ok | apply follow_ok) | split

theorem execPhRegisterWrite_ok {x0 : Fin 32} {x1 : PhReg} {x2 : Nat} {x3 : State} (h3 : x3.Ok q n) : OutOk q n (execPhRegisterWrite x0 x1 x2 x3) := by
  unfold execPhRegisterWrite
  repeat' (with_reducible first | assumption | apply OutOk.next | apply phWrite_ok)

theorem toService_ok {x0 : Nat} {x1 : State} (h1 : x1.Ok q n) : (toService x0 x1).Ok q n := by
  unfold toService
  repeat' first
    | (with_reducible first | assumption | apply State.onSq_ok | apply State.w_ok)
    | (extract_lets +onlyGivenNames t; (have hs : State.Ok q n t := ?_); on_goal 1 => (clear_value t; revert t; intro u hs))
    | split

theorem clearPrep_ok {x0 : Nat} {x1 : State} (h1 : x1.Ok q n) : (clearPrep x0 x1).Ok q n := by
  unfold clearPrep
  repeat' (with_reducible first | assumption | apply State.w_ok)

theorem touchPitch_ok {x0 : Nat} {x1 : State} (h1 : x1.Ok q n) : (touchPitch x0 x1).Ok q n := by
  unfold touchPitch
  repeat' (with_reducible first | assumption | apply State.w_ok | apply clearPrep_ok)

theorem dissolve_ok {x0 : Nat} {x1 : State} (h1 : x1.Ok q n) : (dissolve x0 x1).Ok q n := by
  unfold dissolve
  repeat' (with_reducible first | assumption | apply releaseSource_ok | apply State.w_ok | apply State.onPt_ok)

theorem loseGroups_ok {x0 x1 : Nat} {x2 : State} (h2 : x2.Ok q n) : (loseGroups x0 x1 x2).Ok q n := by
  unfold loseGroups
  repeat' first
    | (with_reducible first | assumption | apply touchPitch_ok | apply dissolve_ok | apply State.w_ok)
    | (extract_lets +onlyGivenNames t; (have hs : State.Ok q n t := ?_); on_goal 1 => (clear_value t; revert t; intro u hs))
    | (fail_if_no_progress extract_lets +onlyGivenNames u)
    | split

theorem form_ok {x0 x1 : Nat} {x2 : State} (h2 : x2.Ok q n) : (form x0 x1 x2).Ok q n := by
  unfold form
  repeat' first
    | (intro)
    | (unfold t; clear t)
    | (with_reducible first | assumption | apply endMeas_ok | apply loseGroups_ok | apply touchPitch_ok | apply dissolve_ok
                            | apply State.w_ok | apply toService_ok | apply event_ok | apply parkChan_ok | apply restartTracker_ok
                            | apply forAll_ok)
    | (extract_lets +onlyGivenNames t; (have hs : State.Ok q n t := ?_); on_goal 1 => (clear_value t; revert t; intro u hs))
    | (fail_if_no_progress extract_lets +onlyGivenNames u)
    | split

theorem seqFormAct_ok {x0 : Desc} {x1 : State} (h1 : x1.Ok q n) : (seqFormAct x0 x1).after.Ok q n := by
  unfold seqFormAct
  repeat' first | (unfold t; clear t) | (with_reducible first | assumption | apply form_ok)

theorem formEnd_ok {x0 : Desc} {x1 : List Nat} {x2 : State} (h2 : x2.Ok q n) : (formEnd x0 x1 x2).1.Ok q n := by
  unfold formEnd
  repeat' first | with_reducible assumption | split | fail_if_no_progress with_reducible apply Ok.parts

theorem execSeqForm_ok {x0 : Desc} {x1 : State} (h1 : x1.Ok q n) : OutOk q n (execSeqForm x0 x1) := by
  unfold execSeqForm
  repeat' first
    | (intro)
    | (with_reducible first | assumption | apply OutOk.next | apply runCmd_ok | apply seqFormAct_ok | apply checked_ok
                            | apply formEnd_ok)

theorem execGroupRamp_ok {x0 : State} (h0 : x0.Ok q n) : OutOk q n (execGroupRamp x0) := by
  unfold execGroupRamp
  repeat' first
    | (with_reducible first | assumption | apply OutOk.next | apply complete_ok)
    | (extract_lets +onlyGivenNames t; (have hs : State.Ok q n t := ?_); on_goal 1 => (clear_value t; revert t; intro u hs))
    | split
    | fail_if_no_progress with_reducible apply Ok.parts

theorem holdUnit_ok {x0 x1 : Nat} {x2 : State} (h2 : x2.Ok q n) : (holdUnit x0 x1 x2).Ok q n := by
  unfold holdUnit
  repeat' (with_reducible first | assumption | apply State.onCu_ok)

theorem holdSums_ok {x0 : Nat} {x1 : State} (h1 : x1.Ok q n) : (holdSums x0 x1).Ok q n := by
  unfold holdSums
  repeat' first | with_reducible assumption | fail_if_no_progress with_reducible apply Ok.parts

theorem holdLate_ok {x0 : Nat} {x1 : State} (h1 : x1.Ok q n) : (holdLate x0 x1).Ok q n := by
  unfold holdLate
  repeat' first
    | (intro)
    | (with_reducible first | assumption | apply holdSums_ok | apply holdUnit_ok | apply State.onCh_ok | apply State.onMs_ok
                            | apply forAll_ok)
    | split

theorem noteLost_ok {x0 : Nat} {x1 : LostLoop} {x2 : State} (h2 : x2.Ok q n) : (noteLost x0 x1 x2).Ok q n := by
  unfold noteLost
  repeat' (with_reducible first | assumption | apply State.onPt_ok)

theorem declareLoss_ok {x0 x1 : Nat} {x2 : State} (h2 : x2.Ok q n) : (declareLoss x0 x1 x2).Ok q n := by
  unfold declareLoss
  repeat' first
    | (with_reducible first | assumption | apply State.setW_ok | apply State.setF_ok | apply event_ok | apply noteLost_ok
                            | apply restartTracker_ok | apply holdLate_ok | apply abandon_ok | apply State.onPt_ok
                            | apply State.w_ok | apply planStop_ok | apply parkPitch_ok)
    | (extract_lets +onlyGivenNames t; (have hs : State.Ok q n t := ?_); on_goal 1 => (clear_value t; revert t; intro u hs))
    | split

theorem State.onTrk_ok {x0 : State} {x1 : Nat} {x2 : Tracker → Tracker} (h0 : x0.Ok q n) : (State.onTrk x0 x1 x2).Ok q n := by
  unfold State.onTrk
  repeat' (with_reducible first | assumption | apply State.onPt_ok)

theorem addCause_ok {x0 x1 : Nat} {x2 : State} (h2 : x2.Ok q n) : (addCause x0 x1 x2).Ok q n := by
  unfold addCause
  repeat' (with_reducible first | assumption | apply State.setW_ok)

theorem trackErr_ok {x0 : Nat} {x1 : Int} {x2 : State} (h2 : x2.Ok q n) : (trackErr x0 x1 x2).Ok q n := by
  unfold trackErr
  repeat' (with_reducible first | assumption | apply State.hi_ok | apply State.w_ok | apply State.onTrk_ok)

theorem acquireStamp_ok {x0 x1 : Nat} {x2 : State} (h2 : x2.Ok q n) : (acquireStamp x0 x1 x2).Ok q n := by
  unfold acquireStamp
  repeat' first
    | (with_reducible first | assumption | apply State.onTrk_ok | apply State.w_ok)
    | (extract_lets +onlyGivenNames t; (have hs : State.Ok q n t := ?_); on_goal 1 => (clear_value t; revert t; intro u hs))
    | (fail_if_no_progress extract_lets +onlyGivenNames u)
    | split

theorem beatEdgeAt_ok {x0 x1 x2 : Nat} {x3 : State} (h3 : x3.Ok q n) : (beatEdgeAt x0 x1 x2 x3).Ok q n := by
  unfold beatEdgeAt
  repeat' (with_reducible first | assumption | apply State.onPt_ok)

theorem lockStamp_ok {x0 x1 x2 : Nat} {x3 : LoopStep} {x4 : State} (h4 : x4.Ok q n) : (lockStamp x0 x1 x2 x3 x4).Ok q n := by
  unfold lockStamp
  repeat' first
    | (with_reducible first | assumption | apply State.onTrk_ok | apply lockTracker_ok)
    | (extract_lets +onlyGivenNames t; (have hs : State.Ok q n t := ?_); on_goal 1 => (clear_value t; revert t; intro u hs))
    | (fail_if_no_progress extract_lets +onlyGivenNames u)
    | split

theorem followStamp_ok {x0 x1 : Nat} {x2 : State} (h2 : x2.Ok q n) : (followStamp x0 x1 x2).Ok q n := by
  unfold followStamp
  repeat' first
    | (with_reducible first | assumption | apply addCause_ok | apply State.inc_ok | apply acquireStamp_ok | apply declareLoss_ok
                            | apply trackErr_ok | apply State.w_ok | apply beatEdgeAt_ok | apply lockStamp_ok)
    | (extract_lets +onlyGivenNames t; (have hs : State.Ok q n t := ?_); on_goal 1 => (clear_value t; revert t; intro u hs))
    | (fail_if_no_progress extract_lets +onlyGivenNames u)
    | split

theorem grefStamp_ok {x0 : Nat} {x1 : State} (h1 : x1.Ok q n) : (grefStamp x0 x1).Ok q n := by
  unfold grefStamp
  repeat' first
    | (intro)
    | (with_reducible first | assumption | apply State.inc_ok | apply State.onTrk_ok | apply onGuy_ok | apply forAll_ok)
    | split

theorem sourceStamp_ok {x0 : Nat} {x1 : Bool} {x2 x3 : Nat} {x4 : State} (h4 : x4.Ok q n) : (sourceStamp x0 x1 x2 x3 x4).Ok q n := by
  unfold sourceStamp
  repeat' first
    | (intro)
    | (with_reducible first | assumption | apply tdcEdge_ok | apply followStamp_ok | apply forAll_ok)
    | (fail_if_no_progress extract_lets +onlyGivenNames u)
    | split
    | with_reducible refine Ok.snd (by assumption) ?_

theorem refMissing_ok {x0 : Nat} {x1 : State} (h1 : x1.Ok q n) : (refMissing x0 x1).Ok q n := by
  unfold refMissing
  repeat' first | (with_reducible first | assumption | apply declareLoss_ok) | split

theorem execAcqTimeout_ok {x0 : Fin 32} {x1 : State} (h1 : x1.Ok q n) : OutOk q n (execAcqTimeout x0 x1) := by
  unfold execAcqTimeout
  repeat' first | (with_reducible first | assumption | apply OutOk.next | apply event_ok | apply State.w_ok) | split

theorem holdLimit_ok {x0 : Nat} {x1 : State} (h1 : x1.Ok q n) : (holdLimit x0 x1).Ok q n := by
  unfold holdLimit
  repeat' first | (with_reducible first | assumption | apply parkPitch_ok) | split

theorem loseGref_ok {x0 : Nat} {x1 : State} (h1 : x1.Ok q n) : (loseGref x0 x1).Ok q n := by
  unfold loseGref
  repeat' first
    | (intro)
    | (with_reducible first | assumption | apply addCause_ok | apply State.w_ok | apply declareLoss_ok | apply State.onTrk_ok
                            | apply State.setF_ok | apply forAll_ok)
    | (extract_lets +onlyGivenNames t; (have hs : State.Ok q n t := ?_); on_goal 1 => (clear_value t; revert t; intro u hs))
    | split
    | fail_if_no_progress with_reducible apply Ok.parts

theorem grefTimeout_ok {x0 : State} (h0 : x0.Ok q n) : (grefTimeout x0).Ok q n := by
  unfold grefTimeout
  repeat' first | (with_reducible first | assumption | apply loseGref_ok) | split

theorem grefCheck_ok {x0 : Int} {x1 : State} (h1 : x1.Ok q n) : (grefCheck x0 x1).Ok q n := by
  unfold grefCheck
  repeat' first
    | (with_reducible first | assumption | apply loseGref_ok)
    | split
    | fail_if_no_progress with_reducible apply Ok.parts

theorem execGrefReturn_ok {x0 : State} (h0 : x0.Ok q n) : OutOk q n (execGrefReturn x0) := by
  unfold execGrefReturn
  repeat' first
    | (with_reducible first | assumption | apply OutOk.next | apply State.setF_ok)
    | (extract_lets +onlyGivenNames t; (have hs : State.Ok q n t := ?_); on_goal 1 => (clear_value t; revert t; intro u hs))
    | split
    | fail_if_no_progress with_reducible apply Ok.parts

theorem execMultiplierLock_ok {x0 : State} (h0 : x0.Ok q n) : OutOk q n (execMultiplierLock x0) := by
  unfold execMultiplierLock
  repeat' first
    | (intro)
    | (with_reducible first | assumption | apply OutOk.next | apply State.w_ok | apply lockTracker_ok | apply forAll_ok)
    | (extract_lets +onlyGivenNames t; (have hs : State.Ok q n t := ?_); on_goal 1 => (clear_value t; revert t; intro u hs))
    | split
    | fail_if_no_progress with_reducible apply Ok.parts

theorem execTdcx00CalDone_ok {x0 : CalRaw} {x1 : State} (h1 : x1.Ok q n) : OutOk q n (execTdcx00CalDone x0 x1) := by
  unfold execTdcx00CalDone
  repeat' first | (with_reducible first | assumption | apply OutOk.next | apply calTdcx00_ok | apply State.w_ok) | split

theorem execMapSegmentPublish_ok {x0 : Fin 32} {x1 : State} (h1 : x1.Ok q n) : OutOk q n (execMapSegmentPublish x0 x1) := by
  unfold execMapSegmentPublish
  repeat' first
    | (with_reducible first | assumption | apply OutOk.next | apply State.onTrk_ok)
    | (fail_if_no_progress extract_lets +onlyGivenNames u)
    | split

end Sys2Proof.Machine
end

