-- ==== Sys2Proof/Laws/KeepSupply.lean ====
section
/-! SUPPORT. What vector supply keeps: the canonical form of memories and registers, the queue and the time. -/

namespace Sys2Proof.Machine
variable {q : List Instr} {n : Nat}

theorem chConfigAct_ok {x0 : Desc} {x1 : State} (h1 : x1.Ok q n) : (chConfigAct x0 x1).after.Ok q n := by
  unfold chConfigAct
  repeat' first | (intro) | (with_reducible first | assumption | apply State.wImg_ok | apply Ok.foldl)

theorem execChConfig_ok {x0 : Desc} {x1 : State} (h1 : x1.Ok q n) : OutOk q n (execChConfig x0 x1) := by
  unfold execChConfig
  repeat' (with_reducible first | assumption | apply OutOk.next | apply runAct_ok | apply chConfigAct_ok)

theorem tsetWriteAct_ok {x0 : Desc} {x1 : State} (h1 : x1.Ok q n) : (tsetWriteAct x0 x1).after.Ok q n := by
  unfold tsetWriteAct
  repeat' (with_reducible first | assumption | apply State.onGp_ok)

theorem execTsetWrite_ok {x0 : Desc} {x1 : State} (h1 : x1.Ok q n) : OutOk q n (execTsetWrite x0 x1) := by
  unfold execTsetWrite
  repeat' (with_reducible first | assumption | apply OutOk.next | apply runAct_ok | apply tsetWriteAct_ok)

theorem execTsetRead_ok {x0 : Desc} {x1 : State} (h1 : x1.Ok q n) : OutOk q n (execTsetRead x0 x1) := by
  unfold execTsetRead
  repeat' first | (intro) | (with_reducible first | assumption | apply OutOk.next | apply runCmd_ok | apply State.winStore_ok)

theorem tsetInvalidateAct_ok {x0 : Desc} {x1 : State} (h1 : x1.Ok q n) : (tsetInvalidateAct x0 x1).after.Ok q n := by
  unfold tsetInvalidateAct
  repeat' (with_reducible first | assumption | apply State.onGp_ok)

theorem execTsetInvalidate_ok {x0 : Desc} {x1 : State} (h1 : x1.Ok q n) : OutOk q n (execTsetInvalidate x0 x1) := by
  unfold execTsetInvalidate
  repeat' (with_reducible first | assumption | apply OutOk.next | apply runAct_ok | apply tsetInvalidateAct_ok)

theorem bind_ok {x0 x1 x2 x3 x4 : Nat} {x5 : Tab Nat} {x6 : State} (h6 : x6.Ok q n) : (bind x0 x1 x2 x3 x4 x5 x6).Ok q n := by
  unfold bind
  repeat' first
    | (with_reducible first | assumption | apply State.w_ok | apply State.store_ok | apply State.onGp_ok | apply clearPrep_ok)
    | (extract_lets +onlyGivenNames t; (have hs : State.Ok q n t := ?_); on_goal 1 => (clear_value t; revert t; intro u hs))
    | split

theorem execPatBind_ok {x0 : Desc} {x1 : Bool} {x2 : State} (h2 : x2.Ok q n) : OutOk q n (execPatBind x0 x1 x2) := by
  unfold execPatBind
  repeat' first
    | (intro)
    | (with_reducible first | assumption | apply OutOk.next | apply runCmd_ok | apply checked_ok | apply bind_ok)
    | fail_if_no_progress with_reducible apply Ok.parts

theorem execPatBindDone_ok {x0 : Fin 32} {x1 : State} (h1 : x1.Ok q n) : OutOk q n (execPatBindDone x0 x1) := by
  unfold execPatBindDone
  repeat' first
    | (with_reducible first | assumption | apply OutOk.next | apply complete_ok)
    | split
    | fail_if_no_progress with_reducible apply Ok.parts

theorem ringStore_ok {x0 x1 : Nat} {x2 : List Byte} {x3 : State} (h3 : x3.Ok q n) : (ringStore x0 x1 x2 x3).Ok q n := by
  unfold ringStore
  repeat' first
    | (with_reducible first | assumption | apply State.store_ok)
    | (fail_if_no_progress extract_lets +onlyGivenNames u)
    | split

theorem unalloc_ok {x0 : State} (h0 : x0.Ok q n) : (unalloc x0).Ok q n := by
  unfold unalloc
  repeat' (with_reducible first | assumption | apply State.w_ok)

theorem patQuotaAct_ok {x0 : Desc} {x1 : State} (h1 : x1.Ok q n) : (patQuotaAct x0 x1).after.Ok q n := by
  unfold patQuotaAct
  repeat' first
    | (with_reducible first | assumption | apply unalloc_ok | apply State.w_ok | apply clearPrep_ok)
    | (extract_lets +onlyGivenNames t; (have hs : State.Ok q n t := ?_); on_goal 1 => (clear_value t; revert t; intro u hs))
    | split

theorem execPatQuota_ok {x0 : Desc} {x1 : State} (h1 : x1.Ok q n) : OutOk q n (execPatQuota x0 x1) := by
  unfold execPatQuota
  repeat' (with_reducible first | assumption | apply OutOk.next | apply runAct_ok | apply patQuotaAct_ok)

theorem freeRing_ok {x0 : Nat} {x1 : State} (h1 : x1.Ok q n) : (freeRing x0 x1).Ok q n := by
  unfold freeRing
  repeat' first | (with_reducible first | assumption | apply State.w_ok | apply unalloc_ok | apply State.onRg_ok) | split

theorem patRingAct_ok {x0 : Desc} {x1 : State} (h1 : x1.Ok q n) : (patRingAct x0 x1).after.Ok q n := by
  unfold patRingAct
  repeat' first
    | (with_reducible first | assumption | apply freeRing_ok | apply State.w_ok | apply State.onRg_ok | apply unalloc_ok)
    | (extract_lets +onlyGivenNames t; (have hs : State.Ok q n t := ?_); on_goal 1 => (clear_value t; revert t; intro u hs))
    | split

theorem execPatRing_ok {x0 : Desc} {x1 : State} (h1 : x1.Ok q n) : OutOk q n (execPatRing x0 x1) := by
  unfold execPatRing
  repeat' (with_reducible first | assumption | apply OutOk.next | apply runAct_ok | apply patRingAct_ok)

theorem eatChunk_ok {x0 : Nat} {x1 : State} (h1 : x1.Ok q n) : (eatChunk x0 x1).Ok q n := by
  unfold eatChunk
  repeat' (with_reducible first | assumption | apply State.w_ok)

theorem swapJob_ok {x0 x1 : Job} {x2 : State} (h2 : x2.Ok q n) : (swapJob x0 x1 x2).Ok q n := by
  unfold swapJob
  repeat' first | with_reducible assumption | fail_if_no_progress with_reducible apply Ok.parts

theorem dropJob_ok {x0 : Job} {x1 : State} (h1 : x1.Ok q n) : (dropJob x0 x1).Ok q n := by
  unfold dropJob
  repeat' first | with_reducible assumption | fail_if_no_progress with_reducible apply Ok.parts

theorem stageEnd_ok {x0 : Job} {x1 x2 x3 : Nat} {x4 : State} (h4 : x4.Ok q n) : (stageEnd x0 x1 x2 x3 x4).Ok q n := by
  unfold stageEnd
  repeat' (with_reducible first | assumption | apply complete_ok | apply dropJob_ok)

theorem beginStages_ok {x0 x1 : Nat} {x2 : State} (h2 : x2.Ok q n) : (beginStages x0 x1 x2).Ok q n := by
  induction x1 generalizing x0 x2 with
  | zero =>
    unfold beginStages
    repeat' first
      | (with_reducible first | assumption | apply ih | apply swapJob_ok | apply stageEnd_ok | apply eatChunk_ok)
      | split
  | succ k ih =>
    unfold beginStages
    repeat' first
      | (with_reducible first | assumption | apply ih | apply swapJob_ok | apply stageEnd_ok | apply eatChunk_ok)
      | split

theorem nextStages_ok {x0 : Nat} {x1 : State} (h1 : x1.Ok q n) : (nextStages x0 x1).Ok q n := by
  unfold nextStages
  repeat' (with_reducible first | assumption | apply beginStages_ok)

theorem ringStages_ok {x0 x1 : Nat} {x2 : State} (h2 : x2.Ok q n) : (ringStages x0 x1 x2).Ok q n := by
  induction x1 generalizing x0 x2 with
  | zero =>
    unfold ringStages
    repeat' first
      | (with_reducible first | assumption | apply ih | apply nextStages_ok | apply swapJob_ok | apply eatChunk_ok
                              | apply stageEnd_ok)
      | split
  | succ k ih =>
    unfold ringStages
    repeat' first
      | (with_reducible first | assumption | apply ih | apply nextStages_ok | apply swapJob_ok | apply eatChunk_ok
                              | apply stageEnd_ok)
      | split

theorem execPatStage_ok {x0 : Desc} {x1 : Bool} {x2 : State} (h2 : x2.Ok q n) : OutOk q n (execPatStage x0 x1 x2) := by
  unfold execPatStage
  repeat' first
    | (intro)
    | (with_reducible first | assumption | apply OutOk.next | apply runCmd_ok | apply nextStages_ok)
    | fail_if_no_progress with_reducible apply Ok.parts

theorem copyBlocks_ok {x0 x1 x2 : Nat} {x3 : Option Nat} {x4 : List Nat} {x5 x6 : Nat} {x7 : State} (h7 : x7.Ok q n) : (copyBlocks x0 x1 x2 x3 x4 x5 x6 x7).1.Ok q n := by
  induction x4 generalizing x0 x1 x2 x3 x5 x6 x7 with
  | nil =>
    unfold copyBlocks
    repeat' first
      | (unfold t; clear t)
      | (with_reducible first | assumption | apply ih | apply State.store_ok)
      | (extract_lets +onlyGivenNames t; (have hs : State.Ok q n t := ?_); on_goal 1 => (clear_value t; revert t; intro u hs))
      | (fail_if_no_progress extract_lets +onlyGivenNames u)
      | split
  | cons b r ih =>
    unfold copyBlocks
    repeat' first
      | (unfold t; clear t)
      | (with_reducible first | assumption | apply ih | apply State.store_ok)
      | (extract_lets +onlyGivenNames t; (have hs : State.Ok q n t := ?_); on_goal 1 => (clear_value t; revert t; intro u hs))
      | (fail_if_no_progress extract_lets +onlyGivenNames u)
      | split

theorem execPatStageDone_ok {x0 : Fin 32} {x1 : Option Nat} {x2 : State} (h2 : x2.Ok q n) : OutOk q n (execPatStageDone x0 x1 x2) := by
  unfold execPatStageDone
  repeat' first
    | (unfold t; clear t)
    | (with_reducible first | assumption | apply OutOk.next | apply copyBlocks_ok | apply clearPrep_ok | apply event_ok
                            | apply eatChunk_ok | apply nextStages_ok | apply stageEnd_ok | apply ringStages_ok)
    | (extract_lets +onlyGivenNames t; (have hs : State.Ok q n t := ?_); on_goal 1 => (clear_value t; revert t; intro u hs))
    | split

theorem execStageChunkTimeout_ok {x0 : Fin 32} {x1 : State} (h1 : x1.Ok q n) : OutOk q n (execStageChunkTimeout x0 x1) := by
  unfold execStageChunkTimeout
  repeat' first | (with_reducible first | assumption | apply OutOk.next | apply nextStages_ok | apply stageEnd_ok) | split

theorem rejectRow_ok {x0 : Nat} {x1 : State} (h1 : x1.Ok q n) : (rejectRow x0 x1).Ok q n := by
  unfold rejectRow
  repeat' (with_reducible first | assumption | apply event_ok | apply State.setF_ok)

theorem refuseRow_ok {x0 x1 : Nat} {x2 : State} (h2 : x2.Ok q n) : (refuseRow x0 x1 x2).Ok q n := by
  unfold refuseRow
  repeat' (with_reducible first | assumption | apply State.w_ok | apply rejectRow_ok)

theorem acceptRows_ok {x0 x1 x2 : Nat} {x3 : State} (h3 : x3.Ok q n) : (acceptRows x0 x1 x2 x3).Ok q n := by
  induction x2 generalizing x0 x1 x3 with
  | zero =>
    unfold acceptRows
    repeat' first
      | (with_reducible first | assumption | apply ih | apply State.onRg_ok | apply refuseRow_ok)
      | (fail_if_no_progress extract_lets +onlyGivenNames u)
      | split
  | succ k ih =>
    unfold acceptRows
    repeat' first
      | (with_reducible first | assumption | apply ih | apply State.onRg_ok | apply refuseRow_ok)
      | (fail_if_no_progress extract_lets +onlyGivenNames u)
      | split

theorem srCommit_ok {x0 x1 : Nat} {x2 : State} (h2 : x2.Ok q n) : (srCommit x0 x1 x2).Ok q n := by
  unfold srCommit
  repeat' first
    | (with_reducible first | assumption | apply State.setF_ok | apply State.w_ok | apply acceptRows_ok | apply ringStages_ok)
    | (extract_lets +onlyGivenNames t; (have hs : State.Ok q n t := ?_); on_goal 1 => (clear_value t; revert t; intro u hs))
    | (fail_if_no_progress extract_lets +onlyGivenNames u)
    | split

theorem execSrCommit_ok {x0 : Fin 48} {x1 : Nat} {x2 : State} (h2 : x2.Ok q n) : OutOk q n (execSrCommit x0 x1 x2) := by
  unfold execSrCommit
  repeat' (with_reducible first | assumption | apply OutOk.next | apply srCommit_ok)

theorem fedRow_ok {x0 : Nat} {x1 : RingSrc} {x2 : State} (h2 : x2.Ok q n) : (fedRow x0 x1 x2).Ok q n := by
  unfold fedRow
  repeat' (with_reducible first | assumption | apply State.w_ok | apply ringStore_ok | apply State.onRg_ok)

theorem feedRows_ok {x0 x1 : Nat} {x2 : State} (h2 : x2.Ok q n) : (feedRows x0 x1 x2).Ok q n := by
  induction x1 generalizing x0 x2 with
  | zero =>
    unfold feedRows
    repeat' first
      | (with_reducible first | assumption | apply ih | apply fedRow_ok | apply rejectRow_ok | apply State.onRg_ok)
      | (fail_if_no_progress extract_lets +onlyGivenNames u)
      | split
  | succ k ih =>
    unfold feedRows
    repeat' first
      | (with_reducible first | assumption | apply ih | apply fedRow_ok | apply rejectRow_ok | apply State.onRg_ok)
      | (fail_if_no_progress extract_lets +onlyGivenNames u)
      | split

theorem execDeepStoreRowFeed_ok {x0 : Fin 48} {x1 : Nat} {x2 : State} (h2 : x2.Ok q n) : OutOk q n (execDeepStoreRowFeed x0 x1 x2) := by
  unfold execDeepStoreRowFeed
  repeat' (with_reducible first | assumption | apply OutOk.next | apply feedRows_ok)

theorem unpin_ok {x0 : Nat} {x1 : State} (h1 : x1.Ok q n) : (unpin x0 x1).Ok q n := by
  unfold unpin
  repeat' first | (intro) | (with_reducible first | assumption | apply State.onGp_ok | apply State.w_ok | apply forAll_ok)

theorem putGran_ok {x0 x1 : Nat} {x2 : Gran} {x3 : State} (h3 : x3.Ok q n) : (putGran x0 x1 x2 x3).Ok q n := by
  unfold putGran
  repeat' (with_reducible first | assumption | apply State.onGp_ok)

theorem poolFill_ok {x0 : Nat} {x1 : Bool} {x2 : Nat} {x3 : State} (h3 : x3.Ok q n) : (poolFill x0 x1 x2 x3).Ok q n := by
  unfold poolFill
  repeat' first | (with_reducible first | assumption | apply putGran_ok | apply State.setF_ok) | split

theorem fillSpans_ok {x0 : Nat} {x1 : Bool} {x2 : List Span} {x3 : State} (h3 : x3.Ok q n) : (fillSpans x0 x1 x2 x3).Ok q n := by
  induction x2 generalizing x0 x1 x3 with
  | nil =>
    unfold fillSpans
    repeat' first
      | (intro)
      | (unfold t; clear t)
      | (with_reducible first | assumption | apply ih | apply State.setF_ok | apply State.onGp_ok | apply poolFill_ok
                              | apply Ok.foldl)
      | (extract_lets +onlyGivenNames t; (have hs : State.Ok q n t := ?_); on_goal 1 => (clear_value t; revert t; intro u hs))
      | split
  | cons b r ih =>
    unfold fillSpans
    repeat' first
      | (intro)
      | (unfold t; clear t)
      | (with_reducible first | assumption | apply ih | apply State.setF_ok | apply State.onGp_ok | apply poolFill_ok
                              | apply Ok.foldl)
      | (extract_lets +onlyGivenNames t; (have hs : State.Ok q n t := ?_); on_goal 1 => (clear_value t; revert t; intro u hs))
      | split

theorem fillLead_ok {x0 : Nat} {x1 : Option (PathPos × Nat)} {x2 : Nat} {x3 : State} (h3 : x3.Ok q n) : (fillLead x0 x1 x2 x3).Ok q n := by
  unfold fillLead
  repeat' (with_reducible first | assumption | apply fillSpans_ok)

theorem pinItems_ok {x0 x1 : Nat} {x2 : State} (h2 : x2.Ok q n) : (pinItems x0 x1 x2).Ok q n := by
  unfold pinItems
  repeat' (with_reducible first | assumption | apply fillSpans_ok)

theorem execPatPrepare_ok {x0 : Desc} {x1 : State} (h1 : x1.Ok q n) : OutOk q n (execPatPrepare x0 x1) := by
  unfold execPatPrepare
  repeat' first
    | (intro)
    | (with_reducible first | assumption | apply OutOk.next | apply runCmd_ok | apply clearPrep_ok | apply loadWindow_ok
                            | apply unpin_ok)
    | (extract_lets +onlyGivenNames t; (have hs : State.Ok q n t := ?_); on_goal 1 => (clear_value t; revert t; intro u hs))
    | (fail_if_no_progress extract_lets +onlyGivenNames u)
    | split
    | fail_if_no_progress with_reducible apply Ok.parts

theorem prepareGroup_ok {x0 x1 : Nat} {x2 : State} (h2 : x2.Ok q n) : (prepareGroup x0 x1 x2).Ok q n := by
  unfold prepareGroup
  repeat' (with_reducible first | assumption | apply State.w_ok | apply fillLead_ok | apply pinItems_ok | apply State.onGp_ok)

theorem prepared_ok {x0 : Nat} {x1 : State} (h1 : x1.Ok q n) : (prepared x0 x1).Ok q n := by
  unfold prepared
  repeat' (with_reducible first | assumption | apply prepareGroup_ok | apply State.setF_ok | apply State.onPt_ok | apply forAll_ok)

theorem execPatPrepareDone_ok {x0 : Fin 32} {x1 : State} (h1 : x1.Ok q n) : OutOk q n (execPatPrepareDone x0 x1) := by
  unfold execPatPrepareDone
  repeat' first
    | (intro)
    | (with_reducible first | assumption | apply OutOk.next | apply dropJob_ok | apply complete_ok | apply prepared_ok | apply hf
                            | apply hg | apply hk | apply hl | apply hm)
    | (extract_lets +onlyGivenNames t; (have hs : State.Ok q n t := ?_); on_goal 1 => (clear_value t; revert t; intro u hs))
    | (extract_lets +onlyGivenNames t; (have hs : ∀ b c d a, State.Ok q n a → State.Ok q n (t b c d a) := ?_); on_goal 1 => (clear_value t; revert t; intro u hl))
    | (fail_if_no_progress extract_lets +onlyGivenNames u)
    | split

theorem execPatRelease_ok {x0 : Desc} {x1 : State} (h1 : x1.Ok q n) : OutOk q n (execPatRelease x0 x1) := by
  unfold execPatRelease
  repeat' first
    | (intro)
    | (with_reducible first | assumption | apply OutOk.next | apply runCmd_ok | apply checked_ok | apply clearPrep_ok
                            | apply unpin_ok)

end Sys2Proof.Machine
end

