-- ==== Sys2Proof/Laws/KeepSequencing.lean ====
section
/-! SUPPORT. What sequencer and capture commands keep: the canonical form of memories and registers, the queue and the time. -/

namespace Sys2Proof.Machine
variable {q : List Instr} {n : Nat}

theorem execSeqLoad_ok {x0 : Desc} {x1 : State} (h1 : x1.Ok q n) : OutOk q n (execSeqLoad x0 x1) := by
  unfold execSeqLoad
  repeat' first
    | (intro)
    | (with_reducible first | assumption | apply OutOk.next | apply runCmd_ok | apply checked_ok | apply touchPitch_ok)
    | (extract_lets +onlyGivenNames t; (have hs : State.Ok q n t := ?_); on_goal 1 => (clear_value t; revert t; intro u hs))
    | fail_if_no_progress with_reducible apply Ok.parts

theorem loadedTable_ok {x0 x1 x2 x3 x4 : Nat} {x5 : State} (h5 : x5.Ok q n) : (loadedTable x0 x1 x2 x3 x4 x5).Ok q n := by
  unfold loadedTable
  repeat' (with_reducible first | assumption | apply loadWindow_ok | apply State.w_ok | apply touchPitch_ok | apply State.store_ok)

theorem loadedBad_ok {x0 x1 x2 x3 x4 : Nat} {x5 : State} (h5 : x5.Ok q n) : (loadedBad x0 x1 x2 x3 x4 x5).Ok q n := by
  unfold loadedBad
  repeat' (with_reducible first | assumption | apply loadWindow_ok | apply State.w_ok | apply touchPitch_ok | apply State.store_ok)

theorem execSeqLoadDone_ok {x0 : Fin 32} {x1 : Bool} {x2 : State} (h2 : x2.Ok q n) : OutOk q n (execSeqLoadDone x0 x1 x2) := by
  unfold execSeqLoadDone
  repeat' first
    | (with_reducible first | assumption | apply OutOk.next | apply dropJob_ok | apply complete_ok | apply loadedBad_ok
                            | apply loadedTable_ok)
    | (extract_lets +onlyGivenNames t; (have hs : State.Ok q n t := ?_); on_goal 1 => (clear_value t; revert t; intro u hs))
    | (fail_if_no_progress extract_lets +onlyGivenNames u)
    | split

theorem execSeqProg_ok {x0 : Desc} {x1 : State} (h1 : x1.Ok q n) : OutOk q n (execSeqProg x0 x1) := by
  unfold execSeqProg
  repeat' first
    | (intro)
    | (with_reducible first | assumption | apply OutOk.next | apply runCmd_ok | apply checked_ok | apply loadWindow_ok
                            | apply touchPitch_ok | apply State.onPt_ok)

theorem execSeqFlag_ok {x0 : Desc} {x1 : State} (h1 : x1.Ok q n) : OutOk q n (execSeqFlag x0 x1) := by
  unfold execSeqFlag
  repeat' (with_reducible first | assumption | apply OutOk.next | apply runCmd_ok | apply setFlags_ok)

theorem execSeqCounter_ok {x0 : Desc} {x1 : State} (h1 : x1.Ok q n) : OutOk q n (execSeqCounter x0 x1) := by
  unfold execSeqCounter
  repeat' (with_reducible first | assumption | apply OutOk.next | apply runCmd_ok | apply loadCounter_ok)

theorem execSeqHalt_ok {x0 : Desc} {x1 : State} (h1 : x1.Ok q n) : OutOk q n (execSeqHalt x0 x1) := by
  unfold execSeqHalt
  repeat' first
    | (intro)
    | (with_reducible first | assumption | apply OutOk.next | apply runCmd_ok | apply checked_ok | apply planStop_ok)

theorem seqMarkAct_ok {x0 : Desc} {x1 : State} (h1 : x1.Ok q n) : (seqMarkAct x0 x1).after.Ok q n := by
  unfold seqMarkAct
  repeat' (with_reducible first | assumption | apply State.wImg_ok)

theorem execSeqMark_ok {x0 : Desc} {x1 : State} (h1 : x1.Ok q n) : OutOk q n (execSeqMark x0 x1) := by
  unfold execSeqMark
  repeat' (with_reducible first | assumption | apply OutOk.next | apply runAct_ok | apply seqMarkAct_ok)

theorem capConfigAct_ok {x0 : Desc} {x1 : State} (h1 : x1.Ok q n) : (capConfigAct x0 x1).after.Ok q n := by
  unfold capConfigAct
  repeat' (with_reducible first | assumption | apply State.wImg_ok | apply State.onCu_ok | apply State.w_ok)

theorem execCapConfig_ok {x0 : Desc} {x1 : State} (h1 : x1.Ok q n) : OutOk q n (execCapConfig x0 x1) := by
  unfold execCapConfig
  repeat' (with_reducible first | assumption | apply OutOk.next | apply runAct_ok | apply capConfigAct_ok)

theorem capTrigsetAct_ok {x0 : Desc} {x1 : State} (h1 : x1.Ok q n) : (capTrigsetAct x0 x1).after.Ok q n := by
  unfold capTrigsetAct
  repeat' first | (intro) | (with_reducible first | assumption | apply State.wImg_ok | apply Ok.foldl)

theorem execCapTrigset_ok {x0 : Desc} {x1 : State} (h1 : x1.Ok q n) : OutOk q n (execCapTrigset x0 x1) := by
  unfold execCapTrigset
  repeat' (with_reducible first | assumption | apply OutOk.next | apply runAct_ok | apply capTrigsetAct_ok)

theorem capBusAct_ok {x0 : Desc} {x1 : State} (h1 : x1.Ok q n) : (capBusAct x0 x1).after.Ok q n := by
  unfold capBusAct
  repeat' (with_reducible first | assumption | apply State.wImg_ok)

theorem execCapBus_ok {x0 : Desc} {x1 : State} (h1 : x1.Ok q n) : OutOk q n (execCapBus x0 x1) := by
  unfold execCapBus
  repeat' (with_reducible first | assumption | apply OutOk.next | apply runAct_ok | apply capBusAct_ok)

theorem armAcq_ok {x0 : Nat} {x1 : ArmArgs} {x2 : State} (h2 : x2.Ok q n) : (armAcq x0 x1 x2).Ok q n := by
  unfold armAcq
  repeat' first
    | (intro)
    | (with_reducible first | assumption | apply State.w_ok | apply State.setA_ok | apply State.onCu_ok | apply State.onAcq_ok
                            | apply forAll_ok)

theorem execCapArm_ok {x0 : Desc} {x1 : State} (h1 : x1.Ok q n) : OutOk q n (execCapArm x0 x1) := by
  unfold execCapArm
  repeat' first
    | (intro)
    | (with_reducible first | assumption | apply OutOk.next | apply runCmd_ok | apply checked_ok | apply armAcq_ok)

theorem execCapTrig_ok {x0 : Desc} {x1 : State} (h1 : x1.Ok q n) : OutOk q n (execCapTrig x0 x1) := by
  unfold execCapTrig
  repeat' first
    | (intro)
    | (with_reducible first | assumption | apply OutOk.next | apply runCmd_ok | apply checked_ok | apply State.onAcq_ok)

theorem execCapDisarm_ok {x0 : Desc} {x1 : State} (h1 : x1.Ok q n) : OutOk q n (execCapDisarm x0 x1) := by
  unfold execCapDisarm
  repeat' first | (intro) | (with_reducible first | assumption | apply OutOk.next | apply runCmd_ok | apply State.onAcq_ok) | split

theorem clearFails_ok {x0 : Nat} {x1 : State} (h1 : x1.Ok q n) : (clearFails x0 x1).Ok q n := by
  unfold clearFails
  repeat' (with_reducible first | assumption | apply onCyc_ok | apply State.onCh_ok | apply State.w_ok)

theorem execCapClear_ok {x0 : Desc} {x1 : State} (h1 : x1.Ok q n) : OutOk q n (execCapClear x0 x1) := by
  unfold execCapClear
  repeat' first
    | (intro)
    | (with_reducible first | assumption | apply OutOk.next | apply runCmd_ok | apply checked_ok | apply clearFails_ok
                            | apply forAll_ok)

theorem execCapFirstfail_ok {x0 : Desc} {x1 : State} (h1 : x1.Ok q n) : OutOk q n (execCapFirstfail x0 x1) := by
  unfold execCapFirstfail
  repeat' first
    | (intro)
    | (with_reducible first | assumption | apply OutOk.next | apply runCmd_ok | apply checked_ok | apply State.winStore_ok)

end Sys2Proof.Machine
end

