-- ==== Sys2Proof/Laws/KeepLead.lean ====
section
/-! SUPPORT. What the lead keeps: the canonical form of memories and registers, the queue and the time. -/

namespace Sys2Proof.Machine
variable {q : List Instr} {n : Nat}

theorem leadFall_ok {x0 x1 x2 : Nat} {x3 : State} (h3 : x3.Ok q n) : (leadFall x0 x1 x2 x3).Ok q n := by
  unfold leadFall
  repeat' first
    | (unfold t; clear t)
    | (with_reducible first | assumption | apply State.inc_ok | apply State.setF_ok | apply event_ok | apply State.onPt_ok
                            | apply planStop_ok)
    | (extract_lets +onlyGivenNames t; (have hs : State.Ok q n t := ?_); on_goal 1 => (clear_value t; revert t; intro u hs))
    | split

theorem leadUpdate_ok {x0 x1 : Nat} {x2 : State} (h2 : x2.Ok q n) : (leadUpdate x0 x1 x2).Ok q n := by
  unfold leadUpdate
  repeat' first
    | (with_reducible first | assumption | apply State.w_ok | apply State.onGp_ok | apply leadFall_ok)
    | (extract_lets +onlyGivenNames t; (have hs : State.Ok q n t := ?_); on_goal 1 => (clear_value t; revert t; intro u hs))
    | (fail_if_no_progress extract_lets +onlyGivenNames u)
    | split

theorem refill_ok {x0 x1 : Nat} {x2 : State} (h2 : x2.Ok q n) : (refill x0 x1 x2).Ok q n := by
  unfold refill
  repeat' first
    | (with_reducible first | assumption | apply State.setF_ok | apply State.onGp_ok | apply State.w_ok)
    | split
    | fail_if_no_progress with_reducible apply Ok.parts

theorem supply_ok {x0 : Nat} {x1 : State} (h1 : x1.Ok q n) : (supply x0 x1).Ok q n := by
  unfold supply
  repeat' first | (intro) | (with_reducible first | assumption | apply leadUpdate_ok | apply refill_ok | apply forAll_ok)

theorem supplyAll_ok {x0 : State} (h0 : x0.Ok q n) : (supplyAll x0).Ok q n := by
  unfold supplyAll
  repeat' first
    | (with_reducible first | assumption | apply supply_ok | apply forAll_ok)
    | fail_if_no_progress with_reducible apply Ok.parts

theorem takePage_ok {x0 : Nat} {x1 : State} (h1 : x1.Ok q n) : (takePage x0 x1).Ok q n := by
  unfold takePage
  repeat' (with_reducible first | assumption | apply State.onGp_ok | apply State.inc_ok | apply State.w_ok)

theorem reclaimN_ok {x0 : Nat} {x1 : State} (h1 : x1.Ok q n) : (reclaimN x0 x1).Ok q n := by
  induction x0 generalizing x1 with
  | zero =>
    unfold reclaimN
    repeat' first | (with_reducible first | assumption | apply ih | apply takePage_ok) | split
  | succ k ih =>
    unfold reclaimN
    repeat' first | (with_reducible first | assumption | apply ih | apply takePage_ok) | split

theorem reclaim_ok {x0 : State} (h0 : x0.Ok q n) : (reclaim x0).Ok q n := by
  unfold reclaim
  repeat' first | (with_reducible first | assumption | apply reclaimN_ok) | split

theorem releaseBorrowed_ok {x0 : State} (h0 : x0.Ok q n) : (releaseBorrowed x0).Ok q n := by
  unfold releaseBorrowed
  repeat' first | (intro) | (with_reducible first | assumption | apply State.w_ok | apply State.onGp_ok | apply forAll_ok)

theorem absentFlags_ok {x0 : Nat} {x1 : Absent} {x2 : State} (h2 : x2.Ok q n) : (absentFlags x0 x1 x2).Ok q n := by
  unfold absentFlags
  repeat' first
    | (unfold t; clear t)
    | (with_reducible first | assumption | apply poolFault_ok | apply State.setF_ok)
    | (extract_lets +onlyGivenNames t; (have hs : State.Ok q n t := ?_); on_goal 1 => (clear_value t; revert t; intro u hs))
    | split

theorem declareAbsent_ok {x0 : Nat} {x1 : List (Nat × Absent)} {x2 : State} (h2 : x2.Ok q n) : (declareAbsent x0 x1 x2).Ok q n := by
  unfold declareAbsent
  repeat' first
    | (intro)
    | (unfold t; clear t)
    | (with_reducible first | assumption | apply absentFlags_ok | apply event_ok | apply Ok.foldl)
    | (extract_lets +onlyGivenNames t; (have hs : State.Ok q n t := ?_); on_goal 1 => (clear_value t; revert t; intro u hs))
    | split

theorem execUnderrun_ok {x0 x1 : Fin 32} {x2 : State} (h2 : x2.Ok q n) : OutOk q n (execUnderrun x0 x1 x2) := by
  unfold execUnderrun
  repeat' first
    | (with_reducible first | assumption | apply OutOk.next | apply planStop_ok | apply declareAbsent_ok)
    | (fail_if_no_progress extract_lets +onlyGivenNames u)
    | split

end Sys2Proof.Machine
end

