-- ==== Sys2Proof/Laws/KeepTime.lean ====
section
/-! SUPPORT. What Guyline and network time keep: the canonical form of memories and registers, the queue and the time. -/

namespace Sys2Proof.Machine
variable {q : List Instr} {n : Nat}

theorem pegShift_ok {x0 : Nat} {x1 : State} (h1 : x1.Ok q n) : (pegShift x0 x1).Ok q n := by
  unfold pegShift
  repeat' first
    | (with_reducible first | assumption | apply State.w_ok | apply refuseStarts_ok | apply event_ok | apply State.setF_ok)
    | split

theorem classify_ok {x0 : State} (h0 : x0.Ok q n) : (classify x0).Ok q n := by
  unfold classify
  repeat' first
    | (with_reducible first | assumption | apply pegShift_ok | apply event_ok | apply onGuy_ok | apply State.setF_ok
                            | apply moveBoff_ok)
    | (fail_if_no_progress extract_lets +onlyGivenNames u)
    | split

theorem formPeg_ok {x0 : Int} {x1 : Bool} {x2 : State} (h2 : x2.Ok q n) : (formPeg x0 x1 x2).Ok q n := by
  unfold formPeg
  repeat' first
    | (with_reducible first | assumption | apply onGuy_ok | apply classify_ok | apply showResid_ok)
    | (extract_lets +onlyGivenNames t; (have hs : State.Ok q n t := ?_); on_goal 1 => (clear_value t; revert t; intro u hs))
    | split

theorem missRefl_ok {x0 : State} (h0 : x0.Ok q n) : (missRefl x0).Ok q n := by
  unfold missRefl
  repeat' first
    | (with_reducible first | assumption | apply onGuy_ok | apply State.inc_ok | apply formPeg_ok | apply State.setF_ok)
    | (extract_lets +onlyGivenNames t; (have hs : State.Ok q n t := ?_); on_goal 1 => (clear_value t; revert t; intro u hs))
    | split

theorem applyAlign_ok {x0 : Nat} {x1 : State} (h1 : x1.Ok q n) : (applyAlign x0 x1).Ok q n := by
  unfold applyAlign
  repeat' first
    | (with_reducible first | assumption | apply onGuy_ok | apply moveBoff_ok | apply State.w_ok | apply State.setF_ok
                            | apply complete_ok | apply showResid_ok)
    | split

theorem armEcho_ok {x0 : Nat} {x1 : State} (h1 : x1.Ok q n) : (armEcho x0 x1).Ok q n := by
  unfold armEcho
  repeat' first | (with_reducible first | assumption | apply onGuy_ok) | split

theorem pegPulse_ok {x0 : Nat} {x1 : Bool} {x2 : State} (h2 : x2.Ok q n) : (pegPulse x0 x1 x2).Ok q n := by
  unfold pegPulse
  repeat' first
    | (unfold t; clear t)
    | (with_reducible first | assumption | apply missRefl_ok | apply pegShift_ok | apply State.inc_ok | apply armEcho_ok
                            | apply onGuy_ok | apply applyAlign_ok | apply formPeg_ok)
    | (extract_lets +onlyGivenNames t; (have hs : State.Ok q n t := ?_); on_goal 1 => (clear_value t; revert t; intro u hs))
    | (fail_if_no_progress extract_lets +onlyGivenNames u)
    | split

theorem reflection_ok {x0 : Nat} {x1 : State} (h1 : x1.Ok q n) : (reflection x0 x1).Ok q n := by
  unfold reflection
  repeat' first
    | (with_reducible first | assumption | apply missRefl_ok | apply formPeg_ok | apply onGuy_ok | apply State.w_ok)
    | split

theorem execGpegPulse_ok {x0 : Nat} {x1 : Fin 1024} {x2 : Nat} {x3 : State} (h3 : x3.Ok q n) : OutOk q n (execGpegPulse x0 x1 x2 x3) := by
  unfold execGpegPulse
  repeat' first
    | (with_reducible first | assumption | apply OutOk.next | apply tdcEdge_ok | apply State.inc_ok | apply reflection_ok
                            | apply pegPulse_ok)
    | (fail_if_no_progress extract_lets +onlyGivenNames u)
    | split
    | with_reducible refine Ok.snd (by assumption) ?_

theorem execEchoDrive_ok {x0 : State} (h0 : x0.Ok q n) : OutOk q n (execEchoDrive x0) := by
  unfold execEchoDrive
  repeat' first | (with_reducible first | assumption | apply OutOk.next | apply onGuy_ok) | split

theorem execReflectionTimeout_ok {x0 : State} (h0 : x0.Ok q n) : OutOk q n (execReflectionTimeout x0) := by
  unfold execReflectionTimeout
  repeat' first | (with_reducible first | assumption | apply OutOk.next | apply missRefl_ok) | split

theorem missPeg_ok {x0 : Nat} {x1 : State} (h1 : x1.Ok q n) : (missPeg x0 x1).Ok q n := by
  unfold missPeg
  repeat' first
    | (with_reducible first | assumption | apply onGuy_ok | apply State.inc_ok | apply pegShift_ok)
    | (extract_lets +onlyGivenNames t; (have hs : State.Ok q n t := ?_); on_goal 1 => (clear_value t; revert t; intro u hs))
    | split

theorem execPegWindowMiss_ok {x0 : State} (h0 : x0.Ok q n) : OutOk q n (execPegWindowMiss x0) := by
  unfold execPegWindowMiss
  repeat' first
    | (with_reducible first | assumption | apply OutOk.next | apply missPeg_ok)
    | (fail_if_no_progress extract_lets +onlyGivenNames u)
    | split

theorem timeGuycfgAct_ok {x0 : Desc} {x1 : State} (h1 : x1.Ok q n) : (timeGuycfgAct x0 x1).after.Ok q n := by
  unfold timeGuycfgAct
  repeat' (with_reducible first | assumption | apply State.wImg_ok)

theorem execTimeGuycfg_ok {x0 : Desc} {x1 : State} (h1 : x1.Ok q n) : OutOk q n (execTimeGuycfg x0 x1) := by
  unfold execTimeGuycfg
  repeat' (with_reducible first | assumption | apply OutOk.next | apply runAct_ok | apply timeGuycfgAct_ok)

theorem execTimeAlign_ok {x0 : Desc} {x1 : State} (h1 : x1.Ok q n) : OutOk q n (execTimeAlign x0 x1) := by
  unfold execTimeAlign
  repeat' first
    | (intro)
    | (with_reducible first | assumption | apply OutOk.next | apply runCmd_ok | apply checked_ok | apply onGuy_ok
                            | apply State.setF_ok)

theorem execTimeAlignTimeout_ok {x0 : State} (h0 : x0.Ok q n) : OutOk q n (execTimeAlignTimeout x0) := by
  unfold execTimeAlignTimeout
  repeat' first
    | (with_reducible first | assumption | apply OutOk.next | apply complete_ok | apply onGuy_ok | apply State.w_ok)
    | split

theorem acceptShift_ok {x0 : Nat} {x1 : State} (h1 : x1.Ok q n) : (acceptShift x0 x1).Ok q n := by
  unfold acceptShift
  repeat' first
    | (with_reducible first | assumption | apply onGuy_ok | apply moveBoff_ok | apply showResid_ok | apply State.w_ok)
    | split

theorem execTimeAccept_ok {x0 : Desc} {x1 : State} (h1 : x1.Ok q n) : OutOk q n (execTimeAccept x0 x1) := by
  unfold execTimeAccept
  repeat' first
    | (intro)
    | (with_reducible first | assumption | apply OutOk.next | apply runCmd_ok | apply checked_ok | apply acceptShift_ok)

theorem timePtpcfgAct_ok {x0 : Desc} {x1 : State} (h1 : x1.Ok q n) : (timePtpcfgAct x0 x1).after.Ok q n := by
  unfold timePtpcfgAct
  repeat' first
    | (intro)
    | (with_reducible first | assumption | apply State.onPp_ok | apply State.w_ok | apply State.wImg_ok | apply Ok.foldl)

theorem execTimePtpcfg_ok {x0 : Desc} {x1 : State} (h1 : x1.Ok q n) : OutOk q n (execTimePtpcfg x0 x1) := by
  unfold execTimePtpcfg
  repeat' (with_reducible first | assumption | apply OutOk.next | apply runAct_ok | apply timePtpcfgAct_ok)

theorem newEpoch_ok {x0 : Nat} {x1 : State} (h1 : x1.Ok q n) : (newEpoch x0 x1).Ok q n := by
  unfold newEpoch
  repeat' first
    | (with_reducible first | assumption | apply event_ok | apply lifeAdd_ok | apply State.setF_ok)
    | fail_if_no_progress with_reducible apply Ok.parts

theorem slew_ok {x0 : Int} {x1 : State} (h1 : x1.Ok q n) : (slew x0 x1).Ok q n := by
  unfold slew
  repeat' first | (with_reducible first | assumption | apply State.w_ok) | fail_if_no_progress with_reducible apply Ok.parts

theorem setTime_ok {x0 : Nat} {x1 : State} (h1 : x1.Ok q n) : (setTime x0 x1).Ok q n := by
  unfold setTime
  repeat' first
    | (with_reducible first | assumption | apply newEpoch_ok | apply slew_ok)
    | split
    | fail_if_no_progress with_reducible apply Ok.parts

theorem execTimeSet_ok {x0 : Desc} {x1 : State} (h1 : x1.Ok q n) : OutOk q n (execTimeSet x0 x1) := by
  unfold execTimeSet
  repeat' first
    | (intro)
    | (with_reducible first | assumption | apply OutOk.next | apply runCmd_ok | apply checked_ok | apply setTime_ok)

theorem execTimeRead_ok {x0 : Desc} {x1 : State} (h1 : x1.Ok q n) : OutOk q n (execTimeRead x0 x1) := by
  unfold execTimeRead
  repeat' first | (intro) | (with_reducible first | assumption | apply OutOk.next | apply runCmd_ok | apply State.winStore_ok)

theorem timeFwdAct_ok {x0 : Desc} {x1 : State} (h1 : x1.Ok q n) : (timeFwdAct x0 x1).after.Ok q n := by
  unfold timeFwdAct
  repeat' (with_reducible first | assumption | apply State.w_ok)

theorem execTimeFwd_ok {x0 : Desc} {x1 : State} (h1 : x1.Ok q n) : OutOk q n (execTimeFwd x0 x1) := by
  unfold execTimeFwd
  repeat' (with_reducible first | assumption | apply OutOk.next | apply runAct_ok | apply timeFwdAct_ok)

theorem clockTick_ok {x0 : State} (h0 : x0.Ok q n) : (clockTick x0).Ok q n := by
  unfold clockTick
  repeat' first
    | (with_reducible first | assumption | apply State.w_ok)
    | (extract_lets +onlyGivenNames t; (have hs : State.Ok q n t := ?_); on_goal 1 => (clear_value t; revert t; intro u hs))
    | (fail_if_no_progress extract_lets +onlyGivenNames u)
    | split
    | fail_if_no_progress with_reducible apply Ok.parts

theorem servo_ok {x0 : Int} {x1 : State} (h1 : x1.Ok q n) : (servo x0 x1).Ok q n := by
  unfold servo
  repeat' first
    | (unfold t; clear t)
    | (with_reducible first | assumption | apply State.w_ok | apply State.setF_ok | apply State.fresh_ok | apply slew_ok
                            | apply event_ok | apply lifeAdd_ok | apply newEpoch_ok)
    | (extract_lets +onlyGivenNames t; (have hs : State.Ok q n t := ?_); on_goal 1 => (clear_value t; revert t; intro u hs))
    | (fail_if_no_progress extract_lets +onlyGivenNames u)
    | split
    | with_reducible refine Ok.snd (by assumption) ?_
    | fail_if_no_progress with_reducible apply Ok.parts

theorem delaySample_ok {x0 x1 : Nat} {x2 : State} (h2 : x2.Ok q n) : (delaySample x0 x1 x2).Ok q n := by
  unfold delaySample
  repeat' first
    | (unfold t; clear t)
    | (with_reducible first | assumption | apply event_ok | apply lifeAdd_ok | apply State.setF_ok | apply State.onPp_ok
                            | apply State.w_ok)
    | (extract_lets +onlyGivenNames t; (have hs : State.Ok q n t := ?_); on_goal 1 => (revert t; intro u hs))
    | (fail_if_no_progress extract_lets +onlyGivenNames u)
    | split

theorem showPorts_ok {x0 : State} (h0 : x0.Ok q n) : (showPorts x0).Ok q n := by
  unfold showPorts
  repeat' first | (intro) | (with_reducible first | assumption | apply State.w_ok | apply forAll_ok)

theorem showTsq_ok {x0 : Nat} {x1 : State} (h1 : x1.Ok q n) : (showTsq x0 x1).Ok q n := by
  unfold showTsq
  repeat' (with_reducible first | assumption | apply State.w_ok)

theorem elect_ok {x0 : State} (h0 : x0.Ok q n) : (elect x0).Ok q n := by
  unfold elect
  repeat' first
    | (with_reducible first | assumption | apply showPorts_ok | apply State.w_ok)
    | split
    | fail_if_no_progress with_reducible apply Ok.parts

theorem announceIn_ok {x0 : Nat} {x1 : PtpMsg} {x2 : State} (h2 : x2.Ok q n) : (announceIn x0 x1 x2).Ok q n := by
  unfold announceIn
  repeat' (with_reducible first | assumption | apply elect_ok | apply State.onPp_ok)

theorem offsetIn_ok {x0 : Nat} {x1 : Int} {x2 : State} (h2 : x2.Ok q n) : (offsetIn x0 x1 x2).Ok q n := by
  unfold offsetIn
  repeat' first | (with_reducible first | assumption | apply servo_ok) | split

theorem delayIn_ok {x0 : Nat} {x1 : Int} {x2 : State} (h2 : x2.Ok q n) : (delayIn x0 x1 x2).Ok q n := by
  unfold delayIn
  repeat' (with_reducible first | assumption | apply delaySample_ok)

theorem syncTime_ok {x0 : Nat} {x1 x2 x3 : Int} {x4 : State} (h4 : x4.Ok q n) : (syncTime x0 x1 x2 x3 x4).Ok q n := by
  unfold syncTime
  repeat' (with_reducible first | assumption | apply offsetIn_ok | apply State.onPp_ok)

theorem takeTx_ok {x0 : Nat} {x1 : PtpKind} {x2 : Nat} {x3 : State} (h3 : x3.Ok q n) : (takeTx x0 x1 x2 x3).2.Ok q n := by
  unfold takeTx
  repeat' first | (with_reducible first | assumption | apply showTsq_ok | apply State.onPp_ok) | split

theorem syncIn_ok {x0 : Nat} {x1 : PtpMsg} {x2 : State} (h2 : x2.Ok q n) : (syncIn x0 x1 x2).Ok q n := by
  unfold syncIn
  repeat' first | (with_reducible first | assumption | apply State.onPp_ok | apply syncTime_ok) | split

theorem delayRespIn_ok {x0 : Nat} {x1 : PtpMsg} {x2 : State} (h2 : x2.Ok q n) : (delayRespIn x0 x1 x2).Ok q n := by
  unfold delayRespIn
  repeat' first
    | (with_reducible first | assumption | apply takeTx_ok | apply delayIn_ok)
    | split
    | with_reducible refine Ok.snd (by assumption) ?_

theorem pdelayIn_ok {x0 : Nat} {x1 : PtpMsg} {x2 : State} (h2 : x2.Ok q n) : (pdelayIn x0 x1 x2).Ok q n := by
  unfold pdelayIn
  repeat' first
    | (with_reducible first | assumption | apply takeTx_ok | apply State.onPp_ok | apply delayIn_ok)
    | split
    | with_reducible refine Ok.snd (by assumption) ?_

theorem requestIn_ok {x0 : Nat} {x1 : PtpMsg} {x2 : State} (h2 : x2.Ok q n) : (requestIn x0 x1 x2).Ok q n := by
  unfold requestIn
  repeat' first | (with_reducible first | assumption | apply State.onPp_ok) | split

theorem ptpIn_ok {x0 : Nat} {x1 : PtpMsg} {x2 : State} (h2 : x2.Ok q n) : (ptpIn x0 x1 x2).Ok q n := by
  unfold ptpIn
  repeat' first
    | (with_reducible first | assumption | apply announceIn_ok | apply syncIn_ok | apply requestIn_ok | apply delayRespIn_ok
                            | apply pdelayIn_ok)
    | split

theorem execPtp_ok {x0 : Fin 12} {x1 : PtpMsg} {x2 : State} (h2 : x2.Ok q n) : OutOk q n (execPtp x0 x1 x2) := by
  unfold execPtp
  repeat' first
    | (unfold t; clear t)
    | (with_reducible first | assumption | apply OutOk.next | apply releaseCr_ok | apply State.inc_ok | apply ptpIn_ok)
    | (extract_lets +onlyGivenNames t; (have hs : State.Ok q n t := ?_); on_goal 1 => (clear_value t; revert t; intro u hs))
    | (fail_if_no_progress extract_lets +onlyGivenNames u)
    | split

theorem enterHoldover_ok {x0 : State} (h0 : x0.Ok q n) : (enterHoldover x0).Ok q n := by
  unfold enterHoldover
  repeat' first
    | (with_reducible first | assumption | apply State.w_ok | apply State.inc_ok | apply State.setF_ok | apply event_ok
                            | apply lifeAdd_ok)
    | fail_if_no_progress with_reducible apply Ok.parts

theorem execAnnounceTimeout_ok {x0 : State} (h0 : x0.Ok q n) : OutOk q n (execAnnounceTimeout x0) := by
  unfold execAnnounceTimeout
  repeat' first
    | (with_reducible first | assumption | apply OutOk.next | apply elect_ok | apply showPorts_ok | apply enterHoldover_ok)
    | split

theorem sendPtp_ok {x0 : Nat} {x1 : State} (h1 : x1.Ok q n) : (sendPtp x0 x1).Ok q n := by
  unfold sendPtp
  repeat' (with_reducible first | assumption | apply State.fresh_ok | apply State.send_ok)

theorem sendEvent_ok {x0 : Nat} {x1 : PtpKind} {x2 : Nat} {x3 : State} (h3 : x3.Ok q n) : (sendEvent x0 x1 x2 x3).Ok q n := by
  unfold sendEvent
  repeat' (with_reducible first | assumption | apply sendPtp_ok | apply showTsq_ok | apply State.onPp_ok)

theorem answered_ok {x0 : Nat} {x1 : PtpKind} {x2 : State} (h2 : x2.Ok q n) : (answered x0 x1 x2).Ok q n := by
  unfold answered
  repeat' (with_reducible first | assumption | apply State.onPp_ok)

theorem sendHeld_ok {x0 : Nat} {x1 : State} (h1 : x1.Ok q n) : (sendHeld x0 x1).Ok q n := by
  unfold sendHeld
  repeat' first | (with_reducible first | assumption | apply sendEvent_ok | apply State.onPp_ok) | split

theorem intervalEvent_ok {x0 : Nat} {x1 : PtpKind} {x2 : State} (h2 : x2.Ok q n) : (intervalEvent x0 x1 x2).Ok q n := by
  unfold intervalEvent
  repeat' first | (with_reducible first | assumption | apply sendEvent_ok | apply answered_ok | apply State.onPp_ok) | split

theorem intervalGeneral_ok {x0 : Nat} {x1 : PtpKind} {x2 : State} (h2 : x2.Ok q n) : (intervalGeneral x0 x1 x2).Ok q n := by
  unfold intervalGeneral
  repeat' first
    | (with_reducible first | assumption | apply sendHeld_ok | apply showTsq_ok | apply sendPtp_ok | apply State.onPp_ok
                            | apply answered_ok)
    | split

theorem intervalDue_ok {x0 : Nat} {x1 : PtpKind} {x2 : State} (h2 : x2.Ok q n) : (intervalDue x0 x1 x2).Ok q n := by
  unfold intervalDue
  repeat' first
    | (unfold t; clear t)
    | (with_reducible first | assumption | apply State.onPp_ok | apply intervalEvent_ok | apply intervalGeneral_ok)
    | (extract_lets +onlyGivenNames t; (have hs : State.Ok q n t := ?_); on_goal 1 => (clear_value t; revert t; intro u hs))
    | split

theorem execPtpMessageInterval_ok {x0 : Fin 12} {x1 : PtpKind} {x2 : State} (h2 : x2.Ok q n) : OutOk q n (execPtpMessageInterval x0 x1 x2) := by
  unfold execPtpMessageInterval
  repeat' first
    | (with_reducible first | assumption | apply OutOk.next | apply intervalDue_ok)
    | (fail_if_no_progress extract_lets +onlyGivenNames u)
    | split

theorem execTsqEntryTimeout_ok {x0 : Fin 12} {x1 : State} (h1 : x1.Ok q n) : OutOk q n (execTsqEntryTimeout x0 x1) := by
  unfold execTsqEntryTimeout
  repeat' first
    | (with_reducible first | assumption | apply OutOk.next | apply sendHeld_ok | apply showTsq_ok | apply State.onPp_ok)
    | (fail_if_no_progress extract_lets +onlyGivenNames u)
    | split

theorem execTsqHoldTimeout_ok {x0 : Fin 12} {x1 : State} (h1 : x1.Ok q n) : OutOk q n (execTsqHoldTimeout x0 x1) := by
  unfold execTsqHoldTimeout
  repeat' first
    | (with_reducible first | assumption | apply OutOk.next | apply State.onPp_ok | apply State.setF_ok)
    | (fail_if_no_progress extract_lets +onlyGivenNames u)
    | split

end Sys2Proof.Machine
end

