-- ==== Sys2Proof/Laws/KeepLink.lean ====
section
/-! SUPPORT. What Ridge ports and lanes keep: the canonical form of memories and registers, the queue and the time. -/

namespace Sys2Proof.Machine
variable {q : List Instr} {n : Nat}

theorem setLane_ok {x0 x1 : Nat} {x2 : State} (h2 : x2.Ok q n) : (setLane x0 x1 x2).Ok q n := by
  unfold setLane
  repeat' (with_reducible first | assumption | apply State.w_ok)

theorem dropWord_ok {x0 x1 : Nat} {x2 : State} (h2 : x2.Ok q n) : (dropWord x0 x1 x2).Ok q n := by
  unfold dropWord
  repeat' (with_reducible first | assumption | apply State.onLp_ok)

theorem sendNak_ok {x0 : Nat} {x1 : State} (h1 : x1.Ok q n) : (sendNak x0 x1).Ok q n := by
  unfold sendNak
  repeat' (with_reducible first | assumption | apply ctrlWord_ok | apply State.onLp_ok | apply State.inc_ok)

theorem shutPort_ok {x0 x1 : Nat} {x2 : State} (h2 : x2.Ok q n) : (shutPort x0 x1 x2).Ok q n := by
  unfold shutPort
  repeat' first
    | (intro)
    | (with_reducible first | assumption | apply State.inc_ok | apply State.w_ok | apply State.onLp_ok | apply forAll_ok)
    | split

theorem setPhase_ok {x0 x1 : Nat} {x2 : State} (h2 : x2.Ok q n) : (setPhase x0 x1 x2).Ok q n := by
  unfold setPhase
  repeat' (with_reducible first | assumption | apply State.onLp_ok | apply State.w_ok)

theorem startAttempt_ok {x0 x1 : Nat} {x2 : State} (h2 : x2.Ok q n) : (startAttempt x0 x1 x2).Ok q n := by
  unfold startAttempt
  repeat' first
    | (with_reducible first | assumption | apply State.onLp_ok | apply setPhase_ok | apply State.w_ok)
    | (extract_lets +onlyGivenNames t; (have hs : State.Ok q n t := ?_); on_goal 1 => (clear_value t; revert t; intro u hs))
    | split

theorem enablePort_ok {x0 : Nat} {x1 : State} (h1 : x1.Ok q n) : (enablePort x0 x1).Ok q n := by
  unfold enablePort
  repeat' first | (with_reducible first | assumption | apply startAttempt_ok) | split

theorem failAttempt_ok {x0 x1 : Nat} {x2 : State} (h2 : x2.Ok q n) : (failAttempt x0 x1 x2).Ok q n := by
  unfold failAttempt
  repeat' first
    | (with_reducible first | assumption | apply State.w_ok | apply event_ok | apply shutPort_ok | apply setPhase_ok
                            | apply State.onLp_ok)
    | (extract_lets +onlyGivenNames t; (have hs : State.Ok q n t := ?_); on_goal 1 => (clear_value t; revert t; intro u hs))
    | (fail_if_no_progress extract_lets +onlyGivenNames u)
    | split

theorem retrain_ok {x0 : Nat} {x1 : State} (h1 : x1.Ok q n) : (retrain x0 x1).Ok q n := by
  unfold retrain
  repeat' first
    | (intro)
    | (with_reducible first | assumption | apply State.w_ok | apply State.inc_ok | apply State.onLp_ok | apply startAttempt_ok
                            | apply forAll_ok)
    | split

theorem restripe_ok {x0 x1 x2 : Nat} {x3 : State} (h3 : x3.Ok q n) : (restripe x0 x1 x2 x3).Ok q n := by
  unfold restripe
  repeat' first
    | (with_reducible first | assumption | apply retrain_ok | apply State.inc_ok | apply State.w_ok | apply State.onLp_ok
                            | apply sendNak_ok | apply ctrlWord_ok)
    | (extract_lets +onlyGivenNames t; (have hs : State.Ok q n t := ?_); on_goal 1 => (clear_value t; revert t; intro u hs))
    | split

theorem restripeOwn_ok {x0 x1 : Nat} {x2 : State} (h2 : x2.Ok q n) : (restripeOwn x0 x1 x2).Ok q n := by
  unfold restripeOwn
  repeat' (with_reducible first | assumption | apply restripe_ok)

theorem exclude_ok {x0 : Nat} {x1 : State} (h1 : x1.Ok q n) : (exclude x0 x1).Ok q n := by
  unfold exclude
  repeat' (with_reducible first | assumption | apply event_ok | apply lifeAdd_ok | apply setLane_ok)

theorem leaveLane_ok {x0 : Nat} {x1 : State} (h1 : x1.Ok q n) : (leaveLane x0 x1).Ok q n := by
  unfold leaveLane
  repeat' (with_reducible first | assumption | apply faultEvent_ok | apply exclude_ok | apply State.onLn_ok | apply State.inc_ok | apply restripeOwn_ok)

theorem laneLost_ok {x0 : Nat} {x1 : State} (h1 : x1.Ok q n) : (laneLost x0 x1).Ok q n := by
  unfold laneLost
  repeat' first
    | (with_reducible first | assumption | apply setLane_ok | apply State.setF_ok | apply leaveLane_ok | apply event_ok
                            | apply lifeAdd_ok)
    | (extract_lets +onlyGivenNames t; (have hs : State.Ok q n t := ?_); on_goal 1 => (clear_value t; revert t; intro u hs))
    | split

theorem laneDropped_ok {x0 : Nat} {x1 : State} (h1 : x1.Ok q n) : (laneDropped x0 x1).Ok q n := by
  unfold laneDropped
  repeat' (with_reducible first | assumption | apply setLane_ok | apply State.setF_ok | apply State.onLn_ok | apply leaveLane_ok | apply event_ok | apply lifeAdd_ok)

theorem execLaneLockTimeout_ok {x0 : Fin 48} {x1 : State} (h1 : x1.Ok q n) : OutOk q n (execLaneLockTimeout x0 x1) := by
  unfold execLaneLockTimeout
  repeat' (with_reducible first | assumption | apply OutOk.next | apply laneLost_ok)

theorem dropLanes_ok {x0 x1 : Nat} {x2 : State} (h2 : x2.Ok q n) : (dropLanes x0 x1 x2).Ok q n := by
  unfold dropLanes
  repeat' first | (intro) | (with_reducible first | assumption | apply State.w_ok | apply forAll_ok) | split

theorem adoptMap_ok {x0 x1 x2 : Nat} {x3 : State} (h3 : x3.Ok q n) : (adoptMap x0 x1 x2 x3).Ok q n := by
  unfold adoptMap
  repeat' first
    | (intro)
    | (with_reducible first | assumption | apply State.onLn_ok | apply State.w_ok | apply dropLanes_ok | apply State.inc_ok
                            | apply ctrlWord_ok | apply State.onLp_ok | apply forAll_ok)
    | (fail_if_no_progress extract_lets +onlyGivenNames u)
    | split

theorem restripeIn_ok {x0 x1 x2 : Nat} {x3 : State} (h3 : x3.Ok q n) : (restripeIn x0 x1 x2 x3).Ok q n := by
  unfold restripeIn
  repeat' first
    | (with_reducible first | assumption | apply dropWord_ok | apply State.onLp_ok | apply restripe_ok | apply dropLanes_ok
                            | apply retrain_ok | apply ctrlWord_ok | apply adoptMap_ok)
    | (fail_if_no_progress extract_lets +onlyGivenNames u)
    | split

theorem execRestripe_ok {x0 : Fin 12} {x1 x2 : Nat} {x3 : State} (h3 : x3.Ok q n) : OutOk q n (execRestripe x0 x1 x2 x3) := by
  unfold execRestripe
  repeat' (with_reducible first | assumption | apply OutOk.next | apply restripeIn_ok)

theorem restripeAckIn_ok {x0 x1 x2 : Nat} {x3 : State} (h3 : x3.Ok q n) : (restripeAckIn x0 x1 x2 x3).Ok q n := by
  unfold restripeAckIn
  repeat' first | (with_reducible first | assumption | apply dropWord_ok | apply State.onLp_ok) | split

theorem execRestripeAck_ok {x0 : Fin 12} {x1 x2 : Nat} {x3 : State} (h3 : x3.Ok q n) : OutOk q n (execRestripeAck x0 x1 x2 x3) := by
  unfold execRestripeAck
  repeat' (with_reducible first | assumption | apply OutOk.next | apply restripeAckIn_ok)

theorem setFir_ok {x0 x1 x2 : Nat} {x3 : State} (h3 : x3.Ok q n) : (setFir x0 x1 x2 x3).Ok q n := by
  unfold setFir
  repeat' (with_reducible first | assumption | apply State.onLn_ok)

theorem execLaneTrainDone_ok {x0 : Fin 48} {x1 x2 : Nat} {x3 : State} (h3 : x3.Ok q n) : OutOk q n (execLaneTrainDone x0 x1 x2 x3) := by
  unfold execLaneTrainDone
  repeat' first
    | (with_reducible first | assumption | apply OutOk.next | apply State.onLn_ok | apply setLane_ok | apply setFir_ok)
    | (fail_if_no_progress extract_lets +onlyGivenNames u)
    | split

theorem soakIn_ok {x0 : Nat} {x1 : Bool} {x2 : State} (h2 : x2.Ok q n) : (soakIn x0 x1 x2).Ok q n := by
  unfold soakIn
  repeat' first | (with_reducible first | assumption | apply State.onLn_ok) | split

theorem execSoak_ok {x0 : Fin 48} {x1 : Bool} {x2 : State} (h2 : x2.Ok q n) : OutOk q n (execSoak x0 x1 x2) := by
  unfold execSoak
  repeat' (with_reducible first | assumption | apply OutOk.next | apply soakIn_ok)

theorem soakDone_ok {x0 : Nat} {x1 x2 : Bool} {x3 : State} (h3 : x3.Ok q n) : (soakDone x0 x1 x2 x3).Ok q n := by
  unfold soakDone
  repeat' first
    | (with_reducible first | assumption | apply ctrlWord_ok | apply restripeOwn_ok | apply State.onLn_ok | apply setLane_ok)
    | (extract_lets +onlyGivenNames t; (have hs : State.Ok q n t := ?_); on_goal 1 => (clear_value t; revert t; intro u hs))
    | (fail_if_no_progress extract_lets +onlyGivenNames u)
    | split

theorem execSoakEnd_ok {x0 : Fin 48} {x1 x2 : Bool} {x3 : State} (h3 : x3.Ok q n) : OutOk q n (execSoakEnd x0 x1 x2 x3) := by
  unfold execSoakEnd
  repeat' first
    | (with_reducible first | assumption | apply OutOk.next | apply soakDone_ok)
    | (fail_if_no_progress extract_lets +onlyGivenNames u)
    | split

theorem execSlowLaneCheck_ok {x0 : Fin 12} {x1 : List (Nat × Nat)} {x2 : State} (h2 : x2.Ok q n) : OutOk q n (execSlowLaneCheck x0 x1 x2) := by
  unfold execSlowLaneCheck
  repeat' first
    | (with_reducible first | assumption | apply OutOk.next | apply laneDropped_ok)
    | (fail_if_no_progress extract_lets +onlyGivenNames u)
    | split

theorem replayAll_ok {x0 : Nat} {x1 : State} (h1 : x1.Ok q n) : (replayAll x0 x1).Ok q n := by
  unfold replayAll
  repeat' first
    | (with_reducible first | assumption | apply State.onLp_ok | apply State.inc_ok | apply retrain_ok)
    | (extract_lets +onlyGivenNames t; (have hs : State.Ok q n t := ?_); on_goal 1 => (clear_value t; revert t; intro u hs))
    | split

theorem ackBefore_ok {x0 x1 : Nat} {x2 : State} (h2 : x2.Ok q n) : (ackBefore x0 x1 x2).Ok q n := by
  unfold ackBefore
  repeat' first
    | (with_reducible first | assumption | apply State.pump_ok | apply State.onLp_ok)
    | (fail_if_no_progress extract_lets +onlyGivenNames u)
    | split

theorem endStream_ok {x0 : Nat} {x1 : State} (h1 : x1.Ok q n) : (endStream x0 x1).Ok q n := by
  unfold endStream
  repeat' (with_reducible first | assumption | apply retrain_ok | apply State.onLp_ok)

theorem badFrame_ok {x0 : Nat} {x1 : State} (h1 : x1.Ok q n) : (badFrame x0 x1).Ok q n := by
  unfold badFrame
  repeat' first
    | (with_reducible first | assumption | apply State.inc_ok | apply sendNak_ok)
    | (extract_lets +onlyGivenNames t; (have hs : State.Ok q n t := ?_); on_goal 1 => (clear_value t; revert t; intro u hs))
    | split

theorem nakIn_ok {x0 x1 : Nat} {x2 : State} (h2 : x2.Ok q n) : (nakIn x0 x1 x2).Ok q n := by
  unfold nakIn
  repeat' first | (with_reducible first | assumption | apply replayAll_ok | apply ackBefore_ok | apply badFrame_ok) | split

theorem execNak_ok {x0 : Fin 12} {x1 : Nat} {x2 : State} (h2 : x2.Ok q n) : OutOk q n (execNak x0 x1 x2) := by
  unfold execNak
  repeat' (with_reducible first | assumption | apply OutOk.next | apply nakIn_ok)

theorem execAckTimeout_ok {x0 : Fin 12} {x1 : State} (h1 : x1.Ok q n) : OutOk q n (execAckTimeout x0 x1) := by
  unfold execAckTimeout
  repeat' first
    | (with_reducible first | assumption | apply OutOk.next | apply replayAll_ok)
    | (fail_if_no_progress extract_lets +onlyGivenNames u)
    | split

theorem execAckSendTimer_ok {x0 : Fin 12} {x1 : State} (h1 : x1.Ok q n) : OutOk q n (execAckSendTimer x0 x1) := by
  unfold execAckSendTimer
  repeat' first | (with_reducible first | assumption | apply OutOk.next | apply State.onLp_ok) | split

theorem creditIn_ok {x0 x1 x2 : Nat} {x3 : State} (h3 : x3.Ok q n) : (creditIn x0 x1 x2 x3).Ok q n := by
  unfold creditIn
  repeat' first | (with_reducible first | assumption | apply State.pump_ok | apply State.onLp_ok | apply badFrame_ok) | split

theorem execCredit_ok {x0 : Fin 12} {x1 x2 : Nat} {x3 : State} (h3 : x3.Ok q n) : OutOk q n (execCredit x0 x1 x2 x3) := by
  unfold execCredit
  repeat' (with_reducible first | assumption | apply OutOk.next | apply creditIn_ok)

theorem execCreditStall_ok {x0 : Fin 12} {x1 : State} (h1 : x1.Ok q n) : OutOk q n (execCreditStall x0 x1) := by
  unfold execCreditStall
  repeat' first
    | (with_reducible first | assumption | apply OutOk.next | apply event_ok | apply State.onLp_ok)
    | (fail_if_no_progress extract_lets +onlyGivenNames u)
    | split

theorem execSignalDetect_ok {x0 : Fin 12} {x1 : State} (h1 : x1.Ok q n) : OutOk q n (execSignalDetect x0 x1) := by
  unfold execSignalDetect
  repeat' first
    | (with_reducible first | assumption | apply OutOk.next | apply State.setF_ok | apply setPhase_ok)
    | (extract_lets +onlyGivenNames t; (have hs : State.Ok q n t := ?_); on_goal 1 => (clear_value t; revert t; intro u hs))
    | split

theorem execSignalLoss_ok {x0 : Fin 12} {x1 : Nat} {x2 : State} (h2 : x2.Ok q n) : OutOk q n (execSignalLoss x0 x1 x2) := by
  unfold execSignalLoss
  repeat' first
    | (intro)
    | (unfold t; clear t)
    | (with_reducible first | assumption | apply OutOk.next | apply State.w_ok | apply failAttempt_ok | apply laneLost_ok
                            | apply forAll_ok)
    | (extract_lets +onlyGivenNames t; (have hs : State.Ok q n t := ?_); on_goal 1 => (clear_value t; revert t; intro u hs))
    | (fail_if_no_progress extract_lets +onlyGivenNames u)
    | split

theorem capabilityIn_ok {x0 : Nat} {x1 : Capability} {x2 : State} (h2 : x2.Ok q n) : (capabilityIn x0 x1 x2).Ok q n := by
  unfold capabilityIn
  repeat' first
    | (intro)
    | (with_reducible first | assumption | apply State.w_ok | apply failAttempt_ok | apply event_ok | apply shutPort_ok
                            | apply setPhase_ok | apply forAll_ok)
    | (extract_lets +onlyGivenNames t; (have hs : State.Ok q n t := ?_); on_goal 1 => (clear_value t; revert t; intro u hs))
    | (fail_if_no_progress extract_lets +onlyGivenNames u)
    | split

theorem execCapabilityBlock_ok {x0 : Fin 12} {x1 : Capability} {x2 : State} (h2 : x2.Ok q n) : OutOk q n (execCapabilityBlock x0 x1 x2) := by
  unfold execCapabilityBlock
  repeat' first
    | (with_reducible first | assumption | apply OutOk.next | apply capabilityIn_ok)
    | (fail_if_no_progress extract_lets +onlyGivenNames u)
    | split

theorem execEqualizeDone_ok {x0 : Fin 12} {x1 : List (Nat × Nat)} {x2 : State} (h2 : x2.Ok q n) : OutOk q n (execEqualizeDone x0 x1 x2) := by
  unfold execEqualizeDone
  repeat' first
    | (intro)
    | (with_reducible first | assumption | apply OutOk.next | apply setPhase_ok | apply setFir_ok | apply forAll_ok)
    | (fail_if_no_progress extract_lets +onlyGivenNames u)
    | split

theorem portUp_ok {x0 : Nat} {x1 : State} (h1 : x1.Ok q n) : (portUp x0 x1).Ok q n := by
  unfold portUp
  repeat' first
    | (intro)
    | (with_reducible first | assumption | apply State.onLn_ok | apply State.w_ok | apply State.onLp_ok | apply setPhase_ok
                            | apply State.pump_ok | apply forAll_ok)

theorem execAlignDone_ok {x0 : Fin 12} {x1 : State} (h1 : x1.Ok q n) : OutOk q n (execAlignDone x0 x1) := by
  unfold execAlignDone
  repeat' first
    | (with_reducible first | assumption | apply OutOk.next | apply portUp_ok)
    | (fail_if_no_progress extract_lets +onlyGivenNames u)
    | split

theorem execTrainingTimeout_ok {x0 : Fin 12} {x1 : State} (h1 : x1.Ok q n) : OutOk q n (execTrainingTimeout x0 x1) := by
  unfold execTrainingTimeout
  repeat' first
    | (with_reducible first | assumption | apply OutOk.next | apply failAttempt_ok)
    | (fail_if_no_progress extract_lets +onlyGivenNames u)
    | split

theorem execBackoffEnd_ok {x0 : Fin 12} {x1 : State} (h1 : x1.Ok q n) : OutOk q n (execBackoffEnd x0 x1) := by
  unfold execBackoffEnd
  repeat' first
    | (with_reducible first | assumption | apply OutOk.next | apply startAttempt_ok)
    | (fail_if_no_progress extract_lets +onlyGivenNames u)
    | split

theorem goIdle_ok {x0 : Nat} {x1 : State} (h1 : x1.Ok q n) : (goIdle x0 x1).Ok q n := by
  unfold goIdle
  repeat' (with_reducible first | assumption | apply dropWord_ok | apply State.onLp_ok | apply State.w_ok)

theorem dropIdle_ok {x0 : Nat} {x1 : State} (h1 : x1.Ok q n) : (dropIdle x0 x1).Ok q n := by
  unfold dropIdle
  repeat' (with_reducible first | assumption | apply State.onLp_ok)

theorem idleWord_ok {x0 x1 : Nat} {x2 : State} (h2 : x2.Ok q n) : (idleWord x0 x1 x2).Ok q n := by
  unfold idleWord
  repeat' (with_reducible first | assumption | apply ctrlWord_ok | apply dropIdle_ok)

theorem execIdleDelayTimeout_ok {x0 : Fin 12} {x1 : State} (h1 : x1.Ok q n) : OutOk q n (execIdleDelayTimeout x0 x1) := by
  unfold execIdleDelayTimeout
  repeat' first
    | (with_reducible first | assumption | apply OutOk.next | apply State.onLp_ok | apply idleWord_ok)
    | (fail_if_no_progress extract_lets +onlyGivenNames u)
    | split

theorem idleReqIn_ok {x0 : Nat} {x1 : State} (h1 : x1.Ok q n) : (idleReqIn x0 x1).Ok q n := by
  unfold idleReqIn
  repeat' first | (with_reducible first | assumption | apply goIdle_ok | apply idleWord_ok) | split

theorem execIdleReq_ok {x0 : Fin 12} {x1 : State} (h1 : x1.Ok q n) : OutOk q n (execIdleReq x0 x1) := by
  unfold execIdleReq
  repeat' (with_reducible first | assumption | apply OutOk.next | apply idleReqIn_ok)

theorem idleAckIn_ok {x0 : Nat} {x1 : State} (h1 : x1.Ok q n) : (idleAckIn x0 x1).Ok q n := by
  unfold idleAckIn
  repeat' first | (with_reducible first | assumption | apply goIdle_ok) | split

theorem execIdleAck_ok {x0 : Fin 12} {x1 : State} (h1 : x1.Ok q n) : OutOk q n (execIdleAck x0 x1) := by
  unfold execIdleAck
  repeat' (with_reducible first | assumption | apply OutOk.next | apply idleAckIn_ok)

theorem idleNakIn_ok {x0 : Nat} {x1 : State} (h1 : x1.Ok q n) : (idleNakIn x0 x1).Ok q n := by
  unfold idleNakIn
  repeat' first | (with_reducible first | assumption | apply dropWord_ok | apply State.onLp_ok) | split

theorem execIdleNak_ok {x0 : Fin 12} {x1 : State} (h1 : x1.Ok q n) : OutOk q n (execIdleNak x0 x1) := by
  unfold execIdleNak
  repeat' (with_reducible first | assumption | apply OutOk.next | apply idleNakIn_ok)

theorem execExitBurst_ok {x0 : Fin 12} {x1 : State} (h1 : x1.Ok q n) : OutOk q n (execExitBurst x0 x1) := by
  unfold execExitBurst
  repeat' first
    | (intro)
    | (with_reducible first | assumption | apply OutOk.next | apply State.onLn_ok | apply dropIdle_ok | apply State.pump_ok
                            | apply State.onLp_ok | apply State.w_ok | apply forAll_ok)
    | (extract_lets +onlyGivenNames t; (have hs : State.Ok q n t := ?_); on_goal 1 => (clear_value t; revert t; intro u hs))
    | (fail_if_no_progress extract_lets +onlyGivenNames u)
    | split

theorem wakeTxIn_ok {x0 : Nat} {x1 : State} (h1 : x1.Ok q n) : (wakeTxIn x0 x1).Ok q n := by
  unfold wakeTxIn
  repeat' first | (with_reducible first | assumption | apply State.onLp_ok) | split

theorem execWakeTx_ok {x0 : Fin 12} {x1 : State} (h1 : x1.Ok q n) : OutOk q n (execWakeTx x0 x1) := by
  unfold execWakeTx
  repeat' (with_reducible first | assumption | apply OutOk.next | apply wakeTxIn_ok)

theorem linkConfigAct_ok {x0 : Desc} {x1 : State} (h1 : x1.Ok q n) : (linkConfigAct x0 x1).after.Ok q n := by
  unfold linkConfigAct
  repeat' first | (intro) | (with_reducible first | assumption | apply State.wImg_ok | apply forAll_ok)

theorem execLinkConfig_ok {x0 : Desc} {x1 : State} (h1 : x1.Ok q n) : OutOk q n (execLinkConfig x0 x1) := by
  unfold execLinkConfig
  repeat' (with_reducible first | assumption | apply OutOk.next | apply runAct_ok | apply linkConfigAct_ok)

theorem execLinkEnable_ok {x0 : Desc} {x1 : State} (h1 : x1.Ok q n) : OutOk q n (execLinkEnable x0 x1) := by
  unfold execLinkEnable
  repeat' first
    | (intro)
    | (with_reducible first | assumption | apply OutOk.next | apply runCmd_ok | apply enablePort_ok | apply forAll_ok)

theorem execLinkDisable_ok {x0 : Desc} {x1 : State} (h1 : x1.Ok q n) : OutOk q n (execLinkDisable x0 x1) := by
  unfold execLinkDisable
  repeat' first
    | (intro)
    | (with_reducible first | assumption | apply OutOk.next | apply runCmd_ok | apply checked_ok | apply shutPort_ok
                            | apply forAll_ok)

theorem excludeLane_ok {x0 x1 : Nat} {x2 : State} (h2 : x2.Ok q n) : (excludeLane x0 x1 x2).Ok q n := by
  unfold excludeLane
  repeat' first
    | (with_reducible first | assumption | apply setLane_ok | apply restripeOwn_ok | apply State.w_ok)
    | (extract_lets +onlyGivenNames t; (have hs : State.Ok q n t := ?_); on_goal 1 => (clear_value t; revert t; intro u hs))
    | (fail_if_no_progress extract_lets +onlyGivenNames u)
    | split

theorem includeLane_ok {x0 x1 : Nat} {x2 : State} (h2 : x2.Ok q n) : (includeLane x0 x1 x2).Ok q n := by
  unfold includeLane
  repeat' first | (with_reducible first | assumption | apply State.onLn_ok | apply setLane_ok) | split

theorem execLinkLane_ok {x0 : Desc} {x1 : State} (h1 : x1.Ok q n) : OutOk q n (execLinkLane x0 x1) := by
  unfold execLinkLane
  repeat' first
    | (intro)
    | (with_reducible first | assumption | apply OutOk.next | apply runCmd_ok | apply checked_ok | apply excludeLane_ok
                            | apply includeLane_ok)
    | split

theorem linkApertureAct_ok {x0 : Desc} {x1 : State} (h1 : x1.Ok q n) : (linkApertureAct x0 x1).after.Ok q n := by
  unfold linkApertureAct
  repeat' (with_reducible first | assumption | apply State.w_ok)

theorem execLinkAperture_ok {x0 : Desc} {x1 : State} (h1 : x1.Ok q n) : OutOk q n (execLinkAperture x0 x1) := by
  unfold execLinkAperture
  repeat' (with_reducible first | assumption | apply OutOk.next | apply runAct_ok | apply linkApertureAct_ok)

theorem execLinkStatus_ok {x0 : Desc} {x1 : State} (h1 : x1.Ok q n) : OutOk q n (execLinkStatus x0 x1) := by
  unfold execLinkStatus
  repeat' first | (intro) | (with_reducible first | assumption | apply OutOk.next | apply runCmd_ok | apply State.winStore_ok)

end Sys2Proof.Machine
end

