-- ==== Sys2Proof/Laws/KeepVcm.lean ====
section
/-! SUPPORT. What the VCM controller keeps: the canonical form of memories and registers, the queue and the time. -/

namespace Sys2Proof.Machine
variable {q : List Instr} {n : Nat}

theorem fillPattern_wf {v : Nat} (k : Nat) : ∀ {m : Mem} {a : Nat}, m.wf = true → (fillPattern m a v k).wf = true := by
  induction k with
  | zero => exact fun h => h
  | succ k ih => exact fun h => ih (Mem.wf_wrs _ _ h)

theorem vcm_wf {s : State} (h : s.Ok q n) : s.mem.vcm.wf = true := space_wf (sp := 0) h

theorem accessRow_ok {x0 : Nat} {x1 : State} (h1 : x1.Ok q n) : (accessRow x0 x1).Ok q n := by
  unfold accessRow
  repeat' (with_reducible first | assumption | apply State.onVp_ok)

theorem block_ok {x0 : List Nat} {x1 : Nat} {x2 : State} (h2 : x2.Ok q n) : (block x0 x1 x2).Ok q n := by
  unfold block
  repeat' first | with_reducible assumption | fail_if_no_progress with_reducible apply Ok.parts

theorem countBlock_ok {x0 : Block} {x1 : State} (h1 : x1.Ok q n) : (countBlock x0 x1).Ok q n := by
  unfold countBlock
  repeat' first
    | (unfold t; clear t)
    | (with_reducible first | assumption | apply State.hi_ok | apply State.inc_ok)
    | (extract_lets +onlyGivenNames t; (have hs : State.Ok q n t := ?_); on_goal 1 => (clear_value t; revert t; intro u hs))
    | split
    | fail_if_no_progress with_reducible apply Ok.parts

theorem blockTick_ok {x0 : State} (h0 : x0.Ok q n) : (blockTick x0).Ok q n := by
  unfold blockTick
  repeat' first
    | (intro)
    | (unfold t; clear t)
    | (with_reducible first | assumption | apply countBlock_ok | apply Ok.foldl)
    | (extract_lets +onlyGivenNames t; (have hs : State.Ok q n t := ?_); on_goal 1 => (clear_value t; revert t; intro u hs))
    | fail_if_no_progress with_reducible apply Ok.parts

theorem setDebt_ok {x0 x1 : Nat} {x2 : State} (h2 : x2.Ok q n) : (setDebt x0 x1 x2).Ok q n := by
  unfold setDebt
  repeat' (with_reducible first | assumption | apply State.onVp_ok | apply State.w_ok)

theorem goUrgent_ok {x0 : List Nat} {x1 : State} (h1 : x1.Ok q n) : (goUrgent x0 x1).Ok q n := by
  unfold goUrgent
  repeat' first
    | (intro)
    | (with_reducible first | assumption | apply block_ok | apply State.w_ok | apply forAll_ok)
    | (fail_if_no_progress extract_lets +onlyGivenNames u)
    | split

theorem refreshDue_ok {x0 : Nat} {x1 : State} (h1 : x1.Ok q n) : (refreshDue x0 x1).Ok q n := by
  unfold refreshDue
  repeat' first
    | (with_reducible first | assumption | apply State.onVp_ok | apply setDebt_ok | apply State.w_ok | apply goUrgent_ok)
    | split

theorem execRefreshInterval_ok {x0 : Fin 128} {x1 : State} (h1 : x1.Ok q n) : OutOk q n (execRefreshInterval x0 x1) := by
  unfold execRefreshInterval
  repeat' first
    | (with_reducible first | assumption | apply OutOk.next | apply refreshDue_ok)
    | (fail_if_no_progress extract_lets +onlyGivenNames u)
    | split

theorem refreshAll_ok {x0 : Nat} {x1 : State} (h1 : x1.Ok q n) : (refreshAll x0 x1).Ok q n := by
  unfold refreshAll
  repeat' first
    | (with_reducible first | assumption | apply setDebt_ok | apply State.inc_ok | apply State.onVp_ok | apply State.w_ok)
    | (extract_lets +onlyGivenNames t; (have hs : State.Ok q n t := ?_); on_goal 1 => (clear_value t; revert t; intro u hs))
    | split

theorem refreshBank_ok {x0 : Nat} {x1 : State} (h1 : x1.Ok q n) : (refreshBank x0 x1).Ok q n := by
  unfold refreshBank
  repeat' first
    | (with_reducible first | assumption | apply setDebt_ok | apply State.onVp_ok | apply State.w_ok)
    | (extract_lets +onlyGivenNames t; (have hs : State.Ok q n t := ?_); on_goal 1 => (clear_value t; revert t; intro u hs))
    | (fail_if_no_progress extract_lets +onlyGivenNames u)
    | split

theorem execRefreshIssue_ok {x0 : Fin 128} {x1 : Bool} {x2 : State} (h2 : x2.Ok q n) : OutOk q n (execRefreshIssue x0 x1 x2) := by
  unfold execRefreshIssue
  repeat' first
    | (with_reducible first | assumption | apply OutOk.next | apply refreshAll_ok | apply refreshBank_ok)
    | (fail_if_no_progress extract_lets +onlyGivenNames u)
    | split

theorem stackSample_ok {x0 : Nat} {x1 : Option Int} {x2 : State} (h2 : x2.Ok q n) : (stackSample x0 x1 x2).Ok q n := by
  unfold stackSample
  repeat' first
    | (unfold t; clear t)
    | (with_reducible first | assumption | apply State.w_ok | apply event_ok | apply State.setF_ok)
    | (extract_lets +onlyGivenNames t; (have hs : State.Ok q n t := ?_); on_goal 1 => (clear_value t; revert t; intro u hs))
    | (fail_if_no_progress extract_lets +onlyGivenNames u)
    | split

theorem stackSamples_ok {x0 : List (Nat × Option Int)} {x1 : State} (h1 : x1.Ok q n) : (stackSamples x0 x1).Ok q n := by
  unfold stackSamples
  repeat' first | (intro) | (with_reducible first | assumption | apply goUrgent_ok | apply stackSample_ok | apply Ok.foldl) | split

theorem saveList_ok {x0 : State} (h0 : x0.Ok q n) : (saveList x0).Ok q n := by
  unfold saveList
  repeat' (with_reducible first | assumption | apply recWrite_ok)

theorem listRow_ok {x0 : Nat} {x1 : State} (h1 : x1.Ok q n) : (listRow x0 x1).Ok q n := by
  unfold listRow
  repeat' first | (with_reducible first | assumption | apply saveList_ok) | fail_if_no_progress with_reducible apply Ok.parts

theorem retireRow_ok {x0 x1 x2 : Nat} {x3 : State} (h3 : x3.Ok q n) : (retireRow x0 x1 x2 x3).Ok q n := by
  unfold retireRow
  repeat' first
    | (with_reducible first | assumption | apply listRow_ok | apply State.setF_ok | apply State.inc_ok | apply State.onVp_ok
                            | apply event_ok | apply lifeAdd_ok)
    | (extract_lets +onlyGivenNames t; (have hs : State.Ok q n t := ?_); on_goal 1 => (clear_value t; revert t; intro u hs))
    | (fail_if_no_progress extract_lets +onlyGivenNames u)
    | split

theorem readRow_ok {x0 x1 : Nat} {x2 : State} (h2 : x2.Ok q n) : (readRow x0 x1 x2).Ok q n := by
  unfold readRow
  repeat' first
    | (unfold t; clear t)
    | (with_reducible first | assumption | apply retireRow_ok | apply accessRow_ok | apply faultEvent_ok | apply lifeAdd_ok
                            | apply State.inc_ok | apply State.setBad_ok | apply State.w_ok | apply event_ok)
    | (extract_lets +onlyGivenNames t; (have hs : State.Ok q n t := ?_); on_goal 1 => (clear_value t; revert t; intro u hs))
    | (extract_lets +onlyGivenNames t; (have hs : ∀ a, State.Ok q n a → State.Ok q n (t a) := ?_); on_goal 1 => (clear_value t; revert t; intro u hf))
    | split

theorem takeRead_ok {x0 : VRead} {x1 : Bool} {x2 : State} (h2 : x2.Ok q n) : (takeRead x0 x1 x2).Ok q n := by
  unfold takeRead
  repeat' first
    | (with_reducible first | assumption | apply putGran_ok | apply State.setF_ok)
    | (extract_lets +onlyGivenNames t; (have hs : State.Ok q n t := ?_); on_goal 1 => (clear_value t; revert t; intro u hs))
    | split
    | fail_if_no_progress with_reducible apply Ok.parts

theorem resupply_ok {x0 : Nat} {x1 : State} (h1 : x1.Ok q n) : (resupply x0 x1).Ok q n := by
  unfold resupply
  repeat' first | (with_reducible first | assumption | apply supply_ok) | split

theorem bulkRead_ok {x0 : Nat} {x1 : Bool} {x2 : State} (h2 : x2.Ok q n) : (bulkRead x0 x1 x2).Ok q n := by
  unfold bulkRead
  repeat' first | (with_reducible first | assumption | apply resupply_ok | apply putGran_ok) | split

theorem dramRead_ok {x0 x1 : Nat} {x2 : Option VRead} {x3 : State} (h3 : x3.Ok q n) : (dramRead x0 x1 x2 x3).Ok q n := by
  unfold dramRead
  repeat' first
    | (unfold t; clear t)
    | (with_reducible first | assumption | apply readRow_ok | apply resupply_ok | apply takeRead_ok | apply bulkRead_ok)
    | (extract_lets +onlyGivenNames t; (have hs : State.Ok q n t := ?_); on_goal 1 => (clear_value t; revert t; intro u hs))
    | split

theorem execVcmReadDone_ok {x0 x1 : Nat} {x2 : State} (h2 : x2.Ok q n) : OutOk q n (execVcmReadDone x0 x1 x2) := by
  unfold execVcmReadDone
  repeat' first
    | (with_reducible first | assumption | apply OutOk.next | apply State.inc_ok | apply resupply_ok | apply takeRead_ok
                            | apply bulkRead_ok | apply dramRead_ok)
    | (extract_lets +onlyGivenNames t; (have hs : State.Ok q n t := ?_); on_goal 1 => (clear_value t; revert t; intro u hs))
    | (extract_lets +onlyGivenNames t; clear_value t; revert t; intro u)
    | split

theorem execVcmWriteDrain_ok {x0 : Fin 128} {x1 : State} (h1 : x1.Ok q n) : OutOk q n (execVcmWriteDrain x0 x1) := by
  unfold execVcmWriteDrain
  repeat' first
    | (unfold t; clear t)
    | (with_reducible first | assumption | apply OutOk.next | apply accessRow_ok | apply State.onVp_ok | apply State.setBad_ok
                            | apply State.w_ok)
    | (extract_lets +onlyGivenNames t; (have hs : State.Ok q n t := ?_); on_goal 1 => (clear_value t; revert t; intro u hs))
    | (fail_if_no_progress extract_lets +onlyGivenNames u)
    | split

theorem repairRow_ok {x0 : Nat} {x1 : Retire} {x2 : List Retire} {x3 : State} (h3 : x3.Ok q n) : (repairRow x0 x1 x2 x3).Ok q n := by
  unfold repairRow
  repeat' (with_reducible first | assumption | apply State.fresh_ok | apply block_ok | apply State.onVp_ok | apply listRow_ok | apply lifeAdd_ok | apply State.inc_ok | apply event_ok)

theorem execRowRepair_ok {x0 : Fin 128} {x1 : State} (h1 : x1.Ok q n) : OutOk q n (execRowRepair x0 x1) := by
  unfold execRowRepair
  repeat' first
    | (with_reducible first | assumption | apply OutOk.next | apply repairRow_ok)
    | (fail_if_no_progress extract_lets +onlyGivenNames u)
    | split

theorem trainVcm_ok {x0 : Option (Nat × Nat)} {x1 : State} (h1 : x1.Ok q n) : (trainVcm x0 x1).Ok q n := by
  unfold trainVcm
  repeat' first
    | (intro)
    | (unfold t; clear t)
    | (with_reducible first | assumption | apply State.w_ok | apply State.onVp_ok | apply State.setBad_ok | apply State.setSpace_ok
                            | apply saveList_ok | apply event_ok | apply forAll_ok)
    | exact rfl
    | (extract_lets +onlyGivenNames t; (have hs : State.Ok q n t := ?_); on_goal 1 => (clear_value t; revert t; intro u hs))
    | split
    | fail_if_no_progress with_reducible apply Ok.parts

theorem unbind_ok {x0 : Nat} {x1 : State} (h1 : x1.Ok q n) : (unbind x0 x1).Ok q n := by
  unfold unbind
  repeat' (with_reducible first | assumption | apply State.w_ok)

theorem clearTable_ok {x0 : Nat} {x1 : State} (h1 : x1.Ok q n) : (clearTable x0 x1).Ok q n := by
  unfold clearTable
  repeat' (with_reducible first | assumption | apply loadWindow_ok | apply touchPitch_ok | apply State.w_ok | apply unpin_ok)

theorem execVcmInfo_ok {x0 : Desc} {x1 : State} (h1 : x1.Ok q n) : OutOk q n (execVcmInfo x0 x1) := by
  unfold execVcmInfo
  repeat' first | (intro) | (with_reducible first | assumption | apply OutOk.next | apply runCmd_ok | apply State.winStore_ok)

theorem execVcmErrlog_ok {x0 : Desc} {x1 : State} (h1 : x1.Ok q n) : OutOk q n (execVcmErrlog x0 x1) := by
  unfold execVcmErrlog
  repeat' first | (intro) | (with_reducible first | assumption | apply OutOk.next | apply runCmd_ok | apply State.winStore_ok)

theorem execVcmFill_ok {x0 : Desc} {x1 : State} (h1 : x1.Ok q n) : OutOk q n (execVcmFill x0 x1) := by
  unfold execVcmFill
  repeat' first
    | (intro)
    | (with_reducible first | assumption | apply OutOk.next | apply runCmd_ok | apply checked_ok)
    | fail_if_no_progress with_reducible apply Ok.parts

theorem filled_ok {x0 x1 x2 : Nat} {x3 : State} (h3 : x3.Ok q n) : (filled x0 x1 x2 x3).Ok q n := by
  unfold filled
  repeat' first
    | (with_reducible first | assumption | apply State.setSpace_ok | apply State.setBad_ok | apply clearPrep_ok | apply forAll_ok)
    | exact fillPattern_wf _ (vcm_wf (by assumption))

theorem execVcmFillDone_ok {x0 : Nat} {x1 : State} (h1 : x1.Ok q n) : OutOk q n (execVcmFillDone x0 x1) := by
  unfold execVcmFillDone
  repeat' first
    | (with_reducible first | assumption | apply OutOk.next | apply complete_ok | apply filled_ok | apply dropJob_ok)
    | split

theorem beginRetrain_ok {x0 : Desc} {x1 : State} (h1 : x1.Ok q n) : (beginRetrain x0 x1).Ok q n := by
  unfold beginRetrain
  repeat' first
    | (with_reducible first | assumption | apply clearTable_ok | apply unbind_ok | apply State.w_ok | apply forAll_ok)
    | (extract_lets +onlyGivenNames t; (have hs : State.Ok q n t := ?_); on_goal 1 => (clear_value t; revert t; intro u hs))
    | fail_if_no_progress with_reducible apply Ok.parts

theorem execVcmRetrain_ok {x0 : Desc} {x1 : State} (h1 : x1.Ok q n) : OutOk q n (execVcmRetrain x0 x1) := by
  unfold execVcmRetrain
  repeat' first
    | (intro)
    | (with_reducible first | assumption | apply OutOk.next | apply runCmd_ok | apply checked_ok | apply beginRetrain_ok)

theorem execVcmRetrainDone_ok {x0 : Option (Fin 128 × Nat)} {x1 : State} (h1 : x1.Ok q n) : OutOk q n (execVcmRetrainDone x0 x1) := by
  unfold execVcmRetrainDone
  repeat' first
    | (unfold t; clear t)
    | (with_reducible first | assumption | apply OutOk.next | apply complete_ok | apply trainVcm_ok | apply dropJob_ok)
    | split

theorem vcmScrubAct_ok {x0 : Desc} {x1 : State} (h1 : x1.Ok q n) : (vcmScrubAct x0 x1).after.Ok q n := by
  unfold vcmScrubAct
  repeat' (with_reducible first | assumption | apply State.w_ok)

theorem execVcmScrub_ok {x0 : Desc} {x1 : State} (h1 : x1.Ok q n) : OutOk q n (execVcmScrub x0 x1) := by
  unfold execVcmScrub
  repeat' (with_reducible first | assumption | apply OutOk.next | apply runAct_ok | apply vcmScrubAct_ok)

end Sys2Proof.Machine
end

