-- ==== Sys2Proof/Laws/KeepCsr.lean ====
section
/-! SUPPORT. What the CSR window keeps: the canonical form of memories and registers, the queue and the time. -/

namespace Sys2Proof.Machine
variable {q : List Instr} {n : Nat}

theorem mbErr_ok {x0 x1 : Nat} {x2 : State} (h2 : x2.Ok q n) : (mbErr x0 x1 x2).Ok q n := by
  unfold mbErr
  repeat' (with_reducible first | assumption | apply event_ok | apply State.setF_ok | apply State.w_ok)

theorem mbFields_ok {x0 x1 : Nat} {x2 : State} (h2 : x2.Ok q n) : (mbFields x0 x1 x2).Ok q n := by
  unfold mbFields
  repeat' (with_reducible first | assumption | apply State.w_ok)

theorem mbEnable_ok {x0 x1 : Nat} {x2 : State} (h2 : x2.Ok q n) : (mbEnable x0 x1 x2).Ok q n := by
  unfold mbEnable
  repeat' first
    | (with_reducible first | assumption | apply mbFields_ok | apply mbErr_ok | apply State.w_ok | apply mirrorMb_ok
                            | apply State.setF_ok)
    | (extract_lets +onlyGivenNames t; (have hs : State.Ok q n t := ?_); on_goal 1 => (clear_value t; revert t; intro u hs))
    | (fail_if_no_progress extract_lets +onlyGivenNames u)
    | split
    | fail_if_no_progress with_reducible apply Ok.parts

theorem mbDisable_ok {x0 : Nat} {x1 : State} (h1 : x1.Ok q n) : (mbDisable x0 x1).Ok q n := by
  unfold mbDisable
  repeat' first | (with_reducible first | assumption | apply drained_ok) | split | fail_if_no_progress with_reducible apply Ok.parts

theorem mbCfg_ok {x0 x1 : Nat} {x2 : State} (h2 : x2.Ok q n) : (mbCfg x0 x1 x2).Ok q n := by
  unfold mbCfg
  repeat' first | (with_reducible first | assumption | apply mbDisable_ok | apply mbEnable_ok | apply mbFields_ok) | split

theorem mbDb_ok {x0 : Path} {x1 x2 : Nat} {x3 : State} (h3 : x3.Ok q n) : (mbDb x0 x1 x2 x3).Ok q n := by
  unfold mbDb
  repeat' first
    | (with_reducible first | assumption | apply mbErr_ok | apply mirrorMb_ok | apply State.w_ok)
    | (extract_lets +onlyGivenNames t; (have hs : State.Ok q n t := ?_); on_goal 1 => (clear_value t; revert t; intro u hs))
    | (fail_if_no_progress extract_lets +onlyGivenNames u)
    | split
    | fail_if_no_progress with_reducible apply Ok.parts

theorem mbCplCons_ok {x0 x1 : Nat} {x2 : State} (h2 : x2.Ok q n) : (mbCplCons x0 x1 x2).Ok q n := by
  unfold mbCplCons
  repeat' first
    | (with_reducible first | assumption | apply mbErr_ok | apply mirrorMb_ok | apply State.w_ok)
    | (fail_if_no_progress extract_lets +onlyGivenNames u)
    | split

theorem evrCfg_ok {x0 : Nat} {x1 : State} (h1 : x1.Ok q n) : (evrCfg x0 x1).Ok q n := by
  unfold evrCfg
  repeat' first
    | (with_reducible first | assumption | apply State.w_ok | apply State.wImg_ok)
    | (extract_lets +onlyGivenNames t; (have hs : State.Ok q n t := ?_); on_goal 1 => (clear_value t; revert t; intro u hs))
    | (fail_if_no_progress extract_lets +onlyGivenNames u)
    | split

theorem evrCons_ok {x0 : Nat} {x1 : State} (h1 : x1.Ok q n) : (evrCons x0 x1).Ok q n := by
  unfold evrCons
  repeat' first
    | (with_reducible first | assumption | apply State.w_ok)
    | (fail_if_no_progress extract_lets +onlyGivenNames u)
    | split

theorem execMbEnable_ok {x0 : Fin 64} {x1 : Nat} {x2 : State} (h2 : x2.Ok q n) : OutOk q n (execMbEnable x0 x1 x2) := by
  unfold execMbEnable
  repeat' (with_reducible first | assumption | apply OutOk.next | apply mbCfg_ok)

theorem execMbDisable_ok {x0 : Fin 64} {x1 : State} (h1 : x1.Ok q n) : OutOk q n (execMbDisable x0 x1) := by
  unfold execMbDisable
  repeat' (with_reducible first | assumption | apply OutOk.next | apply mbDisable_ok)

theorem execMbDb_ok {x0 : Path} {x1 : Fin 64} {x2 : Nat} {x3 : State} (h3 : x3.Ok q n) : OutOk q n (execMbDb x0 x1 x2 x3) := by
  unfold execMbDb
  repeat' (with_reducible first | assumption | apply OutOk.next | apply mbDb_ok)

theorem execMbCplConsWrite_ok {x0 : Fin 64} {x1 : Nat} {x2 : State} (h2 : x2.Ok q n) : OutOk q n (execMbCplConsWrite x0 x1 x2) := by
  unfold execMbCplConsWrite
  repeat' (with_reducible first | assumption | apply OutOk.next | apply mbCplCons_ok)

theorem execEvrEnable_ok {x0 : Nat} {x1 : State} (h1 : x1.Ok q n) : OutOk q n (execEvrEnable x0 x1) := by
  unfold execEvrEnable
  repeat' (with_reducible first | assumption | apply OutOk.next | apply evrCfg_ok)

theorem execEvrConsWrite_ok {x0 : Nat} {x1 : State} (h1 : x1.Ok q n) : OutOk q n (execEvrConsWrite x0 x1) := by
  unfold execEvrConsWrite
  repeat' (with_reducible first | assumption | apply OutOk.next | apply evrCons_ok)

theorem consume_ok {x0 : Fld} {x1 x2 x3 : Nat} {x4 : State} (h4 : x4.Ok q n) : (consume x0 x1 x2 x3 x4).Ok q n := by
  unfold consume
  repeat' first | (with_reducible first | assumption | apply State.w_ok) | split

theorem execCuStailWrite_ok {x0 : Fin 32} {x1 : Nat} {x2 : State} (h2 : x2.Ok q n) : OutOk q n (execCuStailWrite x0 x1 x2) := by
  unfold execCuStailWrite
  repeat' (with_reducible first | assumption | apply OutOk.next | apply consume_ok)

theorem resCons_ok {x0 : Nat} {x1 : State} (h1 : x1.Ok q n) : (resCons x0 x1).Ok q n := by
  unfold resCons
  repeat' first
    | (with_reducible first | assumption | apply consume_ok | apply State.w_ok)
    | (extract_lets +onlyGivenNames t; (have hs : State.Ok q n t := ?_); on_goal 1 => (clear_value t; revert t; intro u hs))
    | split
    | fail_if_no_progress with_reducible apply Ok.parts

theorem execResConsWrite_ok {x0 : Nat} {x1 : State} (h1 : x1.Ok q n) : OutOk q n (execResConsWrite x0 x1) := by
  unfold execResConsWrite
  repeat' (with_reducible first | assumption | apply OutOk.next | apply resCons_ok)

theorem execTwMresConsWrite_ok {x0 : Nat} {x1 : State} (h1 : x1.Ok q n) : OutOk q n (execTwMresConsWrite x0 x1) := by
  unfold execTwMresConsWrite
  repeat' (with_reducible first | assumption | apply OutOk.next | apply consume_ok)

theorem duWrite_ok {x0 : Nat} {x1 : Bool} {x2 : Nat} {x3 : State} (h3 : x3.Ok q n) : (duWrite x0 x1 x2 x3).Ok q n := by
  unfold duWrite
  repeat' first
    | (with_reducible first | assumption | apply readmit_ok | apply State.wImg_ok | apply State.setF_ok)
    | (fail_if_no_progress extract_lets +onlyGivenNames u)
    | split

theorem execDuQuotaWrite_ok {x0 : Fin 8} {x1 : Bool} {x2 : Nat} {x3 : State} (h3 : x3.Ok q n) : OutOk q n (execDuQuotaWrite x0 x1 x2 x3) := by
  unfold execDuQuotaWrite
  repeat' (with_reducible first | assumption | apply OutOk.next | apply duWrite_ok)

theorem latchHi_ok {x0 : Reg} {x1 : Nat} {x2 : State} (h2 : x2.Ok q n) : (latchHi x0 x1 x2).Ok q n := by
  unfold latchHi
  repeat' first | (with_reducible first | assumption | apply State.w_ok) | split

theorem regRead_ok {x0 : Reg} {x1 x2 : Nat} {x3 : State} (h3 : x3.Ok q n) : (regRead x0 x1 x2 x3).2.Ok q n := by
  unfold regRead
  repeat' first | (intro) | (with_reducible first | assumption | apply rcRead_ok | apply latchHi_ok | apply Ok.foldl) | split

theorem csrRead4_ok {x0 : Path} {x1 : Nat} {x2 : State} (h2 : x2.Ok q n) : (csrRead4 x0 x1 x2).2.Ok q n := by
  unfold csrRead4
  repeat' first | (with_reducible first | assumption | apply regRead_ok) | split

theorem csrRead_ok {x0 : Path} {x1 x2 : Nat} {x3 : State} (h3 : x3.Ok q n) : (csrRead x0 x1 x2 x3).2.Ok q n := by
  unfold csrRead
  repeat' first | (with_reducible first | assumption | apply csrRead4_ok) | split | with_reducible refine Ok.snd (by assumption) ?_

theorem keepRead_ok {x0 : Path} {x1 : Nat} {x2 : Nat × State} (h2 : x2.2.Ok q n) : (keepRead x0 x1 x2).Ok q n := by
  unfold keepRead
  repeat' first
    | with_reducible assumption
    | (extract_lets +onlyGivenNames t; (have hs : State.Ok q n t := ?_); on_goal 1 => (clear_value t; revert t; intro u hs))
    | fail_if_no_progress with_reducible apply Ok.parts

theorem execRcRead_ok {x0 : Path} {x1 : Nat} {x2 : State} (h2 : x2.Ok q n) : OutOk q n (execRcRead x0 x1 x2) := by
  unfold execRcRead
  repeat' first | (with_reducible first | assumption | apply OutOk.next | apply keepRead_ok | apply csrRead_ok) | split

theorem execLatchedPairRead_ok {x0 : Path} {x1 : Nat} {x2 : State} (h2 : x2.Ok q n) : OutOk q n (execLatchedPairRead x0 x1 x2) := by
  unfold execLatchedPairRead
  repeat' first | (with_reducible first | assumption | apply OutOk.next | apply keepRead_ok | apply csrRead_ok) | split

theorem plainWrite_ok {x0 : Reg} {x1 x2 x3 : Nat} {x4 : State} (h4 : x4.Ok q n) : (plainWrite x0 x1 x2 x3 x4).Ok q n := by
  unfold plainWrite
  repeat' first | (intro) | (with_reducible first | assumption | apply State.w_ok | apply w1c_ok | apply Ok.foldl) | split

theorem ifIdle_ok {x0 : Option Nat} {x1 : State → State} {x2 : State} (h1 : ∀ a0, a0.Ok q n → (x1 a0).Ok q n) (h2 : x2.Ok q n) : (ifIdle x0 x1 x2).Ok q n := by
  unfold ifIdle
  repeat' first | (with_reducible first | assumption | apply State.setF_ok | apply h1) | split

theorem regWrite_ok {x0 : Path} {x1 : Reg} {x2 x3 x4 : Nat} {x5 : State} (h5 : x5.Ok q n) : (regWrite x0 x1 x2 x3 x4 x5).Ok q n := by
  unfold regWrite
  repeat' first
    | (intro)
    | (with_reducible first | assumption | apply plainWrite_ok | apply phWrite_ok | apply setFlags_ok | apply loadCounter_ok
                            | apply ifIdle_ok | apply stripMask_ok | apply tdRefresh_ok | apply duWrite_ok | apply srCommit_ok
                            | apply consume_ok | apply resCons_ok | apply mbCfg_ok | apply mbDb_ok | apply mbCplCons_ok
                            | apply evrCfg_ok | apply evrCons_ok | apply hf | apply hg | apply hk | apply hl | apply hm)
    | (extract_lets +onlyGivenNames t; (have hs : State.Ok q n t := ?_); on_goal 1 => (clear_value t; revert t; intro u hs))
    | (extract_lets +onlyGivenNames t; (have hs : ∀ a, State.Ok q n a → State.Ok q n (t a) := ?_); on_goal 1 => (clear_value t; revert t; intro u hf))
    | split

theorem csrWrite4_ok {x0 : Path} {x1 x2 : Nat} {x3 : State} (h3 : x3.Ok q n) : (csrWrite4 x0 x1 x2 x3).Ok q n := by
  unfold csrWrite4
  repeat' first | (with_reducible first | assumption | apply regWrite_ok) | split

theorem csrWrite_ok {x0 : Path} {x1 x2 x3 : Nat} {x4 : State} (h4 : x4.Ok q n) : (csrWrite x0 x1 x2 x3 x4).Ok q n := by
  unfold csrWrite
  repeat' first | (with_reducible first | assumption | apply regWrite_ok | apply csrWrite4_ok) | split

theorem execRegisterWrite_ok {x0 : Path} {x1 : Nat} {x2 : Bool} {x3 : Nat} {x4 : State} (h4 : x4.Ok q n) : OutOk q n (execRegisterWrite x0 x1 x2 x3 x4) := by
  unfold execRegisterWrite
  repeat' first
    | (with_reducible first | assumption | apply OutOk.next | apply csrWrite_ok)
    | (fail_if_no_progress extract_lets +onlyGivenNames u)
    | split

end Sys2Proof.Machine
end

