-- ==== Sys2Proof/Laws/KeepCoat.lean ====
section
/-! SUPPORT. What coats keep: the canonical form of memories and registers, the queue and the time. -/

namespace Sys2Proof.Machine
variable {q : List Instr} {n : Nat}

theorem coatCmd_ok {x0 : Nat} {x1 : Desc} {x2 : State} (h2 : x2.Ok q n) : (coatCmd x0 x1 x2).2.after.Ok q n := by
  unfold coatCmd
  repeat' first
    | (with_reducible first | assumption | apply seqFormAct_ok | apply seqFollowAct_ok | apply seqMarkAct_ok | apply chConfigAct_ok
                            | apply tsetWriteAct_ok | apply tsetInvalidateAct_ok | apply patQuotaAct_ok | apply patRingAct_ok
                            | apply capConfigAct_ok | apply capTrigsetAct_ok | apply capBusAct_ok | apply tdcStripAct_ok
                            | apply calSysoffAct_ok | apply vcmScrubAct_ok | apply linkConfigAct_ok | apply linkApertureAct_ok
                            | apply timeGuycfgAct_ok | apply timePtpcfgAct_ok | apply timeFwdAct_ok)
    | split

theorem fieldAfter_ok {x0 : Path} {x1 : Csr} {x2 : Nat} {x3 : State} (h3 : x3.Ok q n) : (fieldAfter x0 x1 x2 x3).Ok q n := by
  unfold fieldAfter
  repeat' first | (with_reducible first | assumption | apply tdcStripAct_ok | apply regWrite_ok) | split

theorem coatEnt_ok {x0 : CoatAt} {x1 : State} {x2 : CoatEnt} (h1 : x1.Ok q n) : (coatEnt x0 x1 x2).2.1.Ok q n := by
  unfold coatEnt
  repeat' first | (with_reducible first | assumption | apply fieldAfter_ok | apply coatCmd_ok) | split

theorem coatRun_ok {x0 : CoatAt} {x1 : List CoatEnt} {x2 : Nat} {x3 : State} (h3 : x3.Ok q n) : ExcOk q n (coatRun x0 x1 x2 x3) := by
  induction x1 generalizing x0 x2 x3 with
  | nil =>
    unfold coatRun
    repeat' first
      | (with_reducible first | assumption | apply ih | apply coatEnt_ok)
      | split
      | (with_reducible first | exact ExcOk.err | apply ExcOk.val | refine Ok.mid (by assumption) ?_)
  | cons b r ih =>
    unfold coatRun
    repeat' first
      | (with_reducible first | assumption | apply ih | apply coatEnt_ok)
      | split
      | (with_reducible first | exact ExcOk.err | apply ExcOk.val | refine Ok.mid (by assumption) ?_)

theorem coatCheck_ok {x0 : CoatAt} {x1 : State} (h1 : x1.Ok q n) : ExcOk q n (coatCheck x0 x1) := by
  unfold coatCheck
  repeat' first
    | (with_reducible first | assumption | apply coatRun_ok)
    | (fail_if_no_progress extract_lets +onlyGivenNames u)
    | split
    | (with_reducible first | exact ExcOk.err | apply ExcOk.val | refine ExcOk.get (by assumption) ?_)

theorem mirrorCoats_ok {x0 : State} (h0 : x0.Ok q n) : (mirrorCoats x0).Ok q n := by
  unfold mirrorCoats
  repeat' (with_reducible first | assumption | apply mirror_ok)

theorem coatSeen_ok {x0 x1 x2 x3 : Nat} {x4 : State} (h4 : x4.Ok q n) : (coatSeen x0 x1 x2 x3 x4).Ok q n := by
  unfold coatSeen
  repeat' (with_reducible first | assumption | apply event_ok | apply measure_ok)

theorem unitsPend_ok {x0 : Nat} {x1 : State} (h1 : x1.Ok q n) : (unitsPend x0 x1).Ok q n := by
  unfold unitsPend
  repeat' first | (with_reducible first | assumption | apply recWrite_ok | apply State.setF_ok) | split

theorem applyBase_ok {x0 : CoatAt} {x1 : Nat} {x2 : State} (h2 : x2.Ok q n) : (applyBase x0 x1 x2).Ok q n := by
  unfold applyBase
  repeat' first
    | (with_reducible first | assumption | apply mirrorCoats_ok | apply unitsPend_ok | apply coatSeen_ok)
    | fail_if_no_progress with_reducible apply Ok.parts

theorem applySkim_ok {x0 : CoatAt} {x1 : Nat} {x2 : State} (h2 : x2.Ok q n) : (applySkim x0 x1 x2).Ok q n := by
  unfold applySkim
  repeat' first
    | (with_reducible first | assumption | apply mirrorCoats_ok | apply coatSeen_ok)
    | fail_if_no_progress with_reducible apply Ok.parts

theorem execCoatLoad_ok {x0 : Desc} {x1 : State} (h1 : x1.Ok q n) : OutOk q n (execCoatLoad x0 x1) := by
  unfold execCoatLoad
  repeat' first
    | (intro)
    | (with_reducible first | assumption | apply OutOk.next | apply runCmd_ok | apply checked_ok | apply coatCheck_ok
                            | apply applyBase_ok)
    | split
    | with_reducible refine ExcOk.get (by assumption) ?_

theorem idled_ok {x0 : List Nat} {x1 : State} (h1 : x1.Ok q n) : (idled x0 x1).Ok q n := by
  unfold idled
  repeat' first | (intro) | (with_reducible first | assumption | apply State.setA_ok | apply State.w_ok | apply forAll_ok) | split

theorem execCoatApply_ok {x0 : Desc} {x1 : State} (h1 : x1.Ok q n) : OutOk q n (execCoatApply x0 x1) := by
  unfold execCoatApply
  repeat' first
    | (intro)
    | (with_reducible first | assumption | apply OutOk.next | apply runCmd_ok | apply checked_ok | apply coatCheck_ok
                            | apply applySkim_ok | apply freeCmd_ok)
    | (fail_if_no_progress extract_lets +onlyGivenNames u)
    | split
    | with_reducible refine ExcOk.get (by assumption) ?_
    | fail_if_no_progress with_reducible apply Ok.parts

theorem retryCoat_ok {x0 : CoatWait} {x1 : State} (h1 : x1.Ok q n) : (retryCoat x0 x1).Ok q n := by
  unfold retryCoat
  repeat' first
    | (with_reducible first | assumption | apply complete_ok | apply coatCheck_ok | apply applySkim_ok)
    | (extract_lets +onlyGivenNames t; (have hs : State.Ok q n t := ?_); on_goal 1 => (clear_value t; revert t; intro u hs))
    | (fail_if_no_progress extract_lets +onlyGivenNames u)
    | split
    | with_reducible refine ExcOk.get (by assumption) ?_
    | fail_if_no_progress with_reducible apply Ok.parts

theorem settleList_ok {x0 : List CoatWait} {x1 : State} (h1 : x1.Ok q n) : (settleList x0 x1).Ok q n := by
  induction x0 generalizing x1 with
  | nil =>
    unfold settleList
    repeat' first | (with_reducible first | assumption | apply ih | apply retryCoat_ok) | split
  | cons b r ih =>
    unfold settleList
    repeat' first | (with_reducible first | assumption | apply ih | apply retryCoat_ok) | split

theorem settle_ok {x0 : State} (h0 : x0.Ok q n) : (settle x0).Ok q n := by
  unfold settle
  repeat' (with_reducible first | assumption | apply settleList_ok)

theorem execCoatWaitTimeout_ok {x0 : Nat} {x1 : State} (h1 : x1.Ok q n) : OutOk q n (execCoatWaitTimeout x0 x1) := by
  unfold execCoatWaitTimeout
  repeat' first
    | (with_reducible first | assumption | apply OutOk.next | apply complete_ok)
    | split
    | fail_if_no_progress with_reducible apply Ok.parts

theorem execCoatList_ok {x0 : Desc} {x1 : State} (h1 : x1.Ok q n) : OutOk q n (execCoatList x0 x1) := by
  unfold execCoatList
  repeat' first | (intro) | (with_reducible first | assumption | apply OutOk.next | apply runCmd_ok | apply State.winStore_ok)

end Sys2Proof.Machine
end

