-- ==== Sys2Proof/Laws/KeepRun.lean ====
section
/-! SUPPORT. What the run of a pitch keeps: the canonical form of memories and registers, the queue and the time. -/

namespace Sys2Proof.Machine
variable {q : List Instr} {n : Nat}

theorem showStacks_ok {x0 : Nat} {x1 : State} (h1 : x1.Ok q n) : (showStacks x0 x1).Ok q n := by
  unfold showStacks
  repeat' first
    | (with_reducible first | assumption | apply State.w_ok)
    | (extract_lets +onlyGivenNames t; (have hs : State.Ok q n t := ?_); on_goal 1 => (clear_value t; revert t; intro u hs))
    | (fail_if_no_progress extract_lets +onlyGivenNames u)
    | split

theorem beginPlace_ok {x0 x1 x2 : Nat} {x3 : Bool} {x4 : Nat} {x5 : Option Issued} {x6 : State} (h6 : x6.Ok q n) : (beginPlace x0 x1 x2 x3 x4 x5 x6).Ok q n := by
  unfold beginPlace
  repeat' (with_reducible first | assumption | apply traceSeg_ok | apply State.w_ok | apply State.onPt_ok | apply showStacks_ok | apply latchNow_ok | apply latchLevels_ok)

theorem beginPass_ok {x0 x1 x2 : Nat} {x3 : Bool} {x4 : Nat} {x5 : State} (h5 : x5.Ok q n) : (beginPass x0 x1 x2 x3 x4 x5).Ok q n := by
  unfold beginPass
  repeat' (with_reducible first | assumption | apply beginPlace_ok)

theorem beginSeg_ok {x0 x1 x2 : Nat} {x3 : State} (h3 : x3.Ok q n) : (beginSeg x0 x1 x2 x3).Ok q n := by
  unfold beginSeg
  repeat' (with_reducible first | assumption | apply beginPass_ok)

theorem stopHere_ok {x0 x1 : Nat} {x2 : State} (h2 : x2.Ok q n) : (stopHere x0 x1 x2).Ok q n := by
  unfold stopHere
  repeat' first
    | (with_reducible first | assumption | apply fixStop_ok | apply showStacks_ok | apply State.onPt_ok | apply State.setF_ok)
    | (extract_lets +onlyGivenNames t; (have hs : State.Ok q n t := ?_); on_goal 1 => (clear_value t; revert t; intro u hs))
    | split

theorem continueAt_ok {x0 x1 x2 : Nat} {x3 : State} (h3 : x3.Ok q n) : (continueAt x0 x1 x2 x3).Ok q n := by
  unfold continueAt
  repeat' first | (with_reducible first | assumption | apply stopHere_ok | apply State.onPt_ok | apply State.w_ok) | split

theorem deferred_ok {x0 : Nat} {x1 : State} (h1 : x1.Ok q n) : (deferred x0 x1).Ok q n := by
  unfold deferred
  repeat' (with_reducible first | assumption | apply State.inc_ok | apply State.setF_ok)

theorem pendJump_ok {x0 x1 x2 x3 : Nat} {x4 : State} (h4 : x4.Ok q n) : (pendJump x0 x1 x2 x3 x4).Ok q n := by
  unfold pendJump
  repeat' first
    | (with_reducible first | assumption | apply deferred_ok | apply showStacks_ok | apply State.onPt_ok | apply State.setF_ok)
    | (extract_lets +onlyGivenNames t; (have hs : State.Ok q n t := ?_); on_goal 1 => (clear_value t; revert t; intro u hs))
    | (fail_if_no_progress extract_lets +onlyGivenNames u)
    | split

theorem endCjump_ok {x0 x1 : Nat} {x2 : State} (h2 : x2.Ok q n) : (endCjump x0 x1 x2).Ok q n := by
  unfold endCjump
  repeat' first
    | (with_reducible first | assumption | apply pendJump_ok | apply State.onPt_ok)
    | (fail_if_no_progress extract_lets +onlyGivenNames u)
    | split

theorem takeWaitPass_ok {x0 x1 : Nat} {x2 : State} (h2 : x2.Ok q n) : (takeWaitPass x0 x1 x2).Ok q n := by
  unfold takeWaitPass
  repeat' (with_reducible first | assumption | apply beginPass_ok | apply State.onPt_ok)

theorem applyFollow_ok {x0 x1 : Nat} {x2 : Follow} {x3 : Option Nat} {x4 : State} (h4 : x4.Ok q n) : (applyFollow x0 x1 x2 x3 x4).Ok q n := by
  unfold applyFollow
  repeat' first
    | (unfold t; clear t)
    | (with_reducible first | assumption | apply deferred_ok | apply beginPass_ok | apply takeWaitPass_ok | apply beginSeg_ok
                            | apply State.onPt_ok | apply endCjump_ok | apply continueAt_ok)
    | (extract_lets +onlyGivenNames t; (have hs : State.Ok q n t := ?_); on_goal 1 => (clear_value t; revert t; intro u hs))
    | split

theorem keepResume_ok {x0 x1 : Nat} {x2 : State} (h2 : x2.Ok q n) : (keepResume x0 x1 x2).Ok q n := by
  unfold keepResume
  repeat' first | (with_reducible first | assumption | apply State.onPt_ok | apply State.w_ok) | split

theorem takeJump_ok {x0 x1 x2 : Nat} {x3 : State} (h3 : x3.Ok q n) : (takeJump x0 x1 x2 x3).Ok q n := by
  unfold takeJump
  repeat' (with_reducible first | assumption | apply beginSeg_ok | apply State.onPt_ok)

theorem quieted_ok {x0 : Nat} {x1 : State} (h1 : x1.Ok q n) : (quieted x0 x1).Ok q n := by
  unfold quieted
  repeat' first | (with_reducible first | assumption | apply quietStep_ok) | split

theorem boundary_ok {x0 : Nat} {x1 : State} (h1 : x1.Ok q n) : (boundary x0 x1).Ok q n := by
  unfold boundary
  repeat' first
    | (with_reducible first | assumption | apply quieted_ok | apply stopHere_ok | apply keepResume_ok | apply takeJump_ok
                            | apply applyFollow_ok)
    | (extract_lets +onlyGivenNames t; (have hs : State.Ok q n t := ?_); on_goal 1 => (clear_value t; revert t; intro u hs))
    | (fail_if_no_progress extract_lets +onlyGivenNames u)
    | split

theorem execBoundary_ok {x0 : Fin 32} {x1 : State} (h1 : x1.Ok q n) : OutOk q n (execBoundary x0 x1) := by
  unfold execBoundary
  repeat' (with_reducible first | assumption | apply OutOk.next | apply boundary_ok)

theorem flowRun_ok {x0 x1 : Nat} {x2 : Nat → Nat → State → State} {x3 : State} (h2 : ∀ a0 a1 a2, a2.Ok q n → (x2 a0 a1 a2).Ok q n) (h3 : x3.Ok q n) : (flowRun x0 x1 x2 x3).Ok q n := by
  unfold flowRun
  repeat' first | (with_reducible first | assumption | apply stopHere_ok | apply State.onPt_ok | apply h2) | split

theorem flowNext_ok {x0 : Nat} {x1 : State} (h1 : x1.Ok q n) : (flowNext x0 x1).Ok q n := by
  unfold flowNext
  repeat' (with_reducible first | assumption | apply continueAt_ok)

theorem loopBegin_ok {x0 x1 x2 : Nat} {x3 : State} (h3 : x3.Ok q n) : (loopBegin x0 x1 x2 x3).Ok q n := by
  unfold loopBegin
  repeat' first | (with_reducible first | assumption | apply stopHere_ok | apply beginSeg_ok | apply State.onPt_ok) | split

theorem execLoopBegin_ok {x0 : Fin 32} {x1 : State} (h1 : x1.Ok q n) : OutOk q n (execLoopBegin x0 x1) := by
  unfold execLoopBegin
  repeat' (with_reducible first | assumption | apply OutOk.next | apply flowRun_ok | apply loopBegin_ok)

theorem loopEnd_ok {x0 x1 x2 : Nat} {x3 : State} (h3 : x3.Ok q n) : (loopEnd x0 x1 x2 x3).Ok q n := by
  unfold loopEnd
  repeat' first
    | (unfold t; clear t)
    | (with_reducible first | assumption | apply stopHere_ok | apply deferred_ok | apply flowNext_ok | apply showStacks_ok
                            | apply State.onPt_ok | apply beginSeg_ok)
    | (extract_lets +onlyGivenNames t; (have hs : State.Ok q n t := ?_); on_goal 1 => (clear_value t; revert t; intro u hs))
    | (fail_if_no_progress extract_lets +onlyGivenNames u)
    | split

theorem execLoopEnd_ok {x0 : Fin 32} {x1 : State} (h1 : x1.Ok q n) : OutOk q n (execLoopEnd x0 x1) := by
  unfold execLoopEnd
  repeat' (with_reducible first | assumption | apply OutOk.next | apply flowRun_ok | apply loopEnd_ok)

theorem callSeg_ok {x0 x1 x2 : Nat} {x3 : State} (h3 : x3.Ok q n) : (callSeg x0 x1 x2 x3).Ok q n := by
  unfold callSeg
  repeat' first | (with_reducible first | assumption | apply stopHere_ok | apply beginSeg_ok | apply State.onPt_ok) | split

theorem execCall_ok {x0 : Fin 32} {x1 : State} (h1 : x1.Ok q n) : OutOk q n (execCall x0 x1) := by
  unfold execCall
  repeat' (with_reducible first | assumption | apply OutOk.next | apply flowRun_ok | apply callSeg_ok)

theorem retSeg_ok {x0 x1 x2 : Nat} {x3 : State} (h3 : x3.Ok q n) : (retSeg x0 x1 x2 x3).Ok q n := by
  unfold retSeg
  repeat' first
    | (with_reducible first | assumption | apply continueAt_ok | apply showStacks_ok | apply State.onPt_ok | apply beginSeg_ok)
    | split

theorem execRet_ok {x0 : Fin 32} {x1 : State} (h1 : x1.Ok q n) : OutOk q n (execRet x0 x1) := by
  unfold execRet
  repeat' (with_reducible first | assumption | apply OutOk.next | apply flowRun_ok | apply retSeg_ok)

theorem waitSeg_ok {x0 x1 x2 : Nat} {x3 : State} (h3 : x3.Ok q n) : (waitSeg x0 x1 x2 x3).Ok q n := by
  unfold waitSeg
  repeat' (with_reducible first | assumption | apply beginPass_ok | apply State.onPt_ok | apply State.w_ok)

theorem execWait_ok {x0 : Fin 32} {x1 : State} (h1 : x1.Ok q n) : OutOk q n (execWait x0 x1) := by
  unfold execWait
  repeat' (with_reducible first | assumption | apply OutOk.next | apply flowRun_ok | apply waitSeg_ok)

theorem setflag_ok {x0 x1 x2 : Nat} {x3 : State} (h3 : x3.Ok q n) : (setflag x0 x1 x2 x3).Ok q n := by
  unfold setflag
  repeat' first | (with_reducible first | assumption | apply flowNext_ok | apply setFlags_ok) | split

theorem execSetflag_ok {x0 : Fin 32} {x1 : State} (h1 : x1.Ok q n) : OutOk q n (execSetflag x0 x1) := by
  unfold execSetflag
  repeat' (with_reducible first | assumption | apply OutOk.next | apply flowRun_ok | apply setflag_ok)

theorem markEdges_ok {x0 : Nat} {x1 : List (Nat × Bool)} {x2 : State} (h2 : x2.Ok q n) : (markEdges x0 x1 x2).Ok q n := by
  induction x1 generalizing x0 x2 with
  | nil =>
    unfold markEdges
    repeat' first
      | (with_reducible first | assumption | apply ih)
      | (fail_if_no_progress extract_lets +onlyGivenNames u)
      | split
      | fail_if_no_progress with_reducible apply Ok.parts
  | cons b r ih =>
    unfold markEdges
    repeat' first
      | (with_reducible first | assumption | apply ih)
      | (fail_if_no_progress extract_lets +onlyGivenNames u)
      | split
      | fail_if_no_progress with_reducible apply Ok.parts

theorem settleMark_ok {x0 : Nat} {x1 : State} (h1 : x1.Ok q n) : (settleMark x0 x1).Ok q n := by
  unfold settleMark
  repeat' (with_reducible first | assumption | apply markEdges_ok)

theorem markVector_ok {x0 x1 x2 : Nat} {x3 : State} (h3 : x3.Ok q n) : (markVector x0 x1 x2 x3).Ok q n := by
  unfold markVector
  repeat' first
    | (intro)
    | (with_reducible first | assumption | apply settleMark_ok | apply forAll_ok)
    | (extract_lets +onlyGivenNames t; (have hs : State.Ok q n t := ?_); on_goal 1 => (clear_value t; revert t; intro u hs))
    | fail_if_no_progress with_reducible apply Ok.parts

theorem execMarkPulseEnd_ok {x0 : Fin 8} {x1 : State} (h1 : x1.Ok q n) : OutOk q n (execMarkPulseEnd x0 x1) := by
  unfold execMarkPulseEnd
  repeat' first
    | (with_reducible first | assumption | apply OutOk.next | apply settleMark_ok)
    | (extract_lets +onlyGivenNames t; (have hs : State.Ok q n t := ?_); on_goal 1 => (clear_value t; revert t; intro u hs))
    | (fail_if_no_progress extract_lets +onlyGivenNames u)
    | split
    | fail_if_no_progress with_reducible apply Ok.parts

theorem vectorGroup_ok {x0 x1 x2 x3 x4 x5 : Nat} {x6 : State} (h6 : x6.Ok q n) : (vectorGroup x0 x1 x2 x3 x4 x5 x6).Ok q n := by
  unfold vectorGroup
  repeat' first | (intro) | (with_reducible first | assumption | apply vectorChan_ok | apply event_ok | apply forAll_ok) | split

theorem vectorGo_ok {x0 x1 : Nat} {x2 : List (Nat × VData)} {x3 : State} (h3 : x3.Ok q n) : (vectorGo x0 x1 x2 x3).Ok q n := by
  unfold vectorGo
  repeat' first
    | (intro)
    | (with_reducible first | assumption | apply driftCheck_ok | apply onCyc_ok | apply vectorGroup_ok | apply countEvent_ok
                            | apply markVector_ok | apply gateVec_ok | apply State.w_ok | apply State.onPt_ok | apply supply_ok
                            | apply holdOff_ok | apply forAll_ok | apply Ok.foldl)
    | split

theorem poolReads_ok {x0 : Nat} {x1 : List PoolRead} {x2 : State} (h2 : x2.Ok q n) : (poolReads x0 x1 x2).Ok q n := by
  unfold poolReads
  repeat' first | (intro) | (with_reducible first | assumption | apply State.inc_ok | apply poolFault_ok | apply Ok.foldl) | split

theorem vectorStart_ok {x0 : Nat} {x1 : List PoolRead} {x2 : State} (h2 : x2.Ok q n) : (vectorStart x0 x1 x2).Ok q n := by
  unfold vectorStart
  repeat' first
    | (with_reducible first | assumption | apply poolReads_ok | apply parkPitch_ok | apply event_ok | apply vectorGo_ok
                            | apply fixStop_ok | apply declareAbsent_ok)
    | (extract_lets +onlyGivenNames t; (have hs : State.Ok q n t := ?_); on_goal 1 => (clear_value t; revert t; intro u hs))
    | (fail_if_no_progress extract_lets +onlyGivenNames u)
    | split

theorem execVectorStart_ok {x0 : Fin 32} {x1 : List PoolRead} {x2 : State} (h2 : x2.Ok q n) : OutOk q n (execVectorStart x0 x1 x2) := by
  unfold execVectorStart
  repeat' (with_reducible first | assumption | apply OutOk.next | apply settle_ok | apply vectorStart_ok)

theorem startLate_ok {x0 x1 : Nat} {x2 : State} (h2 : x2.Ok q n) : (startLate x0 x1 x2).Ok q n := by
  unfold startLate
  repeat' first | (intro) | (with_reducible first | assumption | apply event_ok | apply State.w_ok | apply forAll_ok)

theorem clearFaults_ok {x0 : Nat} {x1 : State} (h1 : x1.Ok q n) : (clearFaults x0 x1).Ok q n := by
  unfold clearFaults
  repeat' first | with_reducible assumption | fail_if_no_progress with_reducible apply Ok.parts

theorem armPitches_ok {x0 : Nat} {x1 x2 : Option Nat} {x3 : State} (h3 : x3.Ok q n) : (armPitches x0 x1 x2 x3).Ok q n := by
  unfold armPitches
  repeat' first
    | (intro)
    | (with_reducible first | assumption | apply cancelDrift_ok | apply State.onPt_ok | apply State.w_ok | apply forAll_ok)
    | split

theorem confirmPitches_ok {x0 : Nat} {x1 : Bool} {x2 : State} (h2 : x2.Ok q n) : (confirmPitches x0 x1 x2).Ok q n := by
  unfold confirmPitches
  repeat' first
    | (intro)
    | (with_reducible first | assumption | apply State.onPt_ok | apply State.w_ok | apply applyPitch_ok | apply clearFaults_ok
                            | apply forAll_ok)
    | split

theorem startPitches_ok {x0 : Nat} {x1 x2 : Option Nat} {x3 : StartNow} {x4 : State} (h4 : x4.Ok q n) : (startPitches x0 x1 x2 x3 x4).1.Ok q n := by
  unfold startPitches
  repeat' first | (with_reducible first | assumption | apply onCyc_ok | apply armPitches_ok | apply startLate_ok) | split

theorem seqStart_ok {x0 : Desc} {x1 : State} (h1 : x1.Ok q n) : (seqStart x0 x1).Ok q n := by
  unfold seqStart
  repeat' first
    | (intro)
    | (with_reducible first | assumption | apply runCmd_ok | apply startPitches_ok)
    | split
    | with_reducible refine Ok.fst (by assumption) ?_
    | fail_if_no_progress with_reducible apply Ok.parts

theorem execSeqStart_ok {x0 : Desc} {x1 : State} (h1 : x1.Ok q n) : OutOk q n (execSeqStart x0 x1) := by
  unfold execSeqStart
  repeat' (with_reducible first | assumption | apply OutOk.next | apply seqStart_ok)

theorem execStartDeadline_ok {x0 : Desc} {x1 : State} (h1 : x1.Ok q n) : OutOk q n (execStartDeadline x0 x1) := by
  unfold execStartDeadline
  repeat' first | (with_reducible first | assumption | apply OutOk.next | apply seqStart_ok) | split

theorem startClear_ok {x0 x1 : Nat} {x2 : State} (h2 : x2.Ok q n) : (startClear x0 x1 x2).Ok q n := by
  unfold startClear
  repeat' first
    | (intro)
    | (with_reducible first | assumption | apply onCyc_ok | apply startChan_ok | apply State.onCu_ok | apply State.w_ok
                            | apply clearFails_ok | apply State.onPt_ok | apply forAll_ok)
    | (extract_lets +onlyGivenNames t; (have hs : State.Ok q n t := ?_); on_goal 1 => (clear_value t; revert t; intro u hs))
    | split

theorem emptyStacks_ok {x0 : Nat} {x1 : State} (h1 : x1.Ok q n) : (emptyStacks x0 x1).Ok q n := by
  unfold emptyStacks
  repeat' (with_reducible first | assumption | apply State.onPt_ok)

theorem startPlace_ok {x0 x1 : Nat} {x2 : Armed} {x3 : State} (h3 : x3.Ok q n) : (startPlace x0 x1 x2 x3).Ok q n := by
  unfold startPlace
  repeat' first
    | (with_reducible first | assumption | apply beginPlace_ok | apply State.onPt_ok | apply State.w_ok | apply emptyStacks_ok
                            | apply beginSeg_ok | apply takeJump_ok | apply beginPass_ok)
    | (extract_lets +onlyGivenNames t; (have hs : State.Ok q n t := ?_); on_goal 1 => (clear_value t; revert t; intro u hs))
    | (fail_if_no_progress extract_lets +onlyGivenNames u)
    | split

theorem startLead_ok {x0 x1 : Nat} {x2 : State} (h2 : x2.Ok q n) : (startLead x0 x1 x2).Ok q n := by
  unfold startLead
  repeat' (with_reducible first | assumption | apply fillLead_ok | apply State.onGp_ok)

theorem startInstant_ok {x0 : Nat} {x1 : State} (h1 : x1.Ok q n) : (startInstant x0 x1).Ok q n := by
  unfold startInstant
  repeat' first
    | (with_reducible first | assumption | apply startClear_ok | apply State.w_ok | apply startPlace_ok | apply State.onPt_ok
                            | apply supply_ok | apply startLead_ok | apply event_ok | apply forAll_ok)
    | split

theorem execStartInstant_ok {x0 : Fin 32} {x1 : State} (h1 : x1.Ok q n) : OutOk q n (execStartInstant x0 x1) := by
  unfold execStartInstant
  repeat' (with_reducible first | assumption | apply OutOk.next | apply startInstant_ok)

theorem stopRequest_ok {x0 : Nat} {x1 : State} (h1 : x1.Ok q n) : (stopRequest x0 x1).Ok q n := by
  unfold stopRequest
  repeat' first | (with_reducible first | assumption | apply settle_ok | apply abandon_ok | apply planStop_ok) | split

theorem execSeqStop_ok {x0 : Desc} {x1 : State} (h1 : x1.Ok q n) : OutOk q n (execSeqStop x0 x1) := by
  unfold execSeqStop
  repeat' (with_reducible first | assumption | apply OutOk.next | apply runCmd_ok | apply stopRequest_ok)

theorem execStopInstant_ok {x0 : Fin 32} {x1 : State} (h1 : x1.Ok q n) : OutOk q n (execStopInstant x0 x1) := by
  unfold execStopInstant
  repeat' first
    | (with_reducible first | assumption | apply OutOk.next | apply fixStop_ok)
    | (fail_if_no_progress extract_lets +onlyGivenNames u)
    | split

theorem execStoppingComplete_ok {x0 : Fin 32} {x1 : State} (h1 : x1.Ok q n) : OutOk q n (execStoppingComplete x0 x1) := by
  unfold execStoppingComplete
  repeat' first
    | (with_reducible first | assumption | apply OutOk.next | apply settleMark_ok | apply settle_ok | apply finishStop_ok
                            | apply forAll_ok)
    | (extract_lets +onlyGivenNames t; (have hs : State.Ok q n t := ?_); on_goal 1 => (clear_value t; revert t; intro u hs))
    | split

theorem execRefStamp_ok {x0 : RefSrc} {x1 : Bool} {x2 : Nat} {x3 : Fin 1024} {x4 : State} (h4 : x4.Ok q n) : OutOk q n (execRefStamp x0 x1 x2 x3 x4) := by
  unfold execRefStamp
  repeat' first
    | (with_reducible first | assumption | apply OutOk.next | apply settle_ok | apply grefStamp_ok | apply sourceStamp_ok)
    | split

theorem execRefMissingTimeout_ok {x0 : Fin 32} {x1 : State} (h1 : x1.Ok q n) : OutOk q n (execRefMissingTimeout x0 x1) := by
  unfold execRefMissingTimeout
  repeat' (with_reducible first | assumption | apply OutOk.next | apply settle_ok | apply refMissing_ok)

theorem execHoldLimit_ok {x0 : Fin 32} {x1 : State} (h1 : x1.Ok q n) : OutOk q n (execHoldLimit x0 x1) := by
  unfold execHoldLimit
  repeat' (with_reducible first | assumption | apply OutOk.next | apply settle_ok | apply holdLimit_ok)

theorem execGrefTimeout_ok {x0 : State} (h0 : x0.Ok q n) : OutOk q n (execGrefTimeout x0) := by
  unfold execGrefTimeout
  repeat' (with_reducible first | assumption | apply OutOk.next | apply settle_ok | apply grefTimeout_ok)

theorem execGrefFreqCheck_ok {x0 : Int} {x1 : State} (h1 : x1.Ok q n) : OutOk q n (execGrefFreqCheck x0 x1) := by
  unfold execGrefFreqCheck
  repeat' (with_reducible first | assumption | apply OutOk.next | apply settle_ok | apply grefCheck_ok)

end Sys2Proof.Machine
end

