-- ==== Sys2Proof/Laws/KeepJudge.lean ====
section
/-! SUPPORT. What judgements and triggers keep: the canonical form of memories and registers, the queue and the time. -/

namespace Sys2Proof.Machine
variable {q : List Instr} {n : Nat}

theorem execEdgePlacement_ok {x0 : Fin 1024} {x1 : Sig} {x2 : State} (h2 : x2.Ok q n) : OutOk q n (execEdgePlacement x0 x1 x2) := by
  unfold execEdgePlacement
  repeat' first | (with_reducible first | assumption | apply OutOk.next | apply placeEdge_ok) | split

theorem execStrobeSample_ok {x0 : Fin 1024} {x1 x2 : Wave} {x3 : State} (h3 : x3.Ok q n) : OutOk q n (execStrobeSample x0 x1 x2 x3) := by
  unfold execStrobeSample
  repeat' first | (with_reducible first | assumption | apply OutOk.next | apply takeStrobe_ok) | split

theorem countFail_ok {x0 x1 : Nat} {x2 : Judged} {x3 : State} (h3 : x3.Ok q n) : (countFail x0 x1 x2 x3).Ok q n := by
  unfold countFail
  repeat' first
    | (with_reducible first | assumption | apply onCyc_ok | apply State.setF_ok | apply State.onCh_ok | apply State.w_ok)
    | split

theorem failEvent_ok {x0 x1 x2 x3 : Nat} {x4 : State} (h4 : x4.Ok q n) : (failEvent x0 x1 x2 x3 x4).Ok q n := by
  unfold failEvent
  repeat' first | (intro) | (with_reducible first | assumption | apply State.onPt_ok | apply pendJump_ok | apply Ok.foldl)

theorem resolve_ok {x0 x1 : Nat} {x2 : State} (h2 : x2.Ok q n) : (resolve x0 x1 x2).Ok q n := by
  unfold resolve
  repeat' first
    | (intro)
    | (unfold t; clear t)
    | (with_reducible first | assumption | apply State.onCh_ok | apply countFail_ok | apply failEvent_ok | apply countEvent_ok
                            | apply forAll_ok)
    | (extract_lets +onlyGivenNames t; (have hs : State.Ok q n t := ?_); on_goal 1 => (clear_value t; revert t; intro u hs))
    | split

theorem execJudgementResolve_ok {x0 : Fin 1024} {x1 : State} (h1 : x1.Ok q n) : OutOk q n (execJudgementResolve x0 x1) := by
  unfold execJudgementResolve
  repeat' first | (unfold t; clear t) | (with_reducible first | assumption | apply OutOk.next | apply resolve_ok) | split

theorem disarm_ok {x0 : Nat} {x1 : State} (h1 : x1.Ok q n) : (disarm x0 x1).Ok q n := by
  unfold disarm
  repeat' first | (with_reducible first | assumption | apply endAcq_ok | apply State.onAcq_ok) | split

theorem execDisarmEnd_ok {x0 : Fin 32} {x1 : State} (h1 : x1.Ok q n) : OutOk q n (execDisarmEnd x0 x1) := by
  unfold execDisarmEnd
  repeat' (with_reducible first | assumption | apply OutOk.next | apply disarm_ok)

theorem noteTags_ok {x0 x1 x2 : Nat} {x3 : State} (h3 : x3.Ok q n) : (noteTags x0 x1 x2 x3).Ok q n := by
  unfold noteTags
  repeat' (with_reducible first | assumption | apply State.onCu_ok)

theorem evaluate_ok {x0 : Nat} {x1 : State} (h1 : x1.Ok q n) : (evaluate x0 x1).Ok q n := by
  unfold evaluate
  repeat' first
    | (intro)
    | (with_reducible first | assumption | apply disarm_ok | apply noteTags_ok | apply triggerVec_ok | apply acqVec_ok
                            | apply State.onCh_ok | apply State.onPt_ok | apply forAll_ok)
    | (extract_lets +onlyGivenNames t; (have hs : State.Ok q n t := ?_); on_goal 1 => (clear_value t; revert t; intro u hs))
    | split

theorem execEvaluation_ok {x0 : Fin 32} {x1 : State} (h1 : x1.Ok q n) : OutOk q n (execEvaluation x0 x1) := by
  unfold execEvaluation
  repeat' (with_reducible first | assumption | apply OutOk.next | apply evaluate_ok)

theorem execTriggerTimeout_ok {x0 : Fin 32} {x1 : State} (h1 : x1.Ok q n) : OutOk q n (execTriggerTimeout x0 x1) := by
  unfold execTriggerTimeout
  repeat' first | (with_reducible first | assumption | apply OutOk.next | apply trigTimeout_ok) | split

theorem execBusLineEnd_ok {x0 : Fin 32} {x1 : State} (h1 : x1.Ok q n) : OutOk q n (execBusLineEnd x0 x1) := by
  unfold execBusLineEnd
  repeat' first | (with_reducible first | assumption | apply OutOk.next) | fail_if_no_progress with_reducible apply Ok.parts

theorem execAcquisitionOpen_ok {x0 : Fin 32} {x1 : State} (h1 : x1.Ok q n) : OutOk q n (execAcquisitionOpen x0 x1) := by
  unfold execAcquisitionOpen
  repeat' first | (with_reducible first | assumption | apply OutOk.next | apply tryOpen_ok) | split

theorem execRearm_ok {x0 : Fin 32} {x1 : State} (h1 : x1.Ok q n) : OutOk q n (execRearm x0 x1) := by
  unfold execRearm
  repeat' first | (with_reducible first | assumption | apply OutOk.next | apply tryRearm_ok) | split

theorem execRecordRelease_ok {x0 : Fin 32} {x1 : State} (h1 : x1.Ok q n) : OutOk q n (execRecordRelease x0 x1) := by
  unfold execRecordRelease
  repeat' first | (with_reducible first | assumption | apply OutOk.next | apply tryClose_ok | apply release_ok) | split

theorem xtrigVisible_ok {x0 x1 : Nat} {x2 : State} (h2 : x2.Ok q n) : (xtrigVisible x0 x1 x2).Ok q n := by
  unfold xtrigVisible
  repeat' first
    | (intro)
    | (with_reducible first | assumption | apply gateXtrig_ok | apply countEvent_ok | apply condEvent_ok | apply forAll_ok)

theorem xtrigTick_ok {x0 : State} (h0 : x0.Ok q n) : (xtrigTick x0).Ok q n := by
  unfold xtrigTick
  repeat' first | (intro) | (with_reducible first | assumption | apply xtrigVisible_ok | apply forAll_ok) | split

theorem xtrigAccept_ok {x0 x1 : Nat} {x2 : State} (h2 : x2.Ok q n) : (xtrigAccept x0 x1 x2).Ok q n := by
  unfold xtrigAccept
  repeat' first
    | (with_reducible first | assumption | apply xtrigVisible_ok)
    | (extract_lets +onlyGivenNames t; (have hs : State.Ok q n t := ?_); on_goal 1 => (clear_value t; revert t; intro u hs))
    | (fail_if_no_progress extract_lets +onlyGivenNames u)
    | split
    | fail_if_no_progress with_reducible apply Ok.parts

theorem execXtrigEdge_ok {x0 : Fin 8} {x1 : Bool} {x2 x3 : Nat} {x4 : State} (h4 : x4.Ok q n) : OutOk q n (execXtrigEdge x0 x1 x2 x3 x4) := by
  unfold execXtrigEdge
  repeat' first
    | (intro)
    | (with_reducible first | assumption | apply OutOk.next | apply State.inc_ok | apply xtrigAccept_ok | apply hf | apply hg
                            | apply hk | apply hl | apply hm)
    | (extract_lets +onlyGivenNames t; (have hs : State.Ok q n t := ?_); on_goal 1 => (clear_value t; revert t; intro u hs))
    | (extract_lets +onlyGivenNames t; (have hs : ∀ b a, State.Ok q n a → State.Ok q n (t b a) := ?_); on_goal 1 => (clear_value t; revert t; intro u hg))
    | (fail_if_no_progress extract_lets +onlyGivenNames u)
    | split
    | fail_if_no_progress with_reducible apply Ok.parts

theorem execChPark_ok {x0 : Desc} {x1 : State} (h1 : x1.Ok q n) : OutOk q n (execChPark x0 x1) := by
  unfold execChPark
  repeat' first
    | (intro)
    | (with_reducible first | assumption | apply OutOk.next | apply runCmd_ok | apply checked_ok | apply settle_ok
                            | apply parkChans_ok)

theorem execParkNAssert_ok {x0 : Nat} {x1 : State} (h1 : x1.Ok q n) : OutOk q n (execParkNAssert x0 x1) := by
  unfold execParkNAssert
  repeat' first
    | (with_reducible first | assumption | apply OutOk.next | apply State.inc_ok | apply settle_ok | apply parkAll_ok)
    | split
    | fail_if_no_progress with_reducible apply Ok.parts

theorem execParkNRelease_ok {x0 : Nat} {x1 : State} (h1 : x1.Ok q n) : OutOk q n (execParkNRelease x0 x1) := by
  unfold execParkNRelease
  repeat' first | (with_reducible first | assumption | apply OutOk.next) | fail_if_no_progress with_reducible apply Ok.parts

end Sys2Proof.Machine
end

