-- ==== Sys2Proof/Laws/KeepMicrocode.lean ====
section
/-! SUPPORT. What sequencer microcode keeps: the canonical form of memories and registers, the queue and the time. -/

namespace Sys2Proof.Machine
variable {q : List Instr} {n : Nat}

theorem commitVis_ok {x0 : Nat} {x1 : Vis} {x2 : State} (h2 : x2.Ok q n) : (commitVis x0 x1 x2).Ok q n := by
  unfold commitVis
  repeat' (with_reducible first | assumption | apply State.w_ok)

theorem onSh_ok {x0 : Nat} {x1 : Vis → Vis} {x2 : State} (h2 : x2.Ok q n) : (onSh x0 x1 x2).Ok q n := by
  unfold onSh
  repeat' (with_reducible first | assumption | apply State.onSq_ok)

theorem setReg_ok {x0 x1 x2 : Nat} {x3 : State} (h3 : x3.Ok q n) : (setReg x0 x1 x2 x3).Ok q n := by
  unfold setReg
  repeat' first | (with_reducible first | assumption | apply State.onSq_ok | apply onSh_ok) | split

theorem fetched_ok {x0 : Nat} {x1 : State} (h1 : x1.Ok q n) : (fetched x0 x1).Ok q n := by
  unfold fetched
  repeat' (with_reducible first | assumption | apply State.w_ok)

theorem ufault_ok {x0 x1 : Nat} {x2 : State} (h2 : x2.Ok q n) : (ufault x0 x1 x2).Ok q n := by
  unfold ufault
  repeat' first
    | (intro)
    | (with_reducible first | assumption | apply State.onSq_ok | apply State.w_ok | apply State.setF_ok | apply faultEvent_ok
                            | apply event_ok | apply parkFlush_ok | apply parkMeas_ok | apply parkRun_ok)
    | (extract_lets +onlyGivenNames t; (have hs : State.Ok q n t := ?_); on_goal 1 => (clear_value t; revert t; intro u hs))
    | split

theorem setFlagsZN_ok {x0 x1 : Nat} {x2 : State} (h2 : x2.Ok q n) : (setFlagsZN x0 x1 x2).Ok q n := by
  unfold setFlagsZN
  repeat' (with_reducible first | assumption | apply State.onSq_ok)

theorem setZ_ok {x0 : Nat} {x1 : Bool} {x2 : State} (h2 : x2.Ok q n) : (setZ x0 x1 x2).Ok q n := by
  unfold setZ
  repeat' (with_reducible first | assumption | apply State.onSq_ok)

theorem setC_ok {x0 : Nat} {x1 : Bool} {x2 : State} (h2 : x2.Ok q n) : (setC x0 x1 x2).Ok q n := by
  unfold setC
  repeat' (with_reducible first | assumption | apply State.onSq_ok)

theorem romPost_ok {x0 x1 x2 : Nat} {x3 : State} (h3 : x3.Ok q n) : (romPost x0 x1 x2 x3).Ok q n := by
  unfold romPost
  repeat' (with_reducible first | assumption | apply post_ok)

theorem romOpen_ok {x0 x1 : Nat} {x2 : State} (h2 : x2.Ok q n) : (romOpen x0 x1 x2).Ok q n := by
  unfold romOpen
  repeat' (with_reducible first | assumption | apply romPost_ok | apply State.fresh_ok)

theorem enterRom_ok {x0 : Nat} {x1 : State} (h1 : x1.Ok q n) : (enterRom x0 x1).Ok q n := by
  unfold enterRom
  repeat' first
    | (with_reducible first | assumption | apply State.onSq_ok | apply romOpen_ok | apply romPost_ok)
    | (extract_lets +onlyGivenNames t; (have hs : State.Ok q n t := ?_); on_goal 1 => (clear_value t; revert t; intro u hs))
    | (fail_if_no_progress extract_lets +onlyGivenNames u)
    | split

theorem wordEnd_ok {x0 : Nat} {x1 : Micro} {x2 : Bool} {x3 : Option (Nat × Bool)} {x4 : State} (h4 : x4.Ok q n) : (wordEnd x0 x1 x2 x3 x4).Ok q n := by
  unfold wordEnd
  repeat' first
    | (with_reducible first | assumption | apply ufault_ok | apply State.w_ok | apply commitVis_ok | apply traceSeg_ok
                            | apply State.onSq_ok | apply enterRom_ok)
    | (extract_lets +onlyGivenNames t; (have hs : State.Ok q n t := ?_); on_goal 1 => (clear_value t; revert t; intro u hs))
    | (fail_if_no_progress extract_lets +onlyGivenNames u)
    | split

theorem shadow_ok {x0 : Nat} {x1 : State} (h1 : x1.Ok q n) : (shadow x0 x1).Ok q n := by
  unfold shadow
  repeat' first | (with_reducible first | assumption | apply State.onSq_ok) | split

theorem wordRest_ok {x0 : Nat} {x1 : Micro} {x2 : Bool} {x3 : Option (Nat × Bool)} {x4 : State} (h4 : x4.Ok q n) : (wordRest x0 x1 x2 x3 x4).Ok q n := by
  unfold wordRest
  repeat' first | (with_reducible first | assumption | apply wordEnd_ok) | split

theorem word_ok {x0 x1 : Nat} {x2 : Micro} {x3 : Bool} {x4 : State → State × Option (Nat × Bool)} {x5 : State} (h4 : ∀ a0, a0.Ok q n → (x4 a0).1.Ok q n) (h5 : x5.Ok q n) : (word x0 x1 x2 x3 x4 x5).Ok q n := by
  unfold word
  repeat' first
    | (intro)
    | (unfold t; clear t)
    | (with_reducible first | assumption | apply ufault_ok | apply fetched_ok | apply faultEvent_ok | apply State.inc_ok
                            | apply shadow_ok | apply wordRest_ok | apply h4)
    | (extract_lets +onlyGivenNames t; (have hs : State.Ok q n t := ?_); on_goal 1 => (clear_value t; revert t; intro u hs))
    | (extract_lets +onlyGivenNames t; (have hs : State.Ok q n t.1 := ?_); on_goal 1 => (clear_value t; revert t; intro u hs))
    | split

theorem plainWord_ok {x0 x1 : Nat} {x2 : Micro} {x3 : State → State} {x4 : State} (h3 : ∀ a0, a0.Ok q n → (x3 a0).Ok q n) (h4 : x4.Ok q n) : (plainWord x0 x1 x2 x3 x4).Ok q n := by
  unfold plainWord
  repeat' (with_reducible first | assumption | apply word_ok)

theorem aluOp_ok {x0 : Nat} {x1 : Micro} {x2 : Bool} {x3 : Nat} {x4 : Option Bool} {x5 : State} (h5 : x5.Ok q n) : (aluOp x0 x1 x2 x3 x4 x5).Ok q n := by
  unfold aluOp
  repeat' first
    | (unfold t; clear t)
    | (with_reducible first | assumption | apply setFlagsZN_ok | apply setReg_ok | apply setC_ok)
    | (extract_lets +onlyGivenNames t; (have hs : State.Ok q n t := ?_); on_goal 1 => (clear_value t; revert t; intro u hs))
    | split

theorem aluWord_ok {x0 x1 : Nat} {x2 : Micro} {x3 : Bool} {x4 : Nat → Nat → Nat × Option Bool} {x5 : State} (h5 : x5.Ok q n) : (aluWord x0 x1 x2 x3 x4 x5).Ok q n := by
  unfold aluWord
  repeat' first | (intro) | (unfold t; clear t) | (with_reducible first | assumption | apply plainWord_ok | apply aluOp_ok)

theorem execNop_ok {x0 : Fin 32} {x1 : Micro} {x2 : State} (h2 : x2.Ok q n) : OutOk q n (execNop x0 x1 x2) := by
  unfold execNop
  repeat' first | (intro) | (with_reducible first | assumption | apply OutOk.next | apply plainWord_ok)

theorem execMov_ok {x0 : Fin 32} {x1 : Micro} {x2 : State} (h2 : x2.Ok q n) : OutOk q n (execMov x0 x1 x2) := by
  unfold execMov
  repeat' first | (intro) | (with_reducible first | assumption | apply OutOk.next | apply plainWord_ok | apply setReg_ok)

theorem execLdi_ok {x0 : Fin 32} {x1 : Micro} {x2 : State} (h2 : x2.Ok q n) : OutOk q n (execLdi x0 x1 x2) := by
  unfold execLdi
  repeat' (with_reducible first | assumption | apply OutOk.next | apply plainWord_ok | apply setReg_ok)

theorem execAdd_ok {x0 : Fin 32} {x1 : Micro} {x2 : State} (h2 : x2.Ok q n) : OutOk q n (execAdd x0 x1 x2) := by
  unfold execAdd
  repeat' (with_reducible first | assumption | apply OutOk.next | apply aluWord_ok)

theorem execAddi_ok {x0 : Fin 32} {x1 : Micro} {x2 : State} (h2 : x2.Ok q n) : OutOk q n (execAddi x0 x1 x2) := by
  unfold execAddi
  repeat' (with_reducible first | assumption | apply OutOk.next | apply aluWord_ok)

theorem execSub_ok {x0 : Fin 32} {x1 : Micro} {x2 : State} (h2 : x2.Ok q n) : OutOk q n (execSub x0 x1 x2) := by
  unfold execSub
  repeat' (with_reducible first | assumption | apply OutOk.next | apply aluWord_ok)

theorem execAnd_ok {x0 : Fin 32} {x1 : Micro} {x2 : State} (h2 : x2.Ok q n) : OutOk q n (execAnd x0 x1 x2) := by
  unfold execAnd
  repeat' (with_reducible first | assumption | apply OutOk.next | apply aluWord_ok)

theorem execOr_ok {x0 : Fin 32} {x1 : Micro} {x2 : State} (h2 : x2.Ok q n) : OutOk q n (execOr x0 x1 x2) := by
  unfold execOr
  repeat' (with_reducible first | assumption | apply OutOk.next | apply aluWord_ok)

theorem execXor_ok {x0 : Fin 32} {x1 : Micro} {x2 : State} (h2 : x2.Ok q n) : OutOk q n (execXor x0 x1 x2) := by
  unfold execXor
  repeat' (with_reducible first | assumption | apply OutOk.next | apply aluWord_ok)

theorem execShl_ok {x0 : Fin 32} {x1 : Micro} {x2 : State} (h2 : x2.Ok q n) : OutOk q n (execShl x0 x1 x2) := by
  unfold execShl
  repeat' (with_reducible first | assumption | apply OutOk.next | apply aluWord_ok)

theorem execShr_ok {x0 : Fin 32} {x1 : Micro} {x2 : State} (h2 : x2.Ok q n) : OutOk q n (execShr x0 x1 x2) := by
  unfold execShr
  repeat' (with_reducible first | assumption | apply OutOk.next | apply aluWord_ok)

theorem execCmp_ok {x0 : Fin 32} {x1 : Micro} {x2 : State} (h2 : x2.Ok q n) : OutOk q n (execCmp x0 x1 x2) := by
  unfold execCmp
  repeat' (with_reducible first | assumption | apply OutOk.next | apply aluWord_ok)

theorem execCmpi_ok {x0 : Fin 32} {x1 : Micro} {x2 : State} (h2 : x2.Ok q n) : OutOk q n (execCmpi x0 x1 x2) := by
  unfold execCmpi
  repeat' (with_reducible first | assumption | apply OutOk.next | apply aluWord_ok)

theorem ldentOp_ok {x0 : Nat} {x1 : Micro} {x2 : State} (h2 : x2.Ok q n) : (ldentOp x0 x1 x2).Ok q n := by
  unfold ldentOp
  repeat' first
    | (with_reducible first | assumption | apply State.fresh_ok | apply setReg_ok | apply setZ_ok | apply State.onSq_ok)
    | split

theorem execLdent_ok {x0 : Fin 32} {x1 : Micro} {x2 : State} (h2 : x2.Ok q n) : OutOk q n (execLdent x0 x1 x2) := by
  unfold execLdent
  repeat' (with_reducible first | assumption | apply OutOk.next | apply plainWord_ok | apply ldentOp_ok)

theorem fldOp_ok {x0 : Nat} {x1 : Micro} {x2 : State} (h2 : x2.Ok q n) : (fldOp x0 x1 x2).Ok q n := by
  unfold fldOp
  repeat' first | (with_reducible first | assumption | apply State.fresh_ok | apply setZ_ok | apply setReg_ok) | split

theorem execFld_ok {x0 : Fin 32} {x1 : Micro} {x2 : State} (h2 : x2.Ok q n) : OutOk q n (execFld x0 x1 x2) := by
  unfold execFld
  repeat' (with_reducible first | assumption | apply OutOk.next | apply plainWord_ok | apply fldOp_ok)

theorem issueOp_ok {x0 : Nat} {x1 : Micro} {x2 : State} (h2 : x2.Ok q n) : (issueOp x0 x1 x2).Ok q n := by
  unfold issueOp
  repeat' first
    | (with_reducible first | assumption | apply onSh_ok | apply State.onPt_ok)
    | (extract_lets +onlyGivenNames t; (have hs : State.Ok q n t := ?_); on_goal 1 => (clear_value t; revert t; intro u hs))
    | (fail_if_no_progress extract_lets +onlyGivenNames u)
    | split

theorem execIssue_ok {x0 : Fin 32} {x1 : Micro} {x2 : State} (h2 : x2.Ok q n) : OutOk q n (execIssue x0 x1 x2) := by
  unfold execIssue
  repeat' (with_reducible first | assumption | apply OutOk.next | apply plainWord_ok | apply issueOp_ok)

theorem depths_ok {x0 : Nat} {x1 : State} (h1 : x1.Ok q n) : (depths x0 x1).Ok q n := by
  unfold depths
  repeat' (with_reducible first | assumption | apply onSh_ok)

theorem pushOp_ok {x0 : Nat} {x1 : Micro} {x2 : State} (h2 : x2.Ok q n) : (pushOp x0 x1 x2).Ok q n := by
  unfold pushOp
  repeat' (with_reducible first | assumption | apply depths_ok | apply State.onPt_ok)

theorem execPush_ok {x0 : Fin 32} {x1 : Micro} {x2 : State} (h2 : x2.Ok q n) : OutOk q n (execPush x0 x1 x2) := by
  unfold execPush
  repeat' (with_reducible first | assumption | apply OutOk.next | apply plainWord_ok | apply pushOp_ok)

theorem popOp_ok {x0 : Nat} {x1 : Micro} {x2 : State} (h2 : x2.Ok q n) : (popOp x0 x1 x2).Ok q n := by
  unfold popOp
  repeat' first
    | (with_reducible first | assumption | apply State.onPt_ok | apply State.fresh_ok | apply setZ_ok | apply setReg_ok
                            | apply depths_ok)
    | split

theorem execPop_ok {x0 : Fin 32} {x1 : Micro} {x2 : State} (h2 : x2.Ok q n) : OutOk q n (execPop x0 x1 x2) := by
  unfold execPop
  repeat' (with_reducible first | assumption | apply OutOk.next | apply plainWord_ok | apply popOp_ok)

theorem topwOp_ok {x0 : Nat} {x1 : Micro} {x2 : State} (h2 : x2.Ok q n) : (topwOp x0 x1 x2).Ok q n := by
  unfold topwOp
  repeat' (with_reducible first | assumption | apply State.onPt_ok)

theorem execTopw_ok {x0 : Fin 32} {x1 : Micro} {x2 : State} (h2 : x2.Ok q n) : OutOk q n (execTopw x0 x1 x2) := by
  unfold execTopw
  repeat' (with_reducible first | assumption | apply OutOk.next | apply plainWord_ok | apply topwOp_ok)

theorem ldinsOp_ok {x0 : Nat} {x1 : Micro} {x2 : State} (h2 : x2.Ok q n) : (ldinsOp x0 x1 x2).Ok q n := by
  unfold ldinsOp
  repeat' first | (with_reducible first | assumption | apply State.fresh_ok | apply onSh_ok | apply State.onSq_ok) | split

theorem execLdins_ok {x0 : Fin 32} {x1 : Micro} {x2 : State} (h2 : x2.Ok q n) : OutOk q n (execLdins x0 x1 x2) := by
  unfold execLdins
  repeat' (with_reducible first | assumption | apply OutOk.next | apply plainWord_ok | apply ldinsOp_ok)

theorem execDisp_ok {x0 : Fin 32} {x1 : Micro} {x2 : State} (h2 : x2.Ok q n) : OutOk q n (execDisp x0 x1 x2) := by
  unfold execDisp
  repeat' first | (intro) | (with_reducible first | assumption | apply OutOk.next | apply word_ok)

theorem setfOp_ok {x0 : Nat} {x1 : Micro} {x2 : State} (h2 : x2.Ok q n) : (setfOp x0 x1 x2).Ok q n := by
  unfold setfOp
  repeat' first | (with_reducible first | assumption | apply setFlags_ok) | split

theorem execSetf_ok {x0 : Fin 32} {x1 : Micro} {x2 : State} (h2 : x2.Ok q n) : OutOk q n (execSetf x0 x1 x2) := by
  unfold execSetf
  repeat' (with_reducible first | assumption | apply OutOk.next | apply plainWord_ok | apply setfOp_ok)

theorem clrlOp_ok {x0 : Nat} {x1 : Micro} {x2 : State} (h2 : x2.Ok q n) : (clrlOp x0 x1 x2).Ok q n := by
  unfold clrlOp
  repeat' first
    | (with_reducible first | assumption | apply State.onPt_ok | apply latchLevels_ok)
    | (extract_lets +onlyGivenNames t; (have hs : State.Ok q n t := ?_); on_goal 1 => (clear_value t; revert t; intro u hs))
    | split

theorem execClrl_ok {x0 : Fin 32} {x1 : Micro} {x2 : State} (h2 : x2.Ok q n) : OutOk q n (execClrl x0 x1 x2) := by
  unfold execClrl
  repeat' (with_reducible first | assumption | apply OutOk.next | apply plainWord_ok | apply clrlOp_ok)

theorem armcOp_ok {x0 : Nat} {x1 : Micro} {x2 : State} (h2 : x2.Ok q n) : (armcOp x0 x1 x2).Ok q n := by
  unfold armcOp
  repeat' first
    | (with_reducible first | assumption | apply State.onPt_ok | apply latchLevels_ok)
    | (extract_lets +onlyGivenNames t; (have hs : State.Ok q n t := ?_); on_goal 1 => (clear_value t; revert t; intro u hs))
    | (fail_if_no_progress extract_lets +onlyGivenNames u)
    | split

theorem execArmc_ok {x0 : Fin 32} {x1 : Micro} {x2 : State} (h2 : x2.Ok q n) : OutOk q n (execArmc x0 x1 x2) := by
  unfold execArmc
  repeat' (with_reducible first | assumption | apply OutOk.next | apply plainWord_ok | apply armcOp_ok)

theorem pndgOp_ok {x0 : Nat} {x1 : Micro} {x2 : State} (h2 : x2.Ok q n) : (pndgOp x0 x1 x2).Ok q n := by
  unfold pndgOp
  repeat' first
    | (with_reducible first | assumption | apply onSh_ok | apply deferred_ok | apply State.onPt_ok | apply State.setF_ok)
    | (extract_lets +onlyGivenNames t; (have hs : State.Ok q n t := ?_); on_goal 1 => (clear_value t; revert t; intro u hs))
    | split

theorem execPndg_ok {x0 : Fin 32} {x1 : Micro} {x2 : State} (h2 : x2.Ok q n) : OutOk q n (execPndg x0 x1 x2) := by
  unfold execPndg
  repeat' (with_reducible first | assumption | apply OutOk.next | apply plainWord_ok | apply pndgOp_ok)

theorem setstopOp_ok {x0 : Nat} {x1 : Micro} {x2 : State} (h2 : x2.Ok q n) : (setstopOp x0 x1 x2).Ok q n := by
  unfold setstopOp
  repeat' first
    | (with_reducible first | assumption | apply fixStop_ok)
    | (fail_if_no_progress extract_lets +onlyGivenNames u)
    | split

theorem execSetstop_ok {x0 : Fin 32} {x1 : Micro} {x2 : State} (h2 : x2.Ok q n) : OutOk q n (execSetstop x0 x1 x2) := by
  unfold execSetstop
  repeat' (with_reducible first | assumption | apply OutOk.next | apply plainWord_ok | apply setstopOp_ok)

theorem primerDone_ok {x0 x1 : Nat} {x2 : State} (h2 : x2.Ok q n) : (primerDone x0 x1 x2).Ok q n := by
  unfold primerDone
  repeat' (with_reducible first | assumption | apply event_ok | apply State.w_ok)

theorem postOp_ok {x0 : Nat} {x1 : Micro} {x2 : State} (h2 : x2.Ok q n) : (postOp x0 x1 x2).Ok q n := by
  unfold postOp
  repeat' first
    | (unfold t; clear t)
    | (with_reducible first | assumption | apply post_ok | apply primerDone_ok)
    | (extract_lets +onlyGivenNames t; (have hs : State.Ok q n t := ?_); on_goal 1 => (clear_value t; revert t; intro u hs))
    | (fail_if_no_progress extract_lets +onlyGivenNames u)
    | split

theorem execPost_ok {x0 : Fin 32} {x1 : Micro} {x2 : State} (h2 : x2.Ok q n) : OutOk q n (execPost x0 x1 x2) := by
  unfold execPost
  repeat' (with_reducible first | assumption | apply OutOk.next | apply plainWord_ok | apply postOp_ok)

theorem testOp_ok {x0 : Nat} {x1 : Micro} {x2 : Nat} {x3 : State} (h3 : x3.Ok q n) : (testOp x0 x1 x2 x3).Ok q n := by
  unfold testOp
  repeat' first | (with_reducible first | assumption | apply ufault_ok | apply setZ_ok | apply setReg_ok) | split

theorem execTest_ok {x0 : Fin 32} {x1 : Micro} {x2 : Nat} {x3 : State} (h3 : x3.Ok q n) : OutOk q n (execTest x0 x1 x2 x3) := by
  unfold execTest
  repeat' (with_reducible first | assumption | apply OutOk.next | apply plainWord_ok | apply testOp_ok)

theorem execReti_ok {x0 : Fin 32} {x1 : Micro} {x2 : State} (h2 : x2.Ok q n) : OutOk q n (execReti x0 x1 x2) := by
  unfold execReti
  repeat' first | (intro) | (with_reducible first | assumption | apply OutOk.next | apply word_ok | apply State.onSq_ok)

theorem csrrOp_ok {x0 : Nat} {x1 : Micro} {x2 : State} (h2 : x2.Ok q n) : (csrrOp x0 x1 x2).Ok q n := by
  unfold csrrOp
  repeat' first | (with_reducible first | assumption | apply regRead_ok | apply setReg_ok) | split

theorem execCsrr_ok {x0 : Fin 32} {x1 : Micro} {x2 : State} (h2 : x2.Ok q n) : OutOk q n (execCsrr x0 x1 x2) := by
  unfold execCsrr
  repeat' (with_reducible first | assumption | apply OutOk.next | apply plainWord_ok | apply csrrOp_ok)

theorem csrwOp_ok {x0 : Nat} {x1 : Micro} {x2 : State} (h2 : x2.Ok q n) : (csrwOp x0 x1 x2).Ok q n := by
  unfold csrwOp
  repeat' first | (with_reducible first | assumption | apply regWrite_ok) | split

theorem execCsrw_ok {x0 : Fin 32} {x1 : Micro} {x2 : State} (h2 : x2.Ok q n) : OutOk q n (execCsrw x0 x1 x2) := by
  unfold execCsrw
  repeat' (with_reducible first | assumption | apply OutOk.next | apply plainWord_ok | apply csrwOp_ok)

theorem execReservedOpcode_ok {x0 : Fin 32} {x1 : Micro} {x2 : State} (h2 : x2.Ok q n) : OutOk q n (execReservedOpcode x0 x1 x2) := by
  unfold execReservedOpcode
  repeat' (with_reducible first | assumption | apply OutOk.next | apply settle_ok | apply plainWord_ok | apply ufault_ok)

theorem sqCmd_ok {x0 x1 x2 : Nat} {x3 : State} (h3 : x3.Ok q n) : (sqCmd x0 x1 x2 x3).Ok q n := by
  unfold sqCmd
  repeat' first | (with_reducible first | assumption | apply State.setF_ok | apply raiseInt_ok | apply State.onSq_ok) | split

theorem execSqCmdArm_ok {x0 : Fin 32} {x1 : Nat} {x2 : State} (h2 : x2.Ok q n) : OutOk q n (execSqCmdArm x0 x1 x2) := by
  unfold execSqCmdArm
  repeat' (with_reducible first | assumption | apply OutOk.next | apply sqCmd_ok)

theorem execSqCmdResume_ok {x0 : Fin 32} {x1 : State} (h1 : x1.Ok q n) : OutOk q n (execSqCmdResume x0 x1) := by
  unfold execSqCmdResume
  repeat' (with_reducible first | assumption | apply OutOk.next | apply sqCmd_ok)

theorem execSqCmdSnap_ok {x0 : Fin 32} {x1 : State} (h1 : x1.Ok q n) : OutOk q n (execSqCmdSnap x0 x1) := by
  unfold execSqCmdSnap
  repeat' (with_reducible first | assumption | apply OutOk.next | apply sqCmd_ok)

theorem takeInt_ok {x0 x1 x2 x3 : Nat} {x4 : State} (h4 : x4.Ok q n) : (takeInt x0 x1 x2 x3 x4).Ok q n := by
  unfold takeInt
  repeat' (with_reducible first | assumption | apply State.w_ok | apply State.hi_ok | apply State.onSq_ok | apply enterRom_ok)

theorem execInterruptTake_ok {x0 : Fin 32} {x1 : State} (h1 : x1.Ok q n) : OutOk q n (execInterruptTake x0 x1) := by
  unfold execInterruptTake
  repeat' first
    | (with_reducible first | assumption | apply OutOk.next | apply takeInt_ok)
    | (fail_if_no_progress extract_lets +onlyGivenNames u)
    | split

theorem execPrimerTimeout_ok {x0 : Fin 32} {x1 : State} (h1 : x1.Ok q n) : OutOk q n (execPrimerTimeout x0 x1) := by
  unfold execPrimerTimeout
  repeat' first | (with_reducible first | assumption | apply OutOk.next | apply event_ok | apply State.w_ok) | split

theorem execSeqService_ok {x0 : Desc} {x1 : State} (h1 : x1.Ok q n) : OutOk q n (execSeqService x0 x1) := by
  unfold execSeqService
  repeat' first
    | (intro)
    | (with_reducible first | assumption | apply OutOk.next | apply runCmd_ok | apply toService_ok | apply forAll_ok)

theorem prime_ok {x0 : List Byte} {x1 x2 x3 x4 : Nat} {x5 : State} (h5 : x5.Ok q n) : (prime x0 x1 x2 x3 x4 x5).Ok q n := by
  unfold prime
  repeat' (with_reducible first | assumption | apply State.onSq_ok | apply State.w_ok | apply State.setF_ok | apply measure_ok)

theorem execSeqPrime_ok {x0 : Desc} {x1 : State} (h1 : x1.Ok q n) : OutOk q n (execSeqPrime x0 x1) := by
  unfold execSeqPrime
  repeat' first
    | (intro)
    | (with_reducible first | assumption | apply OutOk.next | apply runCmd_ok | apply checked_ok | apply prime_ok | apply forAll_ok)

end Sys2Proof.Machine
end

