-- ==== Sys2Proof/Laws/KeepMailbox.lean ====
section
/-! SUPPORT. What mailboxes keep: the canonical form of memories and registers, the queue and the time. -/

namespace Sys2Proof.Machine
variable {q : List Instr} {n : Nat}

theorem dropDoors_ok {x0 x1 : Nat} {x2 : State} (h2 : x2.Ok q n) : (dropDoors x0 x1 x2).Ok q n := by
  unfold dropDoors
  repeat' first | with_reducible assumption | fail_if_no_progress with_reducible apply Ok.parts

theorem journal_ok {x0 : Nat} {x1 : Desc} {x2 : State} (h2 : x2.Ok q n) : (journal x0 x1 x2).Ok q n := by
  unfold journal
  repeat' first | (with_reducible first | assumption | apply mirror_ok) | split

theorem takeDesc_ok {x0 : Nat} {x1 : State} (h1 : x1.Ok q n) : (takeDesc x0 x1).Ok q n := by
  unfold takeDesc
  repeat' first
    | (with_reducible first | assumption | apply post_ok | apply State.w_ok | apply mirrorMb_ok | apply dropDoors_ok
                            | apply mbErr_ok | apply complete_ok | apply journal_ok)
    | (extract_lets +onlyGivenNames t; (have hs : State.Ok q n t := ?_); on_goal 1 => (clear_value t; revert t; intro u hs))
    | (fail_if_no_progress extract_lets +onlyGivenNames u)
    | split
    | fail_if_no_progress with_reducible apply Ok.parts

theorem execDescriptorTake_ok {x0 : Fin 64} {x1 : State} (h1 : x1.Ok q n) : OutOk q n (execDescriptorTake x0 x1) := by
  unfold execDescriptorTake
  repeat' first
    | (with_reducible first | assumption | apply OutOk.next | apply takeDesc_ok | apply onCyc_ok)
    | (fail_if_no_progress extract_lets +onlyGivenNames u)
    | split
    | fail_if_no_progress with_reducible apply Ok.parts

theorem settleMailbox_ok {x0 : Nat} {x1 : State} (h1 : x1.Ok q n) : (settleMailbox x0 x1).Ok q n := by
  unfold settleMailbox
  repeat' first | (with_reducible first | assumption | apply duRefuse_ok) | split

theorem execUnsupportedCommand_ok {x0 : Desc} {x1 : Nat} {x2 : State} (h2 : x2.Ok q n) : OutOk q n (execUnsupportedCommand x0 x1 x2) := by
  unfold execUnsupportedCommand
  repeat' first
    | (with_reducible first | assumption | apply OutOk.next | apply started_ok | apply complete_ok)
    | (extract_lets +onlyGivenNames t; (have hs : State.Ok q n t := ?_); on_goal 1 => (clear_value t; revert t; intro u hs))
    | split

theorem runAlways_ok {x0 : Nat} {x1 : Desc} {x2 : List (Bool × Nat)} {x3 : State → State × Reply} {x4 : State} (h3 : ∀ a0, a0.Ok q n → (x3 a0).1.Ok q n) (h4 : x4.Ok q n) : (runAlways x0 x1 x2 x3 x4).Ok q n := by
  unfold runAlways
  repeat' first
    | (with_reducible first | assumption | apply started_ok | apply complete_ok | apply reply_ok | apply h3)
    | (extract_lets +onlyGivenNames t; (have hs : State.Ok q n t := ?_); on_goal 1 => (clear_value t; revert t; intro u hs))
    | split

theorem execSysInfo_ok {x0 : Desc} {x1 : State} (h1 : x1.Ok q n) : OutOk q n (execSysInfo x0 x1) := by
  unfold execSysInfo
  repeat' first | (intro) | (with_reducible first | assumption | apply OutOk.next | apply runAlways_ok | apply State.winStore_ok)

theorem execSysNop_ok {x0 : Desc} {x1 : State} (h1 : x1.Ok q n) : OutOk q n (execSysNop x0 x1) := by
  unfold execSysNop
  repeat' first | (intro) | (with_reducible first | assumption | apply OutOk.next | apply runAlways_ok)

end Sys2Proof.Machine
end

