-- ==== Sys2Proof/Laws/KeepChain.lean ====
section
/-! SUPPORT. What the result chain keeps: the canonical form of memories and registers, the queue and the time. -/

namespace Sys2Proof.Machine
variable {q : List Instr} {n : Nat}

theorem putKey_ok {x0 : Key} {x1 : State} (h1 : x1.Ok q n) : (putKey x0 x1).Ok q n := by
  unfold putKey
  repeat' first | (with_reducible first | assumption | apply recWrite_ok) | fail_if_no_progress with_reducible apply Ok.parts

theorem putIdent_ok {x0 : Key} {x1 : State} (h1 : x1.Ok q n) : (putIdent x0 x1).Ok q n := by
  unfold putIdent
  repeat' first | (with_reducible first | assumption | apply recWrite_ok) | fail_if_no_progress with_reducible apply Ok.parts

theorem showKeys_ok {x0 : State} (h0 : x0.Ok q n) : (showKeys x0).Ok q n := by
  unfold showKeys
  repeat' first
    | (with_reducible first | assumption | apply State.w_ok)
    | (extract_lets +onlyGivenNames t; (have hs : State.Ok q n t := ?_); on_goal 1 => (clear_value t; revert t; intro u hs))
    | split

theorem kick_ok {x0 : State} (h0 : x0.Ok q n) : (kick x0).Ok q n := by
  unfold kick
  repeat' first | with_reducible assumption | split | fail_if_no_progress with_reducible apply Ok.parts

theorem request_ok {x0 : SigFor} {x1 : State} (h1 : x1.Ok q n) : (request x0 x1).Ok q n := by
  unfold request
  repeat' first | (with_reducible first | assumption | apply kick_ok) | fail_if_no_progress with_reducible apply Ok.parts

theorem checkGen_ok {x0 : State} (h0 : x0.Ok q n) : (checkGen x0).Ok q n := by
  unfold checkGen
  repeat' first
    | (with_reducible first | assumption | apply State.fresh_ok | apply request_ok | apply putKey_ok)
    | (fail_if_no_progress extract_lets +onlyGivenNames u)
    | split
    | fail_if_no_progress with_reducible apply Ok.parts

theorem State.ringPut_ok {x0 : State} {x1 : Chain} {x2 x3 x4 x5 : Nat} {x6 : List Byte} (h0 : x0.Ok q n) : (State.ringPut x0 x1 x2 x3 x4 x5 x6).1.Ok q n := by
  unfold State.ringPut
  repeat' first | (with_reducible first | assumption | apply State.store_ok) | split

theorem putRec_ok {x0 : List Byte} {x1 : Chain} {x2 : State} (h2 : x2.Ok q n) : (putRec x0 x1 x2).Ok q n := by
  unfold putRec
  repeat' first
    | (with_reducible first | assumption | apply State.ringPut_ok | apply State.w_ok)
    | split
    | fail_if_no_progress with_reducible apply Ok.parts

theorem saveChain_ok {x0 : State} (h0 : x0.Ok q n) : (saveChain x0).Ok q n := by
  unfold saveChain
  repeat' (with_reducible first | assumption | apply recWrite_ok)

theorem take_ok {x0 : Chain} {x1 x2 : Nat} {x3 : List Byte} {x4 : Option Desc} {x5 : State} (h5 : x5.Ok q n) : (take x0 x1 x2 x3 x4 x5).Ok q n := by
  unfold take
  repeat' first | (with_reducible first | assumption | apply mirror_ok) | fail_if_no_progress with_reducible apply Ok.parts

theorem siteDone_ok {x0 : List Byte} {x1 : Nat} {x2 : State} (h2 : x2.Ok q n) : (siteDone x0 x1 x2).Ok q n := by
  unfold siteDone
  repeat' first | with_reducible assumption | fail_if_no_progress with_reducible apply Ok.parts

theorem takeSkey_ok {x0 : State} (h0 : x0.Ok q n) : (takeSkey x0).Ok q n := by
  unfold takeSkey
  repeat' first | (with_reducible first | assumption | apply take_ok) | split | fail_if_no_progress with_reducible apply Ok.parts

theorem askSeal_ok {x0 : Option Desc} {x1 : State} (h1 : x1.Ok q n) : (askSeal x0 x1).Ok q n := by
  unfold askSeal
  repeat' first
    | (with_reducible first | assumption | apply takeSkey_ok | apply request_ok)
    | (extract_lets +onlyGivenNames t; (have hs : State.Ok q n t := ?_); on_goal 1 => (clear_value t; revert t; intro u hs))
    | split
    | fail_if_no_progress with_reducible apply Ok.parts

theorem openLot_ok {x0 x1 : Nat} {x2 : Chain} {x3 : State} (h3 : x3.Ok q n) : (openLot x0 x1 x2 x3).Ok q n := by
  unfold openLot
  repeat' first
    | (with_reducible first | assumption | apply mirror_ok | apply take_ok)
    | fail_if_no_progress with_reducible apply Ok.parts

theorem closeLot_ok {x0 : State} (h0 : x0.Ok q n) : (closeLot x0).Ok q n := by
  unfold closeLot
  repeat' first | (with_reducible first | assumption | apply take_ok) | fail_if_no_progress with_reducible apply Ok.parts

theorem lotDone_ok {x0 : Nat} {x1 : State} (h1 : x1.Ok q n) : (lotDone x0 x1).Ok q n := by
  unfold lotDone
  repeat' first
    | (intro)
    | (with_reducible first | assumption | apply complete_ok | apply Ok.foldl)
    | split
    | fail_if_no_progress with_reducible apply Ok.parts

theorem lotGo_ok {x0 : State} (h0 : x0.Ok q n) : (lotGo x0).Ok q n := by
  unfold lotGo
  repeat' first
    | (intro)
    | (with_reducible first | assumption | apply lotDone_ok | apply openLot_ok | apply closeLot_ok | apply hf | apply hg | apply hk
                            | apply hl | apply hm)
    | (extract_lets +onlyGivenNames t; (have hs : ∀ b a, State.Ok q n a → State.Ok q n (t b a) := ?_); on_goal 1 => (clear_value t; revert t; intro u hg))
    | split
    | fail_if_no_progress with_reducible apply Ok.parts

theorem appended_ok {x0 : HoldRec} {x1 : State} (h1 : x1.Ok q n) : (appended x0 x1).Ok q n := by
  unfold appended
  repeat' first
    | (unfold t; clear t)
    | (with_reducible first | assumption | apply State.w_ok | apply siteDone_ok | apply askSeal_ok | apply saveChain_ok
                            | apply State.inc_ok | apply complete_ok | apply lotGo_ok)
    | (extract_lets +onlyGivenNames t; (have hs : State.Ok q n t := ?_); on_goal 1 => (clear_value t; revert t; intro u hs))
    | (extract_lets +onlyGivenNames t; clear_value t; revert t; intro u)
    | split
    | fail_if_no_progress with_reducible apply Ok.parts

theorem appendGo_ok {x0 : Nat} {x1 : State} (h1 : x1.Ok q n) : (appendGo x0 x1).Ok q n := by
  induction x0 generalizing x1 with
  | zero =>
    unfold appendGo
    repeat' first
      | (with_reducible first | assumption | apply ih | apply putRec_ok | apply appended_ok)
      | split
      | fail_if_no_progress with_reducible apply Ok.parts
  | succ k ih =>
    unfold appendGo
    repeat' first
      | (with_reducible first | assumption | apply ih | apply putRec_ok | apply appended_ok)
      | split
      | fail_if_no_progress with_reducible apply Ok.parts

theorem appendAll_ok {x0 : State} (h0 : x0.Ok q n) : (appendAll x0).Ok q n := by
  unfold appendAll
  repeat' (with_reducible first | assumption | apply appendGo_ok)

theorem partnerAppend_ok {x0 x1 : Nat} {x2 : List Byte} {x3 : State} (h3 : x3.Ok q n) : (partnerAppend x0 x1 x2 x3).Ok q n := by
  unfold partnerAppend
  repeat' first
    | (unfold t; clear t)
    | (with_reducible first | assumption | apply State.ringPut_ok | apply State.w_ok)
    | (extract_lets +onlyGivenNames t; (have hs : State.Ok q n t := ?_); on_goal 1 => (clear_value t; revert t; intro u hs))
    | fail_if_no_progress with_reducible apply Ok.parts

theorem askPartnerSeal_ok {x0 : Option Desc} {x1 : State} (h1 : x1.Ok q n) : (askPartnerSeal x0 x1).Ok q n := by
  unfold askPartnerSeal
  repeat' first
    | (unfold t; clear t)
    | (with_reducible first | assumption | apply partnerAppend_ok | apply request_ok)
    | (extract_lets +onlyGivenNames t; (have hs : State.Ok q n t := ?_); on_goal 1 => (clear_value t; revert t; intro u hs))
    | split
    | fail_if_no_progress with_reducible apply Ok.parts

theorem partnerGo_ok {x0 : State} (h0 : x0.Ok q n) : (partnerGo x0).Ok q n := by
  unfold partnerGo
  repeat' first
    | (intro)
    | (unfold t; clear t)
    | (with_reducible first | assumption | apply partnerAppend_ok | apply complete_ok | apply askPartnerSeal_ok | apply hf
                            | apply hg | apply hk | apply hl | apply hm | apply Ok.foldl)
    | (extract_lets +onlyGivenNames t; (have hs : State.Ok q n t := ?_); on_goal 1 => (clear_value t; revert t; intro u hs))
    | (extract_lets +onlyGivenNames t; (have hs : ∀ a, State.Ok q n a → State.Ok q n (t a) := ?_); on_goal 1 => (clear_value t; revert t; intro u hf))
    | (extract_lets +onlyGivenNames t; (have hs : ∀ b a, State.Ok q n a → State.Ok q n (t b a) := ?_); on_goal 1 => (clear_value t; revert t; intro u hg))
    | (fail_if_no_progress extract_lets +onlyGivenNames u)
    | split
    | fail_if_no_progress with_reducible apply Ok.parts

theorem partnerSealed_ok {x0 : Option Desc} {x1 : Nat} {x2 : State} (h2 : x2.Ok q n) : (partnerSealed x0 x1 x2).Ok q n := by
  unfold partnerSealed
  repeat' first
    | (unfold t; clear t)
    | (with_reducible first | assumption | apply partnerGo_ok | apply complete_ok)
    | split
    | fail_if_no_progress with_reducible apply Ok.parts

theorem failSigs_ok {x0 : State} (h0 : x0.Ok q n) : (failSigs x0).Ok q n := by
  unfold failSigs
  repeat' first
    | (intro)
    | (unfold t; clear t)
    | (with_reducible first | assumption | apply complete_ok | apply partnerGo_ok | apply appendAll_ok | apply lotGo_ok
                            | apply Ok.foldl)
    | split
    | fail_if_no_progress with_reducible apply Ok.parts

theorem noSign_ok {x0 : State} (h0 : x0.Ok q n) : (noSign x0).Ok q n := by
  unfold noSign
  repeat' (with_reducible first | assumption | apply failSigs_ok | apply State.setF_ok)

theorem execReservationWriteDone_ok {x0 : Bool} {x1 : State} (h1 : x1.Ok q n) : OutOk q n (execReservationWriteDone x0 x1) := by
  unfold execReservationWriteDone
  repeat' first
    | (with_reducible first | assumption | apply OutOk.next | apply putIdent_ok | apply putKey_ok | apply noSign_ok
                            | apply event_ok)
    | (extract_lets +onlyGivenNames t; (have hs : State.Ok q n t := ?_); on_goal 1 => (clear_value t; revert t; intro u hs))
    | (fail_if_no_progress extract_lets +onlyGivenNames u)
    | split
    | fail_if_no_progress with_reducible apply Ok.parts

theorem rollKey_ok {x0 : Key} {x1 : State} (h1 : x1.Ok q n) : (rollKey x0 x1).Ok q n := by
  unfold rollKey
  repeat' first
    | (with_reducible first | assumption | apply putKey_ok | apply showKeys_ok | apply event_ok | apply noSign_ok)
    | split
    | fail_if_no_progress with_reducible apply Ok.parts

theorem spend_ok {x0 : Bool} {x1 : Key} {x2 : State} (h2 : x2.Ok q n) : (spend x0 x1 x2).Ok q n := by
  unfold spend
  repeat' first
    | (unfold t; clear t)
    | (with_reducible first | assumption | apply lifeAdd_ok | apply putIdent_ok | apply showKeys_ok | apply event_ok
                            | apply checkGen_ok | apply rollKey_ok)
    | (extract_lets +onlyGivenNames t; (have hs : State.Ok q n t := ?_); on_goal 1 => (clear_value t; revert t; intro u hs))
    | (fail_if_no_progress extract_lets +onlyGivenNames u)
    | split
    | fail_if_no_progress with_reducible apply Ok.parts

theorem quoteDone_ok {x0 : Key} {x1 : Desc} {x2 x3 : Nat} {x4 : State} (h4 : x4.Ok q n) : (quoteDone x0 x1 x2 x3 x4).Ok q n := by
  unfold quoteDone
  repeat' first
    | (with_reducible first | assumption | apply State.inc_ok | apply State.winStore_ok | apply complete_ok)
    | fail_if_no_progress with_reducible apply Ok.parts

theorem execSignatureDone_ok {x0 : State} (h0 : x0.Ok q n) : OutOk q n (execSignatureDone x0) := by
  unfold execSignatureDone
  repeat' first
    | (unfold t; clear t)
    | (with_reducible first | assumption | apply OutOk.next | apply spend_ok | apply quoteDone_ok | apply appendAll_ok
                            | apply take_ok | apply partnerSealed_ok | apply partnerAppend_ok | apply kick_ok)
    | (extract_lets +onlyGivenNames t; (have hs : State.Ok q n t := ?_); on_goal 1 => (clear_value t; revert t; intro u hs))
    | split
    | fail_if_no_progress with_reducible apply Ok.parts

theorem execSessionKeyGenerated_ok {x0 : State} (h0 : x0.Ok q n) : OutOk q n (execSessionKeyGenerated x0) := by
  unfold execSessionKeyGenerated
  repeat' first
    | (with_reducible first | assumption | apply OutOk.next | apply lifeAdd_ok | apply putKey_ok | apply showKeys_ok)
    | (extract_lets +onlyGivenNames t; (have hs : State.Ok q n t := ?_); on_goal 1 => (clear_value t; revert t; intro u hs))
    | split
    | fail_if_no_progress with_reducible apply Ok.parts

theorem execSealTimer_ok {x0 : State} (h0 : x0.Ok q n) : OutOk q n (execSealTimer x0) := by
  unfold execSealTimer
  repeat' first
    | (with_reducible first | assumption | apply OutOk.next | apply appendAll_ok | apply askSeal_ok | apply askPartnerSeal_ok)
    | (fail_if_no_progress extract_lets +onlyGivenNames u)
    | split

end Sys2Proof.Machine
end

