-- ==== Sys2Proof/Laws/KeepSec.lean ====
section
/-! SUPPORT. What the SEC commands keep: the canonical form of memories and registers, the queue and the time. -/

namespace Sys2Proof.Machine
variable {q : List Instr} {n : Nat}

theorem execSecQuote_ok {x0 : Desc} {x1 : State} (h1 : x1.Ok q n) : OutOk q n (execSecQuote x0 x1) := by
  unfold execSecQuote
  repeat' first
    | (intro)
    | (with_reducible first | assumption | apply OutOk.next | apply runCmd_ok | apply checked_ok | apply request_ok)
    | fail_if_no_progress with_reducible apply Ok.parts

theorem execSecLog_ok {x0 : Desc} {x1 : State} (h1 : x1.Ok q n) : OutOk q n (execSecLog x0 x1) := by
  unfold execSecLog
  repeat' first
    | (intro)
    | (with_reducible first | assumption | apply OutOk.next | apply runCmd_ok | apply checked_ok | apply State.winStore_ok)

theorem execSecCert_ok {x0 : Desc} {x1 : State} (h1 : x1.Ok q n) : OutOk q n (execSecCert x0 x1) := by
  unfold execSecCert
  repeat' first | (intro) | (with_reducible first | assumption | apply OutOk.next | apply runCmd_ok | apply State.winStore_ok)

theorem execSecKeystate_ok {x0 : Desc} {x1 : State} (h1 : x1.Ok q n) : OutOk q n (execSecKeystate x0 x1) := by
  unfold execSecKeystate
  repeat' first | (intro) | (with_reducible first | assumption | apply OutOk.next | apply runCmd_ok | apply State.winStore_ok)

theorem setOwner_ok {x0 x1 : Nat} {x2 : State} (h2 : x2.Ok q n) : (setOwner x0 x1 x2).Ok q n := by
  unfold setOwner
  repeat' first
    | (with_reducible first | assumption | apply State.w_ok | apply recWrite_ok | apply event_ok | apply measure_ok)
    | (extract_lets +onlyGivenNames t; (have hs : State.Ok q n t := ?_); on_goal 1 => (clear_value t; revert t; intro u hs))
    | fail_if_no_progress with_reducible apply Ok.parts

theorem execSecOwner_ok {x0 : Desc} {x1 : State} (h1 : x1.Ok q n) : OutOk q n (execSecOwner x0 x1) := by
  unfold execSecOwner
  repeat' first
    | (intro)
    | (with_reducible first | assumption | apply OutOk.next | apply runCmd_ok | apply checked_ok | apply setOwner_ok)
    | split

theorem dropChallenge_ok {x0 : State} (h0 : x0.Ok q n) : (dropChallenge x0).Ok q n := by
  unfold dropChallenge
  repeat' first | with_reducible assumption | fail_if_no_progress with_reducible apply Ok.parts

theorem debugChallenge_ok {x0 : Desc} {x1 : State} (h1 : x1.Ok q n) : (debugChallenge x0 x1).1.Ok q n := by
  unfold debugChallenge
  repeat' first
    | (unfold t; clear t)
    | (with_reducible first | assumption | apply checked_ok | apply State.fresh_ok | apply State.winStore_ok)
    | (extract_lets +onlyGivenNames t; (have hs : State.Ok q n t := ?_); on_goal 1 => (clear_value t; revert t; intro u hs))
    | fail_if_no_progress with_reducible apply Ok.parts

theorem raiseDebug_ok {x0 : Nat} {x1 : State} (h1 : x1.Ok q n) : (raiseDebug x0 x1).Ok q n := by
  unfold raiseDebug
  repeat' first
    | (with_reducible first | assumption | apply State.hi_ok | apply event_ok | apply measure_ok)
    | (extract_lets +onlyGivenNames t; (have hs : State.Ok q n t := ?_); on_goal 1 => (clear_value t; revert t; intro u hs))
    | (fail_if_no_progress extract_lets +onlyGivenNames u)
    | split
    | fail_if_no_progress with_reducible apply Ok.parts

theorem execSecDebug_ok {x0 : Desc} {x1 : State} (h1 : x1.Ok q n) : OutOk q n (execSecDebug x0 x1) := by
  unfold execSecDebug
  repeat' first
    | (intro)
    | (unfold t; clear t)
    | (with_reducible first | assumption | apply OutOk.next | apply runCmd_ok | apply debugChallenge_ok | apply checked_ok
                            | apply dropChallenge_ok | apply raiseDebug_ok)
    | split

theorem execChallengeExpiry_ok {x0 : State} (h0 : x0.Ok q n) : OutOk q n (execChallengeExpiry x0) := by
  unfold execChallengeExpiry
  repeat' first | (with_reducible first | assumption | apply OutOk.next | apply dropChallenge_ok) | split

theorem execSecSeal_ok {x0 : Desc} {x1 : State} (h1 : x1.Ok q n) : OutOk q n (execSecSeal x0 x1) := by
  unfold execSecSeal
  repeat' first
    | (intro)
    | (with_reducible first | assumption | apply OutOk.next | apply runCmd_ok | apply checked_ok | apply askPartnerSeal_ok
                            | apply appendAll_ok | apply askSeal_ok)
    | (extract_lets +onlyGivenNames t; (have hs : State.Ok q n t := ?_); on_goal 1 => (clear_value t; revert t; intro u hs))
    | split
    | fail_if_no_progress with_reducible apply Ok.parts

theorem execSecLot_ok {x0 : Desc} {x1 : State} (h1 : x1.Ok q n) : OutOk q n (execSecLot x0 x1) := by
  unfold execSecLot
  repeat' first
    | (intro)
    | (with_reducible first | assumption | apply OutOk.next | apply runCmd_ok | apply checked_ok | apply appendAll_ok
                            | apply lotGo_ok | apply partnerGo_ok)
    | (extract_lets +onlyGivenNames t; (have hs : State.Ok q n t := ?_); on_goal 1 => (clear_value t; revert t; intro u hs))
    | split
    | fail_if_no_progress with_reducible apply Ok.parts

theorem placeResults_ok {x0 x1 : Nat} {x2 : State} (h2 : x2.Ok q n) : (placeResults x0 x1 x2).Ok q n := by
  unfold placeResults
  repeat' first
    | (intro)
    | (with_reducible first | assumption | apply State.w_ok | apply appendAll_ok | apply putRec_ok | apply Ok.foldl)
    | (extract_lets +onlyGivenNames t; (have hs : State.Ok q n t := ?_); on_goal 1 => (clear_value t; revert t; intro u hs))
    | fail_if_no_progress with_reducible apply Ok.parts

theorem execSecRing_ok {x0 : Desc} {x1 : State} (h1 : x1.Ok q n) : OutOk q n (execSecRing x0 x1) := by
  unfold execSecRing
  repeat' first
    | (intro)
    | (with_reducible first | assumption | apply OutOk.next | apply runCmd_ok | apply checked_ok | apply placeResults_ok)

end Sys2Proof.Machine
end

