-- ==== Sys2Proof/Laws/KeepWork.lean ====
section
/-! SUPPORT. What the dispatch unit and the flow cores keep: the canonical form of memories and registers, the queue and the time. -/

namespace Sys2Proof.Machine
variable {q : List Instr} {n : Nat}

theorem State.onFc_ok {x0 : State} {x1 : Nat} {x2 : FlowCore → FlowCore} (h0 : x0.Ok q n) : (State.onFc x0 x1 x2).Ok q n := by
  unfold State.onFc
  repeat' first | with_reducible assumption | fail_if_no_progress with_reducible apply Ok.parts

theorem execWorkItemPost_ok {x0 x1 x2 x3 x4 : Nat} {x5 : Bool} {x6 : State} (h6 : x6.Ok q n) : OutOk q n (execWorkItemPost x0 x1 x2 x3 x4 x5 x6) := by
  unfold execWorkItemPost
  repeat' first | (with_reducible first | assumption | apply OutOk.next | apply post_ok) | split

theorem wakeItem_ok {x0 : Nat} {x1 : State} (h1 : x1.Ok q n) : (wakeItem x0 x1).Ok q n := by
  unfold wakeItem
  repeat' first | with_reducible assumption | fail_if_no_progress with_reducible apply Ok.parts

theorem readyItem_ok {x0 : Nat} {x1 : State} (h1 : x1.Ok q n) : (readyItem x0 x1).Ok q n := by
  unfold readyItem
  repeat' first
    | (with_reducible first | assumption | apply raceCancel_ok | apply wakeItem_ok)
    | split
    | fail_if_no_progress with_reducible apply Ok.parts

theorem execWorkItemReady_ok {x0 : Nat} {x1 : State} (h1 : x1.Ok q n) : OutOk q n (execWorkItemReady x0 x1) := by
  unfold execWorkItemReady
  repeat' first | (with_reducible first | assumption | apply OutOk.next | apply readyItem_ok) | split

theorem finalTick_ok {x0 : State} (h0 : x0.Ok q n) : (finalTick x0).Ok q n := by
  unfold finalTick
  repeat' first
    | (with_reducible first | assumption | apply readyItem_ok | apply forAll_ok)
    | fail_if_no_progress with_reducible apply Ok.parts

theorem ringFull_ok {x0 : State} (h0 : x0.Ok q n) : (ringFull x0).Ok q n := by
  unfold ringFull
  repeat' first
    | (with_reducible first | assumption | apply event_ok | apply State.setF_ok)
    | (extract_lets +onlyGivenNames t; (have hs : State.Ok q n t := ?_); on_goal 1 => (clear_value t; revert t; intro u hs))
    | split
    | fail_if_no_progress with_reducible apply Ok.parts

theorem serve_ok {x0 : Nat} {x1 : Item} {x2 : State} (h2 : x2.Ok q n) : (serve x0 x1 x2).Ok q n := by
  unfold serve
  repeat' first
    | (unfold t; clear t)
    | (with_reducible first | assumption | apply State.inc_ok | apply State.w_ok)
    | (extract_lets +onlyGivenNames t; (have hs : State.Ok q n t := ?_); on_goal 1 => (clear_value t; revert t; intro u hs))
    | split
    | fail_if_no_progress with_reducible apply Ok.parts

theorem execWorkItemDispatch_ok {x0 : Fin 17} {x1 : State} (h1 : x1.Ok q n) : OutOk q n (execWorkItemDispatch x0 x1) := by
  unfold execWorkItemDispatch
  repeat' first
    | (unfold t; clear t)
    | (with_reducible first | assumption | apply OutOk.next | apply ringFull_ok | apply serve_ok)
    | (extract_lets +onlyGivenNames t; (have hs : State.Ok q n t := ?_); on_goal 1 => (clear_value t; revert t; intro u hs))
    | (fail_if_no_progress extract_lets +onlyGivenNames u)
    | split

theorem freeItem_ok {x0 : Nat} {x1 : Item} {x2 : State} (h2 : x2.Ok q n) : (freeItem x0 x1 x2).Ok q n := by
  unfold freeItem
  repeat' first
    | (with_reducible first | assumption | apply State.w_ok | apply readmit_ok)
    | split
    | fail_if_no_progress with_reducible apply Ok.parts

theorem execDuLoadWindow_ok {x0 : State} (h0 : x0.Ok q n) : OutOk q n (execDuLoadWindow x0) := by
  unfold execDuLoadWindow
  repeat' first
    | (intro)
    | (unfold t; clear t)
    | (with_reducible first | assumption | apply OutOk.next | apply State.w_ok | apply forAll_ok)
    | (extract_lets +onlyGivenNames t; (have hs : State.Ok q n t := ?_); on_goal 1 => (clear_value t; revert t; intro u hs))
    | split
    | fail_if_no_progress with_reducible apply Ok.parts

theorem postResult_ok {x0 x1 : Nat} {x2 : State} (h2 : x2.Ok q n) : (postResult x0 x1 x2).Ok q n := by
  unfold postResult
  repeat' (with_reducible first | assumption | apply State.onFc_ok | apply post_ok)

theorem onSite_ok {x0 x1 : Nat} {x2 : Site → Site} {x3 : State} (h3 : x3.Ok q n) : (onSite x0 x1 x2 x3).Ok q n := by
  unfold onSite
  repeat' (with_reducible first | assumption | apply State.onFc_ok)

theorem postFault_ok {x0 : Nat} {x1 : Site} {x2 : Nat} {x3 : State} (h3 : x3.Ok q n) : (postFault x0 x1 x2 x3).Ok q n := by
  unfold postFault
  repeat' (with_reducible first | assumption | apply State.fresh_ok | apply postResult_ok)

theorem siteFault_ok {x0 : Nat} {x1 : Site} {x2 : Nat} {x3 : Item} {x4 : State} (h4 : x4.Ok q n) : (siteFault x0 x1 x2 x3 x4).Ok q n := by
  unfold siteFault
  repeat' (with_reducible first | assumption | apply onSite_ok | apply event_ok | apply postFault_ok)

theorem runSites_ok {x0 : Nat} {x1 : Item} {x2 : List Handler} {x3 : State} (h3 : x3.Ok q n) : (runSites x0 x1 x2 x3).Ok q n := by
  unfold runSites
  repeat' first
    | (intro)
    | (with_reducible first | assumption | apply postFault_ok | apply siteFault_ok | apply postResult_ok | apply Ok.foldl)
    | split
    | fail_if_no_progress with_reducible apply Ok.parts

theorem mpDone_ok {x0 : Item} {x1 : State} (h1 : x1.Ok q n) : (mpDone x0 x1).Ok q n := by
  unfold mpDone
  repeat' first
    | (with_reducible first | assumption | apply State.onFc_ok | apply appendAll_ok | apply take_ok | apply State.inc_ok)
    | (extract_lets +onlyGivenNames t; (have hs : State.Ok q n t := ?_); on_goal 1 => (clear_value t; revert t; intro u hs))
    | split

theorem execWorkItemDone_ok {x0 : Fin 17} {x1 : List Handler} {x2 : State} (h2 : x2.Ok q n) : OutOk q n (execWorkItemDone x0 x1 x2) := by
  unfold execWorkItemDone
  repeat' first
    | (with_reducible first | assumption | apply OutOk.next | apply freeItem_ok | apply mpDone_ok | apply runSites_ok)
    | (fail_if_no_progress extract_lets +onlyGivenNames u)
    | split

theorem execFlowBudgetTimer_ok {x0 : Fin 16} {x1 : Nat} {x2 : State} (h2 : x2.Ok q n) : OutOk q n (execFlowBudgetTimer x0 x1 x2) := by
  unfold execFlowBudgetTimer
  repeat' first
    | (with_reducible first | assumption | apply OutOk.next | apply siteFault_ok)
    | (fail_if_no_progress extract_lets +onlyGivenNames u)
    | split

theorem execFlowHangTimer_ok {x0 : Fin 16} {x1 : State} (h1 : x1.Ok q n) : OutOk q n (execFlowHangTimer x0 x1) := by
  unfold execFlowHangTimer
  repeat' first
    | (intro)
    | (unfold t; clear t)
    | (with_reducible first | assumption | apply OutOk.next | apply siteFault_ok | apply freeItem_ok | apply State.onFc_ok
                            | apply faultEvent_ok | apply State.w_ok | apply measure_ok | apply event_ok | apply Ok.foldl)
    | (extract_lets +onlyGivenNames t; (have hs : State.Ok q n t := ?_); on_goal 1 => (clear_value t; revert t; intro u hs))
    | (fail_if_no_progress extract_lets +onlyGivenNames u)
    | split

theorem loadCore_ok {x0 : Nat} {x1 : Option FlowProg} {x2 : List Nat} {x3 : State} (h3 : x3.Ok q n) : (loadCore x0 x1 x2 x3).Ok q n := by
  unfold loadCore
  repeat' first
    | (with_reducible first | assumption | apply cancelKey_ok | apply State.onFc_ok | apply State.w_ok | apply measure_ok
                            | apply forAll_ok)
    | (extract_lets +onlyGivenNames t; (have hs : State.Ok q n t := ?_); on_goal 1 => (clear_value t; revert t; intro u hs))
    | split

theorem execSecFlow_ok {x0 : Desc} {x1 : State} (h1 : x1.Ok q n) : OutOk q n (execSecFlow x0 x1) := by
  unfold execSecFlow
  repeat' first
    | (intro)
    | (with_reducible first | assumption | apply OutOk.next | apply runCmd_ok | apply checked_ok | apply loadCore_ok)
    | (extract_lets +onlyGivenNames t; (have hs : State.Ok q n t := ?_); on_goal 1 => (clear_value t; revert t; intro u hs))
    | split
    | fail_if_no_progress with_reducible apply Ok.parts

theorem emptyCore_ok {x0 : Nat} {x1 : State} (h1 : x1.Ok q n) : (emptyCore x0 x1).Ok q n := by
  unfold emptyCore
  repeat' (with_reducible first | assumption | apply State.onFc_ok | apply State.w_ok)

theorem execFlowEntryReturn_ok {x0 : Fin 16} {x1 : State} (h1 : x1.Ok q n) : OutOk q n (execFlowEntryReturn x0 x1) := by
  unfold execFlowEntryReturn
  repeat' first
    | (with_reducible first | assumption | apply OutOk.next | apply complete_ok | apply State.w_ok | apply State.onFc_ok)
    | (extract_lets +onlyGivenNames t; (have hs : State.Ok q n t := ?_); on_goal 1 => (clear_value t; revert t; intro u hs))
    | (fail_if_no_progress extract_lets +onlyGivenNames u)
    | split
    | fail_if_no_progress with_reducible apply Ok.parts

theorem execFlowEntryTimeout_ok {x0 : Fin 16} {x1 : State} (h1 : x1.Ok q n) : OutOk q n (execFlowEntryTimeout x0 x1) := by
  unfold execFlowEntryTimeout
  repeat' first
    | (with_reducible first | assumption | apply OutOk.next | apply complete_ok | apply emptyCore_ok)
    | (extract_lets +onlyGivenNames t; (have hs : State.Ok q n t := ?_); on_goal 1 => (clear_value t; revert t; intro u hs))
    | (fail_if_no_progress extract_lets +onlyGivenNames u)
    | split
    | fail_if_no_progress with_reducible apply Ok.parts

end Sys2Proof.Machine
end

