-- ==== Sys2Proof/Laws/KeepRec.lean ====
section
/-! SUPPORT. What record memory keeps: the canonical form of memories and registers, the queue and the time. -/

namespace Sys2Proof.Machine
variable {q : List Instr} {n : Nat}

theorem recDeliver_ok {x0 : Desc} {x1 : Nat} {x2 : State} (h2 : x2.Ok q n) : (recDeliver x0 x1 x2).1.Ok q n := by
  unfold recDeliver
  repeat' first
    | (with_reducible first | assumption | apply State.winStore_ok | apply State.inc_ok)
    | (extract_lets +onlyGivenNames t; (have hs : State.Ok q n t := ?_); on_goal 1 => (clear_value t; revert t; intro u hs))
    | split

theorem State.changing_ok {x0 : State} {x1 : Nat} (h0 : x0.Ok q n) : (State.changing x0 x1).2.Ok q n := by
  unfold State.changing
  repeat' first | (with_reducible first | assumption | apply State.fresh_ok) | split

theorem execRecRead_ok {x0 : Desc} {x1 : State} (h1 : x1.Ok q n) : OutOk q n (execRecRead x0 x1) := by
  unfold execRecRead
  repeat' first
    | (intro)
    | (with_reducible first | assumption | apply OutOk.next | apply runCmd_ok | apply checked_ok | apply State.changing_ok
                            | apply recDeliver_ok)
    | split
    | with_reducible refine Ok.snd (by assumption) ?_
    | fail_if_no_progress with_reducible apply Ok.parts

theorem execRecReadRetry_ok {x0 : State} (h0 : x0.Ok q n) : OutOk q n (execRecReadRetry x0) := by
  unfold execRecReadRetry
  repeat' first
    | (unfold t; clear t)
    | (with_reducible first | assumption | apply OutOk.next | apply State.changing_ok | apply recDeliver_ok | apply reply_ok)
    | (extract_lets +onlyGivenNames t; (have hs : State.Ok q n t := ?_); on_goal 1 => (clear_value t; revert t; intro u hs))
    | split
    | with_reducible refine Ok.snd (by assumption) ?_
    | fail_if_no_progress with_reducible apply Ok.parts

theorem copyFails_ok {x0 x1 x2 : Nat} {x3 : State} (h3 : x3.Ok q n) : (copyFails x0 x1 x2 x3).Ok q n := by
  unfold copyFails
  repeat' first
    | (intro)
    | (with_reducible first | assumption | apply State.onRec_ok | apply event_ok | apply faultEvent_ok | apply State.setF_ok)

theorem saveEpoch_ok {x0 x1 x2 x3 x4 : Nat} {x5 : State} (h5 : x5.Ok q n) : (saveEpoch x0 x1 x2 x3 x4 x5).Ok q n := by
  unfold saveEpoch
  repeat' (with_reducible first | assumption | apply recWrite_ok)

theorem saveAnchor_ok {x0 : State} (h0 : x0.Ok q n) : (saveAnchor x0).Ok q n := by
  unfold saveAnchor
  repeat' first
    | (with_reducible first | assumption | apply saveEpoch_ok)
    | (extract_lets +onlyGivenNames t; (have hs : State.Ok q n t := ?_); on_goal 1 => (clear_value t; revert t; intro u hs))
    | split
    | fail_if_no_progress with_reducible apply Ok.parts

theorem calDueEvent_ok {x0 : Nat} {x1 : State} (h1 : x1.Ok q n) : (calDueEvent x0 x1).Ok q n := by
  unfold calDueEvent
  repeat' first | (with_reducible first | assumption | apply event_ok) | split | fail_if_no_progress with_reducible apply Ok.parts

theorem keyDueEvent_ok {x0 : Nat} {x1 : State} (h1 : x1.Ok q n) : (keyDueEvent x0 x1).Ok q n := by
  unfold keyDueEvent
  repeat' first | (with_reducible first | assumption | apply event_ok) | split | fail_if_no_progress with_reducible apply Ok.parts

theorem execCalendarCheck_ok {x0 : State} (h0 : x0.Ok q n) : OutOk q n (execCalendarCheck x0) := by
  unfold execCalendarCheck
  repeat' first | (with_reducible first | assumption | apply OutOk.next | apply keyDueEvent_ok | apply calDueEvent_ok) | split

theorem execRecCalendar_ok {x0 : Desc} {x1 : State} (h1 : x1.Ok q n) : OutOk q n (execRecCalendar x0 x1) := by
  unfold execRecCalendar
  repeat' first
    | (intro)
    | (with_reducible first | assumption | apply OutOk.next | apply runCmd_ok | apply checked_ok | apply recWrite_ok)

theorem flushLife_ok {x0 : State} (h0 : x0.Ok q n) : (flushLife x0).Ok q n := by
  unfold flushLife
  repeat' first | (intro) | (with_reducible first | assumption | apply recWrite_ok | apply Ok.foldl)

theorem execRecFlush_ok {x0 : Desc} {x1 : State} (h1 : x1.Ok q n) : OutOk q n (execRecFlush x0 x1) := by
  unfold execRecFlush
  repeat' first
    | (intro)
    | (with_reducible first | assumption | apply OutOk.next | apply runCmd_ok | apply askFlush_ok)
    | fail_if_no_progress with_reducible apply Ok.parts

theorem execFlushTimer_ok {x0 : State} (h0 : x0.Ok q n) : OutOk q n (execFlushTimer x0) := by
  unfold execFlushTimer
  repeat' first | (with_reducible first | assumption | apply OutOk.next | apply askFlush_ok) | split

theorem flushJobs_ok {x0 : State} (h0 : x0.Ok q n) : (flushJobs x0).Ok q n := by
  unfold flushJobs
  repeat' first
    | (intro)
    | (with_reducible first | assumption | apply complete_ok | apply Ok.foldl)
    | fail_if_no_progress with_reducible apply Ok.parts

theorem thermSecond_ok {x0 : Nat} {x1 : Int} {x2 : State} (h2 : x2.Ok q n) : (thermSecond x0 x1 x2).Ok q n := by
  unfold thermSecond
  repeat' first
    | (with_reducible first | assumption | apply lifeAdd_ok)
    | (extract_lets +onlyGivenNames t; (have hs : State.Ok q n t := ?_); on_goal 1 => (clear_value t; revert t; intro u hs))
    | (fail_if_no_progress extract_lets +onlyGivenNames u)
    | split
    | fail_if_no_progress with_reducible apply Ok.parts

theorem lifeTick_ok {x0 : State} (h0 : x0.Ok q n) : (lifeTick x0).Ok q n := by
  unfold lifeTick
  repeat' first
    | (intro)
    | (with_reducible first | assumption | apply thermSecond_ok | apply State.inc_ok | apply lifeAdd_ok | apply Ok.foldl)
    | fail_if_no_progress with_reducible apply Ok.parts

theorem execLifeSecond_ok {x0 : State} (h0 : x0.Ok q n) : OutOk q n (execLifeSecond x0) := by
  unfold execLifeSecond
  repeat' first | (with_reducible first | assumption | apply OutOk.next | apply lifeTick_ok | apply lifeAdd_ok) | split

theorem railRead_ok {x0 : State} {x1 x2 : Nat} (h0 : x0.Ok q n) : (railRead x0 x1 x2).Ok q n := by
  unfold railRead
  repeat' first
    | (unfold t; clear t)
    | (with_reducible first | assumption | apply setLife_ok)
    | (extract_lets +onlyGivenNames t; (have hs : State.Ok q n t := ?_); on_goal 1 => (clear_value t; revert t; intro u hs))
    | (fail_if_no_progress extract_lets +onlyGivenNames u)
    | split

theorem execRailSample_ok {x0 : List (Nat × Nat)} {x1 : State} (h1 : x1.Ok q n) : OutOk q n (execRailSample x0 x1) := by
  unfold execRailSample
  repeat' first | (intro) | (with_reducible first | assumption | apply OutOk.next | apply railRead_ok | apply Ok.foldl)

theorem execLaneHour_ok {x0 : Fin 48} {x1 : Nat} {x2 : State} (h2 : x2.Ok q n) : OutOk q n (execLaneHour x0 x1 x2) := by
  unfold execLaneHour
  repeat' first
    | (with_reducible first | assumption | apply OutOk.next | apply lifeAdd_ok | apply State.onLn_ok)
    | (fail_if_no_progress extract_lets +onlyGivenNames u)
    | split

end Sys2Proof.Machine
end

