-- ==== Sys2Proof/Laws/KeepPower.lean ====
section
/-! SUPPORT. What power and the start keep: the canonical form of memories and registers, the queue and the time. -/

namespace Sys2Proof.Machine
variable {q : List Instr} {n : Nat}

theorem resetMem_ok {s t : State} (h : s.Ok q n) (hp : t.pending = s.pending) (hn : t.now = s.now) (hr : t.regs = [])
    (hm : t.mem = { flash := s.mem.flash, cx0 := s.mem.cx0, cx1 := s.mem.cx1, cx0Bad := s.mem.cx0Bad, cx1Bad := s.mem.cx1Bad }) :
    t.Ok q n := by
  have h₁ := h.1.1
  simp only [Mems.wf, Bool.and_eq_true] at h₁
  refine ⟨⟨?_, hr ▸ ⟨List.Pairwise.nil, by simp⟩⟩, hp.trans h.2.1, hn.trans h.2.2⟩
  rw [hm]
  simp only [Mems.wf, Bool.and_eq_true]
  exact ⟨⟨⟨⟨rfl, rfl⟩, h₁.1.1.2⟩, h₁.1.2⟩, h₁.2⟩

theorem orElse_ok {s : State} {a b : Option State} (h : s.Ok q n) (ha : OptOk q n a) (hb : OptOk q n b) : ((a <|> b).getD s).Ok q n := by
  cases a with
  | some t => exact ha.ok t rfl
  | none => cases b with
    | some t => exact hb.ok t rfl
    | none => exact h

theorem onPwr_ok {x0 : Pwr → Pwr} {x1 : State} (h1 : x1.Ok q n) : (onPwr x0 x1).Ok q n := by
  unfold onPwr
  repeat' first | with_reducible assumption | fail_if_no_progress with_reducible apply Ok.parts

theorem onRecm_ok {x0 : RecMem → RecMem} {x1 : State} (h1 : x1.Ok q n) : (onRecm x0 x1).Ok q n := by
  unfold onRecm
  repeat' first | with_reducible assumption | fail_if_no_progress with_reducible apply Ok.parts

theorem sensorFail_ok {x0 : Nat} {x1 : State} (h1 : x1.Ok q n) : (sensorFail x0 x1).Ok q n := by
  unfold sensorFail
  repeat' first
    | (intro)
    | (with_reducible first | assumption | apply onPwr_ok | apply State.w_ok | apply State.inc_ok | apply faultEvent_ok
                            | apply event_ok)

theorem sensorRead_ok {x0 : Nat} {x1 : Option Int} {x2 : State} (h2 : x2.Ok q n) : (sensorRead x0 x1 x2).Ok q n := by
  unfold sensorRead
  repeat' first | (with_reducible first | assumption | apply sensorFail_ok | apply State.w_ok | apply onPwr_ok) | split

theorem sensorApart_ok {x0 : Nat} {x1 : State} (h1 : x1.Ok q n) : (sensorApart x0 x1).Ok q n := by
  unfold sensorApart
  repeat' first
    | (with_reducible first | assumption | apply onPwr_ok | apply sensorFail_ok)
    | (extract_lets +onlyGivenNames t; (have hs : State.Ok q n t := ?_); on_goal 1 => (clear_value t; revert t; intro u hs))
    | (fail_if_no_progress extract_lets +onlyGivenNames u)
    | split

theorem swing_ok {x0 : Nat} {x1 : Int} {x2 : State} (h2 : x2.Ok q n) : (swing x0 x1 x2).Ok q n := by
  unfold swing
  repeat' first
    | (intro)
    | (with_reducible first | assumption | apply onRecm_ok | apply lifeAdd_ok | apply hf | apply hg | apply hk | apply hl
                            | apply hm)
    | (extract_lets +onlyGivenNames t; (have hs : State.Ok q n t := ?_); on_goal 1 => (clear_value t; revert t; intro u hs))
    | (extract_lets +onlyGivenNames t; (have hs : ∀ b a, State.Ok q n a → State.Ok q n (t b a) := ?_); on_goal 1 => (clear_value t; revert t; intro u hg))
    | (fail_if_no_progress extract_lets +onlyGivenNames u)
    | split

theorem lifeTemp_ok {x0 : Nat} {x1 : Int} {x2 : State} (h2 : x2.Ok q n) : (lifeTemp x0 x1 x2).Ok q n := by
  unfold lifeTemp
  repeat' first | (with_reducible first | assumption | apply onRecm_ok | apply setLife_ok | apply swing_ok) | split

theorem restage_ok {x0 : State} (h0 : x0.Ok q n) : (restage x0).Ok q n := by
  unfold restage
  repeat' first
    | (with_reducible first | assumption | apply State.w_ok | apply releaseBorrowed_ok)
    | (extract_lets +onlyGivenNames t; (have hs : State.Ok q n t := ?_); on_goal 1 => (clear_value t; revert t; intro u hs))
    | (fail_if_no_progress extract_lets +onlyGivenNames u)
    | split

theorem setRefuse_ok {x0 : Bool} {x1 : State} (h1 : x1.Ok q n) : (setRefuse x0 x1).Ok q n := by
  unfold setRefuse
  repeat' first
    | (unfold t; clear t)
    | (with_reducible first | assumption | apply event_ok | apply onPwr_ok | apply State.setF_ok | apply refuseStarts_ok)
    | (extract_lets +onlyGivenNames t; (have hs : State.Ok q n t := ?_); on_goal 1 => (clear_value t; revert t; intro u hs))
    | split

theorem setK_ok {x0 : Nat} {x1 : State} (h1 : x1.Ok q n) : (setK x0 x1).Ok q n := by
  unfold setK
  repeat' first | (with_reducible first | assumption | apply event_ok | apply State.w_ok) | split

theorem beginTicks_ok {x0 : Nat} {x1 : State} (h1 : x1.Ok q n) : (beginTicks x0 x1).Ok q n := by
  unfold beginTicks
  repeat' (with_reducible first | assumption | apply State.inc_ok | apply State.setF_ok | apply setK_ok | apply onPwr_ok)

theorem goCritical_ok {x0 : State} (h0 : x0.Ok q n) : (goCritical x0).Ok q n := by
  unfold goCritical
  repeat' first
    | (intro)
    | (with_reducible first | assumption | apply refuseStarts_ok | apply setK_ok | apply beginTicks_ok | apply event_ok
                            | apply State.inc_ok | apply onPwr_ok | apply State.setF_ok | apply planStop_ok | apply abandon_ok
                            | apply forAll_ok)
    | split

theorem portsOff_ok {x0 : State} (h0 : x0.Ok q n) : (portsOff x0).Ok q n := by
  unfold portsOff
  repeat' first | (intro) | (with_reducible first | assumption | apply shutPort_ok | apply forAll_ok)

theorem setShutPend_ok {x0 : Bool} {x1 : State} (h1 : x1.Ok q n) : (setShutPend x0 x1).Ok q n := by
  unfold setShutPend
  repeat' (with_reducible first | assumption | apply recWrite_ok | apply State.w_ok)

theorem shutdown_ok {x0 x1 x2 : Nat} {x3 : State} (h3 : x3.Ok q n) : (shutdown x0 x1 x2 x3).Ok q n := by
  unfold shutdown
  repeat' first
    | (with_reducible first | assumption | apply parkAll_ok | apply recWrite_ok | apply saveChain_ok | apply setShutPend_ok
                            | apply State.w_ok | apply lifeAdd_ok | apply event_ok | apply onPwr_ok | apply portsOff_ok)
    | (extract_lets +onlyGivenNames t; (have hs : State.Ok q n t := ?_); on_goal 1 => (clear_value t; revert t; intro u hs))
    | split

theorem stacksRead_ok {x0 : List (Nat × Option Int)} {x1 : State} (h1 : x1.Ok q n) : (stacksRead x0 x1).Ok q n := by
  unfold stacksRead
  repeat' first
    | (intro)
    | (with_reducible first | assumption | apply stackSamples_ok | apply onPwr_ok | apply lifeTemp_ok | apply Ok.foldl)
    | (extract_lets +onlyGivenNames t; (have hs : State.Ok q n t := ?_); on_goal 1 => (clear_value t; revert t; intro u hs))
    | split

theorem dieRead_ok {x0 : List (Nat × Option Int)} {x1 : State} (h1 : x1.Ok q n) : (dieRead x0 x1).Ok q n := by
  unfold dieRead
  repeat' first
    | (intro)
    | (unfold t; clear t)
    | (with_reducible first | assumption | apply sensorRead_ok | apply sensorApart_ok | apply takeTemp_ok | apply State.onGp_ok
                            | apply lifeTemp_ok | apply forAll_ok | apply Ok.foldl)
    | (extract_lets +onlyGivenNames t; (have hs : State.Ok q n t := ?_); on_goal 1 => (clear_value t; revert t; intro u hs))
    | split
    | fail_if_no_progress with_reducible apply Ok.parts

theorem throttle_ok {x0 : State} (h0 : x0.Ok q n) : (throttle x0).Ok q n := by
  unfold throttle
  repeat' first
    | (with_reducible first | assumption | apply State.w_ok | apply goCritical_ok | apply onPwr_ok | apply beginTicks_ok
                            | apply restage_ok)
    | split

theorem shutLimits_ok {x0 x1 : List (Nat × Option Int)} {x2 : State} (h2 : x2.Ok q n) : (shutLimits x0 x1 x2).Ok q n := by
  unfold shutLimits
  repeat' first | (with_reducible first | assumption | apply shutdown_ok) | split

theorem execThermalSample_ok {x0 x1 : List (Nat × Option Int)} {x2 : State} (h2 : x2.Ok q n) : OutOk q n (execThermalSample x0 x1 x2) := by
  unfold execThermalSample
  repeat' first
    | (unfold t; clear t)
    | (with_reducible first | assumption | apply OutOk.next | apply settle_ok | apply shutLimits_ok | apply throttle_ok
                            | apply dieRead_ok | apply stacksRead_ok)
    | split

theorem execDieTrip_ok {x0 : Fin 96} {x1 : State} (h1 : x1.Ok q n) : OutOk q n (execDieTrip x0 x1) := by
  unfold execDieTrip
  repeat' first | (with_reducible first | assumption | apply OutOk.next | apply settle_ok | apply shutdown_ok) | split

theorem throttleStep_ok {x0 : State} (h0 : x0.Ok q n) : (throttleStep x0).Ok q n := by
  unfold throttleStep
  repeat' first
    | (unfold t; clear t)
    | (with_reducible first | assumption | apply onPwr_ok | apply setK_ok | apply restage_ok | apply setRefuse_ok)
    | split

theorem execThrottleTick_ok {x0 : State} (h0 : x0.Ok q n) : OutOk q n (execThrottleTick x0) := by
  unfold execThrottleTick
  repeat' first | (with_reducible first | assumption | apply OutOk.next | apply throttleStep_ok) | split

theorem avsFail_ok {x0 : State} (h0 : x0.Ok q n) : (avsFail x0).Ok q n := by
  unfold avsFail
  repeat' first | (with_reducible first | assumption | apply event_ok | apply State.setF_ok) | split

theorem avsNack_ok {x0 : State} (h0 : x0.Ok q n) : (avsNack x0).Ok q n := by
  unfold avsNack
  repeat' (with_reducible first | assumption | apply faultEvent_ok | apply avsFail_ok)

theorem avsMargin_ok {x0 : Nat} {x1 : State} (h1 : x1.Ok q n) : (avsMargin x0 x1).Ok q n := by
  unfold avsMargin
  repeat' first
    | (unfold t; clear t)
    | (with_reducible first | assumption | apply onPwr_ok | apply State.w_ok | apply parkAll_ok)
    | (extract_lets +onlyGivenNames t; (have hs : State.Ok q n t := ?_); on_goal 1 => (clear_value t; revert t; intro u hs))
    | (fail_if_no_progress extract_lets +onlyGivenNames u)
    | split

theorem avsReading_ok {x0 : Bool} {x1 x2 x3 : Nat} {x4 : State} (h4 : x4.Ok q n) : (avsReading x0 x1 x2 x3 x4).Ok q n := by
  unfold avsReading
  repeat' first
    | (with_reducible first | assumption | apply onPwr_ok | apply avsNack_ok | apply avsFail_ok | apply State.w_ok | apply settle_ok
                            | apply restage_ok | apply avsMargin_ok)
    | split

theorem execAvsTick_ok {x0 : Bool} {x1 x2 x3 : Nat} {x4 : State} (h4 : x4.Ok q n) : OutOk q n (execAvsTick x0 x1 x2 x3 x4) := by
  unfold execAvsTick
  repeat' first | (with_reducible first | assumption | apply OutOk.next | apply avsReading_ok) | split

theorem execPmbusTimeout_ok {x0 : State} (h0 : x0.Ok q n) : OutOk q n (execPmbusTimeout x0) := by
  unfold execPmbusTimeout
  repeat' first | (with_reducible first | assumption | apply OutOk.next | apply avsNack_ok) | split

theorem domainReset_ok {x0 : RecMem} {x1 : State} (h1 : x1.Ok q n) : (domainReset x0 x1).Ok q n := by
  unfold domainReset
  repeat' first
    | (with_reducible first | assumption | apply State.w_ok | apply showKeys_ok)
    | exact resetMem_ok h1 rfl rfl rfl rfl
    | split

theorem glitch_ok {x0 : State} (h0 : x0.Ok q n) : (glitch x0).Ok q n := by
  unfold glitch
  repeat' (with_reducible first | assumption | apply State.inc_ok)

theorem beginStart_ok {x0 : State} (h0 : x0.Ok q n) : (beginStart x0).Ok q n := by
  unfold beginStart
  repeat' (with_reducible first | assumption | apply onPwr_ok)

theorem execPorstNAssert_ok {x0 : Nat} {x1 : State} (h1 : x1.Ok q n) : OutOk q n (execPorstNAssert x0 x1) := by
  unfold execPorstNAssert
  repeat' first
    | (with_reducible first | assumption | apply OutOk.next | apply glitch_ok | apply domainReset_ok | apply onPwr_ok)
    | split

theorem execPorstNRelease_ok {x0 : State} (h0 : x0.Ok q n) : OutOk q n (execPorstNRelease x0) := by
  unfold execPorstNRelease
  repeat' first
    | (with_reducible first | assumption | apply OutOk.next | apply beginStart_ok | apply lifeAdd_ok | apply domainReset_ok)
    | split

theorem failPark_ok {x0 : State} (h0 : x0.Ok q n) : (failPark x0).Ok q n := by
  unfold failPark
  repeat' first
    | (with_reducible first | assumption | apply parkAll_ok | apply saveChain_ok | apply State.w_ok)
    | (extract_lets +onlyGivenNames t; (have hs : State.Ok q n t := ?_); on_goal 1 => (clear_value t; revert t; intro u hs))
    | fail_if_no_progress with_reducible apply Ok.parts

theorem execWarmrstNAssert_ok {x0 : Nat} {x1 : State} (h1 : x1.Ok q n) : OutOk q n (execWarmrstNAssert x0 x1) := by
  unfold execWarmrstNAssert
  repeat' first
    | (with_reducible first | assumption | apply OutOk.next | apply glitch_ok | apply saveAnchor_ok | apply failPark_ok
                            | apply lifeAdd_ok | apply State.setF_ok | apply domainReset_ok | apply onPwr_ok)
    | (extract_lets +onlyGivenNames t; (have hs : State.Ok q n t := ?_); on_goal 1 => (clear_value t; revert t; intro u hs))
    | split

theorem execWarmrstNRelease_ok {x0 : State} (h0 : x0.Ok q n) : OutOk q n (execWarmrstNRelease x0) := by
  unfold execWarmrstNRelease
  repeat' first | (with_reducible first | assumption | apply OutOk.next | apply onPwr_ok | apply beginStart_ok) | split

theorem execPwrfailNAssert_ok {x0 : Nat} {x1 : State} (h1 : x1.Ok q n) : OutOk q n (execPwrfailNAssert x0 x1) := by
  unfold execPwrfailNAssert
  repeat' first
    | (with_reducible first | assumption | apply OutOk.next | apply glitch_ok | apply onPwr_ok | apply portsOff_ok | apply settle_ok
                            | apply failPark_ok | apply lifeAdd_ok)
    | split

theorem flushed_ok {x0 : List Nat} {x1 : State} (h1 : x1.Ok q n) : (flushed x0 x1).Ok q n := by
  unfold flushed
  repeat' first
    | (intro)
    | (unfold t; clear t)
    | (with_reducible first | assumption | apply saveAnchor_ok | apply flushLife_ok | apply copyFails_ok | apply State.w_ok
                            | apply flushJobs_ok | apply onPwr_ok | apply beginStart_ok | apply Ok.foldl)
    | (extract_lets +onlyGivenNames t; (have hs : State.Ok q n t := ?_); on_goal 1 => (clear_value t; revert t; intro u hs))
    | (fail_if_no_progress extract_lets +onlyGivenNames u)
    | split

theorem execFlushDone_ok {x0 : List Nat} {x1 : State} (h1 : x1.Ok q n) : OutOk q n (execFlushDone x0 x1) := by
  unfold execFlushDone
  repeat' first | (with_reducible first | assumption | apply OutOk.next | apply flushed_ok) | split

theorem bootFail_ok {x0 x1 : Nat} {x2 : State} (h2 : x2.Ok q n) : (bootFail x0 x1 x2).Ok q n := by
  unfold bootFail
  repeat' (with_reducible first | assumption | apply onPwr_ok | apply State.w_ok)

theorem bootStep_ok {x0 : Nat} {x1 : State} (h1 : x1.Ok q n) : (bootStep x0 x1).Ok q n := by
  unfold bootStep
  repeat' first
    | (with_reducible first | assumption | apply State.setF_ok | apply State.w_ok | apply measure_ok | apply bootFail_ok)
    | split

theorem execXspiTimeout_ok {x0 x1 : Nat} {x2 : State} (h2 : x2.Ok q n) : OutOk q n (execXspiTimeout x0 x1 x2) := by
  unfold execXspiTimeout
  repeat' first
    | (with_reducible first | assumption | apply OutOk.next | apply onPwr_ok)
    | (fail_if_no_progress extract_lets +onlyGivenNames u)
    | split

theorem fixUnits_ok {x0 : State} (h0 : x0.Ok q n) : (fixUnits x0).Ok q n := by
  unfold fixUnits
  repeat' first
    | (intro)
    | (with_reducible first | assumption | apply State.w_ok | apply hf | apply hg | apply hk | apply hl | apply hm)
    | (extract_lets +onlyGivenNames t; (have hs : ∀ b c d, State.Ok q n (t b c d) := ?_); on_goal 1 => (clear_value t; revert t; intro u hm))
    | split

theorem checkRecords_ok {x0 : State} (h0 : x0.Ok q n) : (checkRecords x0).Ok q n := by
  unfold checkRecords
  repeat' first | (intro) | (with_reducible first | assumption | apply event_ok | apply Ok.foldl) | split

theorem loadPatch_ok {x0 : List Byte} {x1 : State} (h1 : x1.Ok q n) : (loadPatch x0 x1).Ok q n := by
  unfold loadPatch
  repeat' first
    | (intro)
    | (with_reducible first | assumption | apply State.onSq_ok | apply State.w_ok | apply forAll_ok | apply Ok.foldl)

theorem patchStep_ok {x0 : State} (h0 : x0.Ok q n) : (patchStep x0).Ok q n := by
  unfold patchStep
  repeat' first
    | (intro)
    | (unfold t; clear t)
    | (with_reducible first | assumption | apply measure_ok | apply State.w_ok | apply onPwr_ok | apply State.setF_ok
                            | apply loadPatch_ok | apply hf | apply hg | apply hk | apply hl | apply hm)
    | (extract_lets +onlyGivenNames t; (have hs : State.Ok q n t := ?_); on_goal 1 => (clear_value t; revert t; intro u hs))
    | (extract_lets +onlyGivenNames t; (have hs : ∀ a, State.Ok q n a → State.Ok q n (t a) := ?_); on_goal 1 => (clear_value t; revert t; intro u hf))
    | (extract_lets +onlyGivenNames t; (have hs : ∀ b c d a, State.Ok q n a → State.Ok q n (t b c d a) := ?_); on_goal 1 => (clear_value t; revert t; intro u hl))
    | (fail_if_no_progress extract_lets +onlyGivenNames u)
    | split

theorem raiseOtp_ok {x0 : State} (h0 : x0.Ok q n) : (raiseOtp x0).Ok q n := by
  unfold raiseOtp
  repeat' first
    | (intro)
    | (unfold t; clear t)
    | (with_reducible first | assumption | apply measure_ok | apply State.w_ok | apply hf | apply hg | apply hk | apply hl
                            | apply hm | apply forAll_ok)
    | (extract_lets +onlyGivenNames t; (have hs : State.Ok q n t := ?_); on_goal 1 => (clear_value t; revert t; intro u hs))
    | (extract_lets +onlyGivenNames t; (have hs : ∀ b a, State.Ok q n a → State.Ok q n (t b a) := ?_); on_goal 1 => (clear_value t; revert t; intro u hg))
    | (fail_if_no_progress extract_lets +onlyGivenNames u)
    | split
    | fail_if_no_progress with_reducible apply Ok.parts

theorem selfTested_ok {x0 x1 : Nat} {x2 : State} (h2 : x2.Ok q n) : (selfTested x0 x1 x2).Ok q n := by
  unfold selfTested
  repeat' (with_reducible first | assumption | apply State.fresh_ok | apply toService_ok | apply primerDone_ok)

theorem primerPhase_ok {x0 : Nat} {x1 : State} (h1 : x1.Ok q n) : (primerPhase x0 x1).Ok q n := by
  unfold primerPhase
  repeat' first
    | (intro)
    | (with_reducible first | assumption | apply prime_ok | apply selfTested_ok | apply onPwr_ok | apply hf | apply hg | apply hk
                            | apply hl | apply hm | apply forAll_ok)
    | (extract_lets +onlyGivenNames t; (have hs : ∀ b a, State.Ok q n a → State.Ok q n (t b a) := ?_); on_goal 1 => (clear_value t; revert t; intro u hg))
    | split

theorem checkSets_ok {x0 : State} (h0 : x0.Ok q n) : (checkSets x0).Ok q n := by
  unfold checkSets
  repeat' first
    | (intro)
    | (with_reducible first | assumption | apply measure_ok | apply State.w_ok | apply event_ok | apply forAll_ok)
    | (fail_if_no_progress extract_lets +onlyGivenNames u)
    | split

theorem startKeys_ok {x0 : State} (h0 : x0.Ok q n) : (startKeys x0).Ok q n := by
  unfold startKeys
  repeat' first
    | (intro)
    | (unfold t; clear t)
    | (with_reducible first | assumption | apply lifeAdd_ok | apply putIdent_ok | apply putKey_ok | apply showKeys_ok
                            | apply Ok.foldl)
    | (extract_lets +onlyGivenNames t; (have hs : State.Ok q n t := ?_); on_goal 1 => (clear_value t; revert t; intro u hs))
    | split
    | fail_if_no_progress with_reducible apply Ok.parts

theorem startEpoch_ok {x0 : State} (h0 : x0.Ok q n) : (startEpoch x0).Ok q n := by
  unfold startEpoch
  repeat' first
    | (with_reducible first | assumption | apply lifeAdd_ok | apply saveEpoch_ok)
    | fail_if_no_progress with_reducible apply Ok.parts

theorem startLot_ok {x0 : State} (h0 : x0.Ok q n) : (startLot x0).Ok q n := by
  unfold startLot
  repeat' (with_reducible first | assumption | apply appendAll_ok | apply openLot_ok)

theorem phase5_ok {x0 : CalRaw} {x1 : State} (h1 : x1.Ok q n) : (phase5 x0 x1).Ok q n := by
  unfold phase5
  repeat' first
    | (unfold t; clear t)
    | (with_reducible first | assumption | apply calTdcx00_ok | apply State.setF_ok | apply checkGen_ok | apply startLot_ok
                            | apply startEpoch_ok | apply startKeys_ok | apply checkSets_ok)
    | split

theorem State.baseTry_ok {x0 : State} {x1 : Nat} (h0 : x0.Ok q n) : OptOk q n (State.baseTry x0 x1) := by
  unfold State.baseTry
  repeat' first
    | (with_reducible first | assumption | apply coatCheck_ok | apply applyBase_ok)
    | split
    | (with_reducible first | exact OptOk.non | apply OptOk.val | refine ExcOk.get (by assumption) ?_)

theorem phase6_ok {x0 : State} (h0 : x0.Ok q n) : (phase6 x0).Ok q n := by
  unfold phase6
  repeat' first | (with_reducible first | assumption | apply State.baseTry_ok) | apply orElse_ok | split

theorem phase7_ok {x0 : State} (h0 : x0.Ok q n) : (phase7 x0).Ok q n := by
  unfold phase7
  repeat' first
    | (with_reducible first | assumption | apply enablePort_ok | apply onPwr_ok | apply lifeAdd_ok | apply State.setF_ok
                            | apply forAll_ok)
    | (extract_lets +onlyGivenNames t; (have hs : State.Ok q n t := ?_); on_goal 1 => (clear_value t; revert t; intro u hs))
    | split

theorem nextPhase_ok {x0 : State} (h0 : x0.Ok q n) : (nextPhase x0).Ok q n := by
  unfold nextPhase
  repeat' first | (with_reducible first | assumption | apply onPwr_ok) | split

theorem endPhase_ok {x0 : List (Nat × Option Int)} {x1 : Nat} {x2 : Option (Fin 128 × Nat)} {x3 : CalRaw} {x4 : Nat} {x5 : State} (h5 : x5.Ok q n) : (endPhase x0 x1 x2 x3 x4 x5).Ok q n := by
  unfold endPhase
  repeat' first
    | (unfold t; clear t)
    | (with_reducible first | assumption | apply nextPhase_ok | apply bootStep_ok | apply checkRecords_ok | apply fixUnits_ok
                            | apply raiseOtp_ok | apply patchStep_ok | apply primerPhase_ok | apply sampleDue_ok | apply dieRead_ok
                            | apply trainVcm_ok | apply phase5_ok | apply phase6_ok | apply phase7_ok)
    | split

theorem execStartPhaseEnd_ok {x0 : List (Nat × Option Int)} {x1 : Nat} {x2 : Option (Fin 128 × Nat)} {x3 : CalRaw} {x4 : State} (h4 : x4.Ok q n) : OutOk q n (execStartPhaseEnd x0 x1 x2 x3 x4) := by
  unfold execStartPhaseEnd
  repeat' first | (with_reducible first | assumption | apply OutOk.next | apply endPhase_ok) | split

theorem execThmConfig_ok {x0 : Desc} {x1 : State} (h1 : x1.Ok q n) : OutOk q n (execThmConfig x0 x1) := by
  unfold execThmConfig
  repeat' first
    | (intro)
    | (with_reducible first | assumption | apply OutOk.next | apply runCmd_ok | apply checked_ok | apply restage_ok
                            | apply State.w_ok)

theorem execThmRead_ok {x0 : Desc} {x1 : State} (h1 : x1.Ok q n) : OutOk q n (execThmRead x0 x1) := by
  unfold execThmRead
  repeat' first | (intro) | (with_reducible first | assumption | apply OutOk.next | apply runCmd_ok | apply State.winStore_ok)

theorem execThmShutrec_ok {x0 : Desc} {x1 : State} (h1 : x1.Ok q n) : OutOk q n (execThmShutrec x0 x1) := by
  unfold execThmShutrec
  repeat' first | (intro) | (with_reducible first | assumption | apply OutOk.next | apply runCmd_ok | apply State.winStore_ok)

theorem execSysAckShutdown_ok {x0 : Desc} {x1 : State} (h1 : x1.Ok q n) : OutOk q n (execSysAckShutdown x0 x1) := by
  unfold execSysAckShutdown
  repeat' first
    | (intro)
    | (with_reducible first | assumption | apply OutOk.next | apply runCmd_ok | apply checked_ok | apply setShutPend_ok)

end Sys2Proof.Machine
end

