-- ==== Sys2Proof/Laws/KeepTwin.lean ====
section
/-! SUPPORT. What flysheet pairing keeps: the canonical form of memories and registers, the queue and the time. -/

namespace Sys2Proof.Machine
variable {q : List Instr} {n : Nat}

theorem onTwin_ok {x0 : Twin → Twin} {x1 : State} (h1 : x1.Ok q n) : (onTwin x0 x1).Ok q n := by
  unfold onTwin
  repeat' first | with_reducible assumption | fail_if_no_progress with_reducible apply Ok.parts

theorem setTw_ok {x0 : Nat} {x1 : State} (h1 : x1.Ok q n) : (setTw x0 x1).Ok q n := by
  unfold setTw
  repeat' (with_reducible first | assumption | apply State.w_ok)

theorem sendTwin_ok {x0 : Nat} {x1 : List Byte} {x2 : State} (h2 : x2.Ok q n) : (sendTwin x0 x1 x2).Ok q n := by
  unfold sendTwin
  repeat' first | (intro) | (with_reducible first | assumption | apply State.send_ok | apply Ok.foldl)

theorem sendPair_ok {x0 : Nat} {x1 : Bool} {x2 : State} (h2 : x2.Ok q n) : (sendPair x0 x1 x2).Ok q n := by
  unfold sendPair
  repeat' (with_reducible first | assumption | apply sendTwin_ok)

theorem viewChanges_ok {x0 : State} (h0 : x0.Ok q n) : (viewChanges x0).Ok q n := by
  unfold viewChanges
  repeat' first
    | (intro)
    | (with_reducible first | assumption | apply mirror_ok | apply onTwin_ok | apply Ok.foldl)
    | (extract_lets +onlyGivenNames t; (have hs : State.Ok q n t := ?_); on_goal 1 => (clear_value t; revert t; intro u hs))
    | split

theorem sendMirror_ok {x0 : State} (h0 : x0.Ok q n) : (sendMirror x0).Ok q n := by
  unfold sendMirror
  repeat' first
    | (with_reducible first | assumption | apply sendTwin_ok | apply onTwin_ok)
    | (fail_if_no_progress extract_lets +onlyGivenNames u)
    | split

theorem stopWaiting_ok {x0 : State} (h0 : x0.Ok q n) : (stopWaiting x0).Ok q n := by
  unfold stopWaiting
  repeat' first
    | (intro)
    | (with_reducible first | assumption | apply mirrorMb_ok | apply writeCpl_ok | apply appendAll_ok | apply onTwin_ok
                            | apply Ok.foldl)
    | split

theorem unpair_ok {x0 : State} (h0 : x0.Ok q n) : (unpair x0).Ok q n := by
  unfold unpair
  repeat' first
    | (with_reducible first | assumption | apply setTw_ok | apply stopWaiting_ok | apply shutPort_ok | apply onTwin_ok)
    | split

theorem pairFails_ok {x0 x1 : Nat} {x2 : State} (h2 : x2.Ok q n) : (pairFails x0 x1 x2).Ok q n := by
  unfold pairFails
  repeat' first
    | (with_reducible first | assumption | apply complete_ok | apply unpair_ok)
    | split
    | fail_if_no_progress with_reducible apply Ok.parts

theorem twinGo_ok {x0 : State} (h0 : x0.Ok q n) : (twinGo x0).Ok q n := by
  unfold twinGo
  repeat' first
    | (unfold t; clear t)
    | (with_reducible first | assumption | apply onTwin_ok | apply sendPair_ok | apply sendTwin_ok | apply setTw_ok | apply event_ok
                            | apply complete_ok)
    | (extract_lets +onlyGivenNames t; (have hs : State.Ok q n t := ?_); on_goal 1 => (clear_value t; revert t; intro u hs))
    | (fail_if_no_progress extract_lets +onlyGivenNames u)
    | split
    | fail_if_no_progress with_reducible apply Ok.parts

theorem queueImage_ok {x0 : State} (h0 : x0.Ok q n) : (queueImage x0).Ok q n := by
  unfold queueImage
  repeat' (with_reducible first | assumption | apply mirrorMb_ok | apply viewChanges_ok | apply mirror_ok | apply forAll_ok)

theorem beginPair_ok {x0 : Desc} {x1 : State} (h1 : x1.Ok q n) : (beginPair x0 x1).Ok q n := by
  unfold beginPair
  repeat' first
    | (with_reducible first | assumption | apply State.w_ok | apply setTw_ok | apply onTwin_ok | apply enablePort_ok
                            | apply queueImage_ok | apply sendPair_ok)
    | fail_if_no_progress with_reducible apply Ok.parts

theorem execTwinPair_ok {x0 : Desc} {x1 : State} (h1 : x1.Ok q n) : OutOk q n (execTwinPair x0 x1) := by
  unfold execTwinPair
  repeat' first
    | (intro)
    | (with_reducible first | assumption | apply OutOk.next | apply runCmd_ok | apply checked_ok | apply beginPair_ok)

theorem execTwinPairTimeout_ok {x0 : State} (h0 : x0.Ok q n) : OutOk q n (execTwinPairTimeout x0) := by
  unfold execTwinPairTimeout
  repeat' first | (with_reducible first | assumption | apply OutOk.next | apply pairFails_ok) | split

theorem execTwinUnpair_ok {x0 : Desc} {x1 : State} (h1 : x1.Ok q n) : OutOk q n (execTwinUnpair x0 x1) := by
  unfold execTwinUnpair
  repeat' first
    | (intro)
    | (with_reducible first | assumption | apply OutOk.next | apply runCmd_ok | apply checked_ok | apply unpair_ok
                            | apply State.w_ok | apply pairFails_ok | apply sendPair_ok | apply forAll_ok)
    | split

theorem execTwinStatus_ok {x0 : Desc} {x1 : State} (h1 : x1.Ok q n) : OutOk q n (execTwinStatus x0 x1) := by
  unfold execTwinStatus
  repeat' first | (intro) | (with_reducible first | assumption | apply OutOk.next | apply runCmd_ok | apply State.winStore_ok)

theorem storeItem_ok {x0 : MirrorItem} {x1 : State} (h1 : x1.Ok q n) : OptOk q n (storeItem x0 x1) := by
  unfold storeItem
  repeat' first
    | (with_reducible first | assumption | apply onTwin_ok | apply State.storeN_ok | apply State.ringPut_ok | apply State.w_ok)
    | (extract_lets +onlyGivenNames t; (have hs : State.Ok q n t := ?_); on_goal 1 => (clear_value t; revert t; intro u hs))
    | (fail_if_no_progress extract_lets +onlyGivenNames u)
    | split
    | (with_reducible first | exact OptOk.non | apply OptOk.val | refine Ok.fst (by assumption) ?_)

theorem storeItems_ok {x0 : List MirrorItem} {x1 : State} {x2 : Nat} (h1 : x1.Ok q n) : (storeItems x0 x1 x2).1.Ok q n := by
  induction x0 generalizing x1 x2 with
  | nil =>
    unfold storeItems
    repeat' first
      | (with_reducible first | assumption | apply ih | apply storeItem_ok)
      | split
      | with_reducible refine OptOk.get (by assumption) ?_
  | cons b r ih =>
    unfold storeItems
    repeat' first
      | (with_reducible first | assumption | apply ih | apply storeItem_ok)
      | split
      | with_reducible refine OptOk.get (by assumption) ?_

theorem takeItems_ok {x0 : List MirrorItem} {x1 : State} (h1 : x1.Ok q n) : (takeItems x0 x1).Ok q n := by
  unfold takeItems
  repeat' first
    | (unfold t; clear t)
    | (with_reducible first | assumption | apply storeItems_ok | apply onTwin_ok | apply sendTwin_ok)
    | (extract_lets +onlyGivenNames t; (have hs : State.Ok q n t := ?_); on_goal 1 => (clear_value t; revert t; intro u hs))
    | split
    | with_reducible refine Ok.fst (by assumption) ?_

theorem execMirror_ok {x0 : List MirrorItem} {x1 : State} (h1 : x1.Ok q n) : OutOk q n (execMirror x0 x1) := by
  unfold execMirror
  repeat' first | (with_reducible first | assumption | apply OutOk.next | apply takeItems_ok) | split

theorem ackItems_ok {x0 : Nat} {x1 : State} (h1 : x1.Ok q n) : (ackItems x0 x1).Ok q n := by
  unfold ackItems
  repeat' first
    | (intro)
    | (with_reducible first | assumption | apply State.hi_ok | apply onTwin_ok | apply mirrorMb_ok | apply writeCpl_ok
                            | apply twinGo_ok | apply sendMirror_ok | apply appendAll_ok | apply Ok.foldl)
    | split

theorem execMirrorAck_ok {x0 : Nat} {x1 : State} (h1 : x1.Ok q n) : OutOk q n (execMirrorAck x0 x1) := by
  unfold execMirrorAck
  repeat' first
    | (with_reducible first | assumption | apply OutOk.next | apply ackItems_ok)
    | (fail_if_no_progress extract_lets +onlyGivenNames u)
    | split

theorem execPair_ok {x0 : Nat} {x1 x2 : Bool} {x3 : List (Nat × Nat)} {x4 : Bool} {x5 : State} (h5 : x5.Ok q n) : OutOk q n (execPair x0 x1 x2 x3 x4 x5) := by
  unfold execPair
  repeat' first
    | (with_reducible first | assumption | apply OutOk.next | apply unpair_ok | apply pairFails_ok | apply twinGo_ok
                            | apply onTwin_ok)
    | split

theorem execSyncDone_ok {x0 : State} (h0 : x0.Ok q n) : OutOk q n (execSyncDone x0) := by
  unfold execSyncDone
  repeat' first | (with_reducible first | assumption | apply OutOk.next | apply twinGo_ok | apply onTwin_ok) | split

theorem takeRecord_ok {x0 x1 x2 x3 : Nat} {x4 : State} (h4 : x4.Ok q n) : (takeRecord x0 x1 x2 x3 x4).Ok q n := by
  unfold takeRecord
  repeat' (with_reducible first | assumption | apply recWrite_ok)

theorem takeChain_ok {x0 : State} (h0 : x0.Ok q n) : (takeChain x0).Ok q n := by
  unfold takeChain
  repeat' first | (intro) | (with_reducible first | assumption | apply onTwin_ok | apply partnerAppend_ok | apply Ok.foldl) | split

theorem takeMailbox_ok {x0 : Nat} {x1 : State} (h1 : x1.Ok q n) : (takeMailbox x0 x1).Ok q n := by
  unfold takeMailbox
  repeat' first
    | (with_reducible first | assumption | apply State.w_ok | apply State.wImg_ok)
    | (extract_lets +onlyGivenNames t; (have hs : State.Ok q n t := ?_); on_goal 1 => (clear_value t; revert t; intro u hs))
    | (fail_if_no_progress extract_lets +onlyGivenNames u)
    | split

theorem takeJournal_ok {x0 : Journal} {x1 : State} (h1 : x1.Ok q n) : (takeJournal x0 x1).Ok q n := by
  unfold takeJournal
  repeat' first
    | (intro)
    | (with_reducible first | assumption | apply complete_ok | apply State.send_ok | apply forAll_ok)
    | (extract_lets +onlyGivenNames t; (have hs : State.Ok q n t := ?_); on_goal 1 => (clear_value t; revert t; intro u hs))
    | split

theorem takeover_ok {x0 : Nat} {x1 : State} (h1 : x1.Ok q n) : (takeover x0 x1).Ok q n := by
  unfold takeover
  repeat' first
    | (intro)
    | (with_reducible first | assumption | apply stopWaiting_ok | apply setTw_ok | apply onTwin_ok | apply takeChain_ok
                            | apply appendAll_ok | apply take_ok | apply takeMailbox_ok | apply takeJournal_ok | apply takeRecord_ok
                            | apply event_ok | apply State.setF_ok | apply askPartnerSeal_ok | apply askFlush_ok | apply forAll_ok
                            | apply Ok.foldl)

theorem separate_ok {x0 : State} (h0 : x0.Ok q n) : (separate x0).Ok q n := by
  unfold separate
  repeat' (with_reducible first | assumption | apply stopWaiting_ok | apply setTw_ok | apply askFlush_ok | apply event_ok | apply State.setF_ok)

theorem suspect_ok {x0 : State} (h0 : x0.Ok q n) : (suspect x0).Ok q n := by
  unfold suspect
  repeat' first
    | (with_reducible first | assumption | apply setTw_ok | apply takeover_ok | apply separate_ok)
    | (extract_lets +onlyGivenNames t; (have hs : State.Ok q n t := ?_); on_goal 1 => (clear_value t; revert t; intro u hs))
    | split

theorem sendBeat_ok {x0 : State} (h0 : x0.Ok q n) : (sendBeat x0).Ok q n := by
  unfold sendBeat
  repeat' (with_reducible first | assumption | apply sendTwin_ok | apply onTwin_ok)

theorem execHeartbeatSend_ok {x0 : State} (h0 : x0.Ok q n) : OutOk q n (execHeartbeatSend x0) := by
  unfold execHeartbeatSend
  repeat' first | (with_reducible first | assumption | apply OutOk.next | apply sendBeat_ok) | split

theorem execHeartbeat_ok {x0 x1 : Nat} {x2 : State} (h2 : x2.Ok q n) : OutOk q n (execHeartbeat x0 x1 x2) := by
  unfold execHeartbeat
  repeat' first
    | (with_reducible first | assumption | apply OutOk.next | apply onTwin_ok | apply twinGo_ok | apply sendMirror_ok
                            | apply setTw_ok | apply hf | apply hg | apply hk | apply hl | apply hm)
    | (extract_lets +onlyGivenNames t; (have hs : ∀ a, State.Ok q n a → State.Ok q n (t a) := ?_); on_goal 1 => (clear_value t; revert t; intro u hf))
    | split

theorem execHeartbeatMiss_ok {x0 : State} (h0 : x0.Ok q n) : OutOk q n (execHeartbeatMiss x0) := by
  unfold execHeartbeatMiss
  repeat' first
    | (with_reducible first | assumption | apply OutOk.next | apply faultEvent_ok | apply suspect_ok | apply onTwin_ok
                            | apply State.inc_ok)
    | split

theorem execFailing_ok {x0 : State} (h0 : x0.Ok q n) : OutOk q n (execFailing x0) := by
  unfold execFailing
  repeat' first | (with_reducible first | assumption | apply OutOk.next | apply takeover_ok) | split

theorem lineLost_ok {x0 : Bool} {x1 : State} (h1 : x1.Ok q n) : (lineLost x0 x1).Ok q n := by
  unfold lineLost
  repeat' first
    | (with_reducible first | assumption | apply State.w_ok | apply onTwin_ok)
    | (extract_lets +onlyGivenNames t; (have hs : State.Ok q n t := ?_); on_goal 1 => (clear_value t; revert t; intro u hs))
    | (fail_if_no_progress extract_lets +onlyGivenNames u)
    | split

theorem execTwinAliveTimeout_ok {x0 : Bool} {x1 : State} (h1 : x1.Ok q n) : OutOk q n (execTwinAliveTimeout x0 x1) := by
  unfold execTwinAliveTimeout
  repeat' first
    | (with_reducible first | assumption | apply OutOk.next | apply lineLost_ok | apply takeover_ok)
    | (extract_lets +onlyGivenNames t; (have hs : State.Ok q n t := ?_); on_goal 1 => (clear_value t; revert t; intro u hs))
    | split

theorem sideEvent_ok {x0 : State} (h0 : x0.Ok q n) : (sideEvent x0).Ok q n := by
  unfold sideEvent
  repeat' first | (intro) | (with_reducible first | assumption | apply faultEvent_ok | apply State.setF_ok)

theorem execTwinAliveRange_ok {x0 : State} (h0 : x0.Ok q n) : OutOk q n (execTwinAliveRange x0) := by
  unfold execTwinAliveRange
  repeat' first | (with_reducible first | assumption | apply OutOk.next | apply sideEvent_ok) | split

theorem execTwinAliveReturn_ok {x0 : State} (h0 : x0.Ok q n) : OutOk q n (execTwinAliveReturn x0) := by
  unfold execTwinAliveReturn
  repeat' (with_reducible first | assumption | apply OutOk.next | apply onTwin_ok | apply State.w_ok)

theorem execSidebandTimeout_ok {x0 : State} (h0 : x0.Ok q n) : OutOk q n (execSidebandTimeout x0) := by
  unfold execSidebandTimeout
  repeat' first
    | (with_reducible first | assumption | apply OutOk.next | apply event_ok | apply sideEvent_ok | apply onTwin_ok)
    | split

theorem execInternalFault_ok {x0 : Nat} {x1 : State} (h1 : x1.Ok q n) : OutOk q n (execInternalFault x0 x1) := by
  unfold execInternalFault
  repeat' first
    | (with_reducible first | assumption | apply OutOk.next | apply settle_ok | apply parkChans_ok | apply takeRecord_ok
                            | apply sendTwin_ok | apply onTwin_ok)
    | (extract_lets +onlyGivenNames t; (have hs : State.Ok q n t := ?_); on_goal 1 => (clear_value t; revert t; intro u hs))
    | split

end Sys2Proof.Machine
end

