-- ==== Sys2Proof/Laws/KeepAccess.lean ====
section
/-! SUPPORT. What accesses from outside keep: the canonical form of memories and registers, the queue and the time. -/

namespace Sys2Proof.Machine
variable {q : List Instr} {n : Nat}

theorem finishMrd_ok {x0 : Nat} {x1 : Txn} {x2 : Nat} {x3 : List Byte} {x4 : State} (h4 : x4.Ok q n) : (finishMrd x0 x1 x2 x3 x4).Ok q n := by
  unfold finishMrd
  repeat' (with_reducible first | assumption | apply State.send_ok | apply releaseCr_ok)

theorem readMem_ok {x0 : Nat} {x1 : Fin 12} {x2 : Txn} {x3 : State} (h3 : x3.Ok q n) : (readMem x0 x1 x2 x3).Ok q n := by
  unfold readMem
  repeat' first | (intro) | (with_reducible first | assumption | apply poolFault_ok | apply finishMrd_ok | apply forAll_ok) | split

theorem mrdIn_ok {x0 : Fin 12} {x1 : Txn} {x2 : Nat} {x3 : State} (h3 : x3.Ok q n) : (mrdIn x0 x1 x2 x3).Ok q n := by
  unfold mrdIn
  repeat' first
    | (with_reducible first | assumption | apply finishMrd_ok | apply State.inc_ok | apply csrRead_ok | apply State.onLp_ok
                            | apply readMem_ok)
    | (extract_lets +onlyGivenNames t; (have hs : State.Ok q n t.2 := ?_); on_goal 1 => (clear_value t; revert t; intro u hs))
    | (fail_if_no_progress extract_lets +onlyGivenNames u)
    | split

theorem execMrd_ok {x0 : Fin 12} {x1 : Txn} {x2 : Nat} {x3 : State} (h3 : x3.Ok q n) : OutOk q n (execMrd x0 x1 x2 x3) := by
  unfold execMrd
  repeat' first | (with_reducible first | assumption | apply OutOk.next | apply endStream_ok | apply mrdIn_ok) | split

theorem execMrdTimeout_ok {x0 : Fin 12} {x1 : Nat} {x2 : State} (h2 : x2.Ok q n) : OutOk q n (execMrdTimeout x0 x1 x2) := by
  unfold execMrdTimeout
  repeat' first
    | (with_reducible first | assumption | apply OutOk.next | apply finishMrd_ok | apply State.onLp_ok)
    | (fail_if_no_progress extract_lets +onlyGivenNames u)
    | split

theorem execCpl_ok {x0 : Fin 12} {x1 : Txn} {x2 : List Byte} {x3 : State} (h3 : x3.Ok q n) : OutOk q n (execCpl x0 x1 x2 x3) := by
  unfold execCpl
  repeat' first | (with_reducible first | assumption | apply OutOk.next | apply endStream_ok) | split

theorem writeIn_ok {x0 : Fin 12} {x1 : Txn} {x2 : List Byte} {x3 : State} (h3 : x3.Ok q n) : (writeIn x0 x1 x2 x3).Ok q n := by
  unfold writeIn
  repeat' first | (with_reducible first | assumption | apply State.inc_ok | apply csrWrite_ok | apply State.winStore_ok) | split

theorem mwrIn_ok {x0 : Fin 12} {x1 : Txn} {x2 : List Byte} {x3 : State} (h3 : x3.Ok q n) : (mwrIn x0 x1 x2 x3).Ok q n := by
  unfold mwrIn
  repeat' (with_reducible first | assumption | apply releaseCr_ok | apply writeIn_ok)

theorem execMwr_ok {x0 : Fin 12} {x1 : Txn} {x2 : List Byte} {x3 : State} (h3 : x3.Ok q n) : OutOk q n (execMwr x0 x1 x2 x3) := by
  unfold execMwr
  repeat' first | (with_reducible first | assumption | apply OutOk.next | apply endStream_ok | apply mwrIn_ok) | split

theorem postMsg_ok {x0 : Nat} {x1 : Txn} {x2 : State} (h2 : x2.Ok q n) : (postMsg x0 x1 x2).Ok q n := by
  unfold postMsg
  repeat' first | (with_reducible first | assumption | apply post_ok) | split

theorem msgIn_ok {x0 : Nat} {x1 : Txn} {x2 : List Byte} {x3 : State} (h3 : x3.Ok q n) : (msgIn x0 x1 x2 x3).Ok q n := by
  unfold msgIn
  repeat' first
    | (with_reducible first | assumption | apply releaseCr_ok | apply State.inc_ok | apply postMsg_ok)
    | (extract_lets +onlyGivenNames t; (have hs : State.Ok q n t := ?_); on_goal 1 => (clear_value t; revert t; intro u hs))
    | (fail_if_no_progress extract_lets +onlyGivenNames u)
    | split

theorem execMsg_ok {x0 : Fin 12} {x1 : Txn} {x2 : List Byte} {x3 : State} (h3 : x3.Ok q n) : OutOk q n (execMsg x0 x1 x2 x3) := by
  unfold execMsg
  repeat' first | (with_reducible first | assumption | apply OutOk.next | apply endStream_ok | apply msgIn_ok) | split

theorem sendReport_ok {x0 x1 x2 x3 : Nat} {x4 : State} (h4 : x4.Ok q n) : (sendReport x0 x1 x2 x3 x4).Ok q n := by
  unfold sendReport
  repeat' first | (with_reducible first | assumption | apply State.send_ok) | split

theorem confirmStart_ok {x0 : StartNow} {x1 : State} (h1 : x1.Ok q n) : (confirmStart x0 x1).Ok q n := by
  unfold confirmStart
  repeat' first
    | (unfold t; clear t)
    | (with_reducible first | assumption | apply confirmPitches_ok | apply complete_ok | apply sendReport_ok)
    | (extract_lets +onlyGivenNames t; (have hs : State.Ok q n t := ?_); on_goal 1 => (clear_value t; revert t; intro u hs))
    | split
    | fail_if_no_progress with_reducible apply Ok.parts

theorem startAt_ok {x0 x1 x2 x3 x4 x5 : Nat} {x6 : State} (h6 : x6.Ok q n) : (startAt x0 x1 x2 x3 x4 x5 x6).Ok q n := by
  unfold startAt
  repeat' first
    | (intro)
    | (unfold t; clear t)
    | (with_reducible first | assumption | apply State.send_ok | apply startPitches_ok | apply sendReport_ok | apply Ok.foldl)
    | (extract_lets +onlyGivenNames t; (have hs : State.Ok q n t := ?_); on_goal 1 => (clear_value t; revert t; intro u hs))
    | (extract_lets +onlyGivenNames t; (have hs : State.Ok q n t.1 := ?_); on_goal 1 => (clear_value t; revert t; intro u hs))
    | (fail_if_no_progress extract_lets +onlyGivenNames u)
    | split
    | fail_if_no_progress with_reducible apply Ok.parts

theorem execStartAt_ok {x0 : Fin 12} {x1 x2 x3 x4 x5 : Nat} {x6 : State} (h6 : x6.Ok q n) : OutOk q n (execStartAt x0 x1 x2 x3 x4 x5 x6) := by
  unfold execStartAt
  repeat' first
    | (unfold t; clear t)
    | (with_reducible first | assumption | apply OutOk.next | apply startAt_ok)
    | (fail_if_no_progress extract_lets +onlyGivenNames u)
    | split

theorem execI3cWrite_ok {x0 : Nat} {x1 : List Byte} {x2 : State} (h2 : x2.Ok q n) : OutOk q n (execI3cWrite x0 x1 x2) := by
  unfold execI3cWrite
  repeat' first | (with_reducible first | assumption | apply OutOk.next | apply csrWrite_ok) | split

theorem execI3cPointer_ok {x0 : Nat} {x1 : State} (h1 : x1.Ok q n) : OutOk q n (execI3cPointer x0 x1) := by
  unfold execI3cPointer
  repeat' first | (with_reducible first | assumption | apply OutOk.next) | split | fail_if_no_progress with_reducible apply Ok.parts

theorem execEmergencyPark_ok {x0 : State} (h0 : x0.Ok q n) : OutOk q n (execEmergencyPark x0) := by
  unfold execEmergencyPark
  repeat' (with_reducible first | assumption | apply OutOk.next | apply settle_ok | apply parkAll_ok)

theorem execI3cTimeout_ok {x0 : State} (h0 : x0.Ok q n) : OutOk q n (execI3cTimeout x0) := by
  unfold execI3cTimeout
  repeat' (with_reducible first | assumption | apply OutOk.next)

theorem execJtagInstruction_ok {x0 : Jtag} {x1 : State} (h1 : x1.Ok q n) : OutOk q n (execJtagInstruction x0 x1) := by
  unfold execJtagInstruction
  repeat' first | (with_reducible first | assumption | apply OutOk.next) | fail_if_no_progress with_reducible apply Ok.parts

end Sys2Proof.Machine
end

