-- ==== Sys2Proof/Laws/KeepWire.lean ====
section
/-! SUPPORT. What frames and code words keep: the canonical form of memories and registers, the queue and the time. -/

namespace Sys2Proof.Machine
variable {q : List Instr} {n : Nat}

theorem ctrlIn_ok {x0 x1 : Nat} {x2 : State} (h2 : x2.Ok q n) : (ctrlIn x0 x1 x2).Ok q n := by
  unfold ctrlIn
  repeat' first
    | (with_reducible first | assumption | apply nakIn_ok | apply creditIn_ok | apply restripeIn_ok | apply restripeAckIn_ok
                            | apply idleReqIn_ok | apply idleAckIn_ok | apply idleNakIn_ok | apply soakIn_ok | apply wakeTxIn_ok)
    | split

theorem packetIn_ok {x0 : Fin 12} {x1 : Txn} {x2 : List Byte} {x3 : State} (h3 : x3.Ok q n) : (packetIn x0 x1 x2 x3).Ok q n := by
  unfold packetIn
  repeat' first | (with_reducible first | assumption | apply mrdIn_ok | apply mwrIn_ok | apply msgIn_ok) | split

theorem streamIn_ok {x0 : Fin 12} {x1 : Nat} {x2 : State} (h2 : x2.Ok q n) : (streamIn x0 x1 x2).Ok q n := by
  induction x1 generalizing x0 x2 with
  | zero =>
    unfold streamIn
    repeat' first
      | (with_reducible first | assumption | apply ih | apply packetIn_ok | apply State.onLp_ok | apply endStream_ok)
      | (fail_if_no_progress extract_lets +onlyGivenNames u)
      | split
  | succ k ih =>
    unfold streamIn
    repeat' first
      | (with_reducible first | assumption | apply ih | apply packetIn_ok | apply State.onLp_ok | apply endStream_ok)
      | (fail_if_no_progress extract_lets +onlyGivenNames u)
      | split

theorem acceptFrame_ok {x0 : Fin 12} {x1 : Frame} {x2 : State} (h2 : x2.Ok q n) : (acceptFrame x0 x1 x2).Ok q n := by
  unfold acceptFrame
  repeat' (with_reducible first | assumption | apply dropWord_ok | apply State.onLp_ok | apply streamIn_ok)

theorem dataIn_ok {x0 : Fin 12} {x1 : Frame} {x2 : State} (h2 : x2.Ok q n) : (dataIn x0 x1 x2).Ok q n := by
  unfold dataIn
  repeat' first
    | (with_reducible first | assumption | apply acceptFrame_ok | apply sendNak_ok | apply State.onLp_ok)
    | (fail_if_no_progress extract_lets +onlyGivenNames u)
    | split

theorem frameIn_ok {x0 : Fin 12} {x1 : Frame} {x2 : State} (h2 : x2.Ok q n) : (frameIn x0 x1 x2).Ok q n := by
  unfold frameIn
  repeat' first
    | (intro)
    | (with_reducible first | assumption | apply badFrame_ok | apply ackBefore_ok | apply State.onLp_ok | apply dataIn_ok
                            | apply ctrlIn_ok | apply Ok.foldl)
    | (extract_lets +onlyGivenNames t; (have hs : State.Ok q n t := ?_); on_goal 1 => (clear_value t; revert t; intro u hs))
    | (fail_if_no_progress extract_lets +onlyGivenNames u)
    | split

theorem execFrameReceive_ok {x0 : Fin 12} {x1 : Frame} {x2 : State} (h2 : x2.Ok q n) : OutOk q n (execFrameReceive x0 x1 x2) := by
  unfold execFrameReceive
  repeat' (with_reducible first | assumption | apply OutOk.next | apply frameIn_ok)

theorem deliver_ok {x0 : Fin 12} {x1 : Nat} {x2 : State} (h2 : x2.Ok q n) : (deliver x0 x1 x2).Ok q n := by
  induction x1 generalizing x0 x2 with
  | zero =>
    unfold deliver
    repeat' first
      | (intro)
      | (with_reducible first | assumption | apply ih | apply frameIn_ok | apply State.onLp_ok | apply Ok.foldl)
      | (fail_if_no_progress extract_lets +onlyGivenNames u)
      | split
  | succ k ih =>
    unfold deliver
    repeat' first
      | (intro)
      | (with_reducible first | assumption | apply ih | apply frameIn_ok | apply State.onLp_ok | apply Ok.foldl)
      | (fail_if_no_progress extract_lets +onlyGivenNames u)
      | split

theorem codewordIn_ok {x0 : Fin 48} {x1 : Nat} {x2 : List Byte} {x3 x4 x5 : Bool} {x6 : State} (h6 : x6.Ok q n) : (codewordIn x0 x1 x2 x3 x4 x5 x6).Ok q n := by
  unfold codewordIn
  repeat' first
    | (unfold t; clear t)
    | (with_reducible first | assumption | apply State.onLn_ok | apply State.inc_ok | apply State.onLp_ok | apply deliver_ok
                            | apply laneLost_ok)
    | (extract_lets +onlyGivenNames t; (have hs : State.Ok q n t := ?_); on_goal 1 => (clear_value t; revert t; intro u hs))
    | (fail_if_no_progress extract_lets +onlyGivenNames u)
    | split

theorem execCodewordReceive_ok {x0 : Fin 48} {x1 : Nat} {x2 : List Byte} {x3 x4 x5 : Bool} {x6 : State} (h6 : x6.Ok q n) : OutOk q n (execCodewordReceive x0 x1 x2 x3 x4 x5 x6) := by
  unfold execCodewordReceive
  repeat' first | (with_reducible first | assumption | apply OutOk.next | apply codewordIn_ok) | split

end Sys2Proof.Machine
end

