-- ==== Sys2Proof/Laws/KeepTick.lean ====
section
/-! SUPPORT. What the passing of a core cycle keeps: the canonical form of memories and registers, the queue and the time. -/

namespace Sys2Proof.Machine
variable {q : List Instr} {n : Nat}

theorem beatTick_ok {x0 : State} (h0 : x0.Ok q n) : (beatTick x0).Ok q n := by
  unfold beatTick
  repeat' first | with_reducible assumption | split | fail_if_no_progress with_reducible apply Ok.parts

theorem scrubTick_ok {x0 : State} (h0 : x0.Ok q n) : (scrubTick x0).Ok q n := by
  unfold scrubTick
  repeat' first
    | (with_reducible first | assumption | apply State.inc_ok)
    | (extract_lets +onlyGivenNames t; (have hs : State.Ok q n t := ?_); on_goal 1 => (clear_value t; revert t; intro u hs))
    | split
    | fail_if_no_progress with_reducible apply Ok.parts

theorem serviceTick_ok {x0 : State} (h0 : x0.Ok q n) : (serviceTick x0).Ok q n := by
  unfold serviceTick
  repeat' first
    | (with_reducible first | assumption | apply partnerGo_ok | apply lotGo_ok | apply appendAll_ok | apply takeItems_ok
                            | apply sendMirror_ok | apply viewChanges_ok)
    | split

theorem lastingBits_ok {x0 : State} (h0 : x0.Ok q n) : (lastingBits x0).Ok q n := by
  unfold lastingBits
  repeat' first
    | (intro)
    | (unfold t; clear t)
    | (with_reducible first | assumption | apply State.w_ok | apply forAll_ok)
    | (extract_lets +onlyGivenNames t; (have hs : State.Ok q n t := ?_); on_goal 1 => (clear_value t; revert t; intro u hs))
    | split

theorem settleDispatch_ok {x0 : State} (h0 : x0.Ok q n) : (settleDispatch x0).Ok q n := by
  unfold settleDispatch
  repeat' first
    | (intro)
    | (with_reducible first | assumption | apply settleRefused_ok | apply readmit_ok | apply settleMailbox_ok | apply Ok.foldl)

theorem noteClocks_ok {x0 : State} (h0 : x0.Ok q n) : (noteClocks x0).Ok q n := by
  unfold noteClocks
  repeat' (with_reducible first | assumption | apply onCyc_ok)

end Sys2Proof.Machine
end

