-- ==== Sys2Proof/Laws/State.lean ====
section
/-! SUPPORT. What each update of the state leaves as it was, one lemma for each field and update, and what a register or a unit reads
after a write. -/

namespace Sys2Proof.Machine

variable (s : State)

/-! ## A register field -/

section
variable (f : Fld) (u v i : Nat)

@[simp] theorem State.w_pending : (s.w f u v i).pending = s.pending := rfl
@[simp] theorem State.w_now : (s.w f u v i).now = s.now := rfl
@[simp] theorem State.w_free : (s.w f u v i).free = s.free := rfl
@[simp] theorem State.w_mem : (s.w f u v i).mem = s.mem := rfl
@[simp] theorem State.w_chan : (s.w f u v i).chan = s.chan := rfl
@[simp] theorem State.w_grp : (s.w f u v i).grp = s.grp := rfl
@[simp] theorem State.w_pitch : (s.w f u v i).pitch = s.pitch := rfl
@[simp] theorem State.w_tdc : (s.w f u v i).tdc = s.tdc := rfl
@[simp] theorem State.w_meas : (s.w f u v i).meas = s.meas := rfl
@[simp] theorem State.w_ring : (s.w f u v i).ring = s.ring := rfl
@[simp] theorem State.w_lport : (s.w f u v i).lport = s.lport := rfl
@[simp] theorem State.w_lane : (s.w f u v i).lane = s.lane := rfl
@[simp] theorem State.w_vport : (s.w f u v i).vport = s.vport := rfl
@[simp] theorem State.w_vcm : (s.w f u v i).vcm = s.vcm := rfl
@[simp] theorem State.w_guy : (s.w f u v i).guy = s.guy := rfl
@[simp] theorem State.w_clk : (s.w f u v i).clk = s.clk := rfl
@[simp] theorem State.w_ptp : (s.w f u v i).ptp = s.ptp := rfl
@[simp] theorem State.w_mbox : (s.w f u v i).mbox = s.mbox := rfl
@[simp] theorem State.w_jobs : (s.w f u v i).jobs = s.jobs := rfl
@[simp] theorem State.w_disp : (s.w f u v i).disp = s.disp := rfl
@[simp] theorem State.w_sec : (s.w f u v i).sec = s.sec := rfl
@[simp] theorem State.w_pwr : (s.w f u v i).pwr = s.pwr := rfl
@[simp] theorem State.w_recm : (s.w f u v i).recm = s.recm := rfl
@[simp] theorem State.w_cal : (s.w f u v i).cal = s.cal := rfl
@[simp] theorem State.w_twin : (s.w f u v i).twin = s.twin := rfl
@[simp] theorem State.w_mark : (s.w f u v i).mark = s.mark := rfl
@[simp] theorem State.w_xtrig : (s.w f u v i).xtrig = s.xtrig := rfl
@[simp] theorem State.w_lines : (s.w f u v i).lines = s.lines := rfl
@[simp] theorem State.w_bus : (s.w f u v i).bus = s.bus := rfl
@[simp] theorem State.w_cyc : (s.w f u v i).cyc = s.cyc := rfl

end

/-- A field reads the value written to it, kept to its width. -/
@[simp] theorem State.r_w_self (f : Fld) (u v i : Nat) : (s.w f u v i).r f u i = v % 2 ^ f.width := rget_rset_self ..

/-- A write leaves every other field, unit and entry. -/
theorem State.r_w_key (f g : Fld) (u v i u' i' : Nat) (h : (⟨g, u', i'⟩ : RKey) ≠ ⟨f, u, i⟩) : (s.w f u v i).r g u' i' = s.r g u' i' :=
  rget_rset_ne _ _ _ _ h

theorem State.r_w_ne (f g : Fld) (u v i u' i' : Nat) (h : g ≠ f) : (s.w f u v i).r g u' i' = s.r g u' i' :=
  s.r_w_key f g u v i u' i' (fun e => h (RKey.mk.inj e).1)

theorem State.r_w_unit (f : Fld) (u v i u' i' : Nat) (h : u' ≠ u) : (s.w f u v i).r f u' i' = s.r f u' i' :=
  s.r_w_key f f u v i u' i' (fun e => h (RKey.mk.inj e).2.1)

theorem State.r_w_idx (f : Fld) (u v i i' : Nat) (h : i' ≠ i) : (s.w f u v i).r f u i' = s.r f u i' :=
  s.r_w_key f f u v i u i' (fun e => h (RKey.mk.inj e).2.2)

/-- A reset value fits its field. -/
theorem Fld.reset_lt (f : Fld) : f.info.reset < 2 ^ f.width := by cases f <;> decide

theorem Fld.resetAt_lt (f : Fld) (u i : Nat) : f.resetAt u i < 2 ^ f.width := by
  have hd : ∀ c, (duDefault c).1 < 2 ^ 16 ∧ (duDefault c).2.1 < 2 ^ 16 ∧ (duDefault c).2.2.1 < 2 ^ 16 ∧ (duDefault c).2.2.2 < 2 ^ 3 := by
    intro c
    unfold duDefault
    split <;> decide
  unfold Fld.resetAt
  split
  · exact (hd i).2.1
  · exact (hd i).1
  · exact (hd i).2.2.1
  · exact (hd i).2.2.2
  · decide
  · exact Nat.mod_lt _ (by decide)
  · exact f.reset_lt

theorem satAdd_lt (w a b : Nat) : satAdd w a b < 2 ^ w := by
  have := Nat.two_pow_pos w
  unfold satAdd
  omega

/-! ## What the present core cycle has seen -/

section
variable (f : Cyc → Cyc) (k : RKey) (v : Nat)
@[simp] theorem onCyc_pending : (onCyc f s).pending = s.pending := rfl
@[simp] theorem onCyc_now : (onCyc f s).now = s.now := rfl
@[simp] theorem onCyc_free : (onCyc f s).free = s.free := rfl
@[simp] theorem onCyc_regs : (onCyc f s).regs = s.regs := rfl
@[simp] theorem onCyc_mem : (onCyc f s).mem = s.mem := rfl
@[simp] theorem onCyc_chan : (onCyc f s).chan = s.chan := rfl
@[simp] theorem onCyc_grp : (onCyc f s).grp = s.grp := rfl
@[simp] theorem onCyc_pitch : (onCyc f s).pitch = s.pitch := rfl
@[simp] theorem onCyc_tdc : (onCyc f s).tdc = s.tdc := rfl
@[simp] theorem onCyc_meas : (onCyc f s).meas = s.meas := rfl
@[simp] theorem onCyc_ring : (onCyc f s).ring = s.ring := rfl
@[simp] theorem onCyc_lport : (onCyc f s).lport = s.lport := rfl
@[simp] theorem onCyc_lane : (onCyc f s).lane = s.lane := rfl
@[simp] theorem onCyc_vport : (onCyc f s).vport = s.vport := rfl
@[simp] theorem onCyc_vcm : (onCyc f s).vcm = s.vcm := rfl
@[simp] theorem onCyc_guy : (onCyc f s).guy = s.guy := rfl
@[simp] theorem onCyc_clk : (onCyc f s).clk = s.clk := rfl
@[simp] theorem onCyc_ptp : (onCyc f s).ptp = s.ptp := rfl
@[simp] theorem onCyc_mbox : (onCyc f s).mbox = s.mbox := rfl
@[simp] theorem onCyc_jobs : (onCyc f s).jobs = s.jobs := rfl
@[simp] theorem onCyc_disp : (onCyc f s).disp = s.disp := rfl
@[simp] theorem onCyc_sec : (onCyc f s).sec = s.sec := rfl
@[simp] theorem onCyc_pwr : (onCyc f s).pwr = s.pwr := rfl
@[simp] theorem onCyc_recm : (onCyc f s).recm = s.recm := rfl
@[simp] theorem onCyc_cal : (onCyc f s).cal = s.cal := rfl
@[simp] theorem onCyc_twin : (onCyc f s).twin = s.twin := rfl
@[simp] theorem onCyc_mark : (onCyc f s).mark = s.mark := rfl
@[simp] theorem onCyc_xtrig : (onCyc f s).xtrig = s.xtrig := rfl
@[simp] theorem onCyc_lines : (onCyc f s).lines = s.lines := rfl
@[simp] theorem onCyc_bus : (onCyc f s).bus = s.bus := rfl
@[simp] theorem onCyc_r (g : Fld) (u i : Nat) : (onCyc f s).r g u i = s.r g u i := rfl
@[simp] theorem onCyc_cyc : (onCyc f s).cyc = f s.cyc := rfl

/-- Noting what a clearing read may not lose touches nothing else. -/
theorem noteUp_eq : noteUp k v s = s ∨ noteUp k v s = onCyc (fun c => { c with ups := (k, v) :: c.ups }) s := by
  unfold noteUp
  split
  · exact Or.inr rfl
  · exact Or.inl rfl
@[simp] theorem noteUp_pending : (noteUp k v s).pending = s.pending := by rcases noteUp_eq s k v with h | h <;> rw [h]; rfl
@[simp] theorem noteUp_now : (noteUp k v s).now = s.now := by rcases noteUp_eq s k v with h | h <;> rw [h]; rfl
@[simp] theorem noteUp_free : (noteUp k v s).free = s.free := by rcases noteUp_eq s k v with h | h <;> rw [h]; rfl
@[simp] theorem noteUp_regs : (noteUp k v s).regs = s.regs := by rcases noteUp_eq s k v with h | h <;> rw [h]; rfl
@[simp] theorem noteUp_mem : (noteUp k v s).mem = s.mem := by rcases noteUp_eq s k v with h | h <;> rw [h]; rfl
@[simp] theorem noteUp_chan : (noteUp k v s).chan = s.chan := by rcases noteUp_eq s k v with h | h <;> rw [h]; rfl
@[simp] theorem noteUp_grp : (noteUp k v s).grp = s.grp := by rcases noteUp_eq s k v with h | h <;> rw [h]; rfl
@[simp] theorem noteUp_pitch : (noteUp k v s).pitch = s.pitch := by rcases noteUp_eq s k v with h | h <;> rw [h]; rfl
@[simp] theorem noteUp_tdc : (noteUp k v s).tdc = s.tdc := by rcases noteUp_eq s k v with h | h <;> rw [h]; rfl
@[simp] theorem noteUp_meas : (noteUp k v s).meas = s.meas := by rcases noteUp_eq s k v with h | h <;> rw [h]; rfl
@[simp] theorem noteUp_ring : (noteUp k v s).ring = s.ring := by rcases noteUp_eq s k v with h | h <;> rw [h]; rfl
@[simp] theorem noteUp_lport : (noteUp k v s).lport = s.lport := by rcases noteUp_eq s k v with h | h <;> rw [h]; rfl
@[simp] theorem noteUp_lane : (noteUp k v s).lane = s.lane := by rcases noteUp_eq s k v with h | h <;> rw [h]; rfl
@[simp] theorem noteUp_vport : (noteUp k v s).vport = s.vport := by rcases noteUp_eq s k v with h | h <;> rw [h]; rfl
@[simp] theorem noteUp_vcm : (noteUp k v s).vcm = s.vcm := by rcases noteUp_eq s k v with h | h <;> rw [h]; rfl
@[simp] theorem noteUp_guy : (noteUp k v s).guy = s.guy := by rcases noteUp_eq s k v with h | h <;> rw [h]; rfl
@[simp] theorem noteUp_clk : (noteUp k v s).clk = s.clk := by rcases noteUp_eq s k v with h | h <;> rw [h]; rfl
@[simp] theorem noteUp_ptp : (noteUp k v s).ptp = s.ptp := by rcases noteUp_eq s k v with h | h <;> rw [h]; rfl
@[simp] theorem noteUp_mbox : (noteUp k v s).mbox = s.mbox := by rcases noteUp_eq s k v with h | h <;> rw [h]; rfl
@[simp] theorem noteUp_jobs : (noteUp k v s).jobs = s.jobs := by rcases noteUp_eq s k v with h | h <;> rw [h]; rfl
@[simp] theorem noteUp_disp : (noteUp k v s).disp = s.disp := by rcases noteUp_eq s k v with h | h <;> rw [h]; rfl
@[simp] theorem noteUp_sec : (noteUp k v s).sec = s.sec := by rcases noteUp_eq s k v with h | h <;> rw [h]; rfl
@[simp] theorem noteUp_pwr : (noteUp k v s).pwr = s.pwr := by rcases noteUp_eq s k v with h | h <;> rw [h]; rfl
@[simp] theorem noteUp_recm : (noteUp k v s).recm = s.recm := by rcases noteUp_eq s k v with h | h <;> rw [h]; rfl
@[simp] theorem noteUp_cal : (noteUp k v s).cal = s.cal := by rcases noteUp_eq s k v with h | h <;> rw [h]; rfl
@[simp] theorem noteUp_twin : (noteUp k v s).twin = s.twin := by rcases noteUp_eq s k v with h | h <;> rw [h]; rfl
@[simp] theorem noteUp_mark : (noteUp k v s).mark = s.mark := by rcases noteUp_eq s k v with h | h <;> rw [h]; rfl
@[simp] theorem noteUp_xtrig : (noteUp k v s).xtrig = s.xtrig := by rcases noteUp_eq s k v with h | h <;> rw [h]; rfl
@[simp] theorem noteUp_lines : (noteUp k v s).lines = s.lines := by rcases noteUp_eq s k v with h | h <;> rw [h]; rfl
@[simp] theorem noteUp_bus : (noteUp k v s).bus = s.bus := by rcases noteUp_eq s k v with h | h <;> rw [h]; rfl
@[simp] theorem noteUp_r (g : Fld) (u i : Nat) : (noteUp k v s).r g u i = s.r g u i := by rcases noteUp_eq s k v with h | h <;> rw [h]; rfl
end

/-- A saturating counter after it counts. -/
theorem State.r_inc (f : Fld) (u i n : Nat) : (s.inc f u i n).r f u i = satAdd f.width (s.r f u i) n := by
  unfold State.inc
  rw [noteUp_r, State.r_w_self, Nat.mod_eq_of_lt (satAdd_lt ..)]

/-- A register reads the same in states with one register file. -/
theorem State.r_congr {s t : State} (h : t.regs = s.regs) (f : Fld) (u i : Nat) : t.r f u i = s.r f u i := by
  unfold State.r; rw [h]

/-- A count advanced leaves every other register field. -/
theorem State.r_inc_key (f g : Fld) (u i n u' i' : Nat) (h : (⟨g, u', i'⟩ : RKey) ≠ ⟨f, u, i⟩) : (s.inc f u i n).r g u' i' = s.r g u' i' := by
  unfold State.inc
  rw [noteUp_r, s.r_w_key f g _ _ _ _ _ h]

/-- Bits that hardware sets: they read as set, and every other field is as before; nothing but the register file and the notes of the core
cycle changes. -/
theorem State.regs_setW (f : Fld) (u v i : Nat) : (s.setW f u v i).regs = (s.w f u (s.r f u i ||| v) i).regs := by
  unfold State.setW
  dsimp only
  split <;> rfl

theorem State.r_setW (f : Fld) (u v i : Nat) : (s.setW f u v i).r f u i = (s.r f u i ||| v) % 2 ^ f.width :=
  (State.r_congr (s.regs_setW f u v i) ..).trans (s.r_w_self ..)

theorem State.r_setW_key (f g : Fld) (u v i u' i' : Nat) (h : (⟨g, u', i'⟩ : RKey) ≠ ⟨f, u, i⟩) :
    (s.setW f u v i).r g u' i' = s.r g u' i' :=
  (State.r_congr (s.regs_setW f u v i) ..).trans (s.r_w_key f g u _ i u' i' h)

/-- A flag that hardware sets reads 1. -/
theorem State.r_setF (f : Fld) (u i : Nat) (h : f.width = 1) : (s.setF f u i).r f u i = 1 := by
  unfold State.setF
  rw [State.r_setW, h, Nat.or_mod_two_pow (n := 1)]
  rcases Nat.mod_two_eq_zero_or_one (s.r f u i) with e | e <;> simp [e]

theorem State.r_setF_ne (f g : Fld) (u i u' i' : Nat) (h : g ≠ f) : (s.setF f u i).r g u' i' = s.r g u' i' :=
  s.r_setW_key f g u 1 i u' i' (fun e => h (RKey.mk.inj e).1)

theorem State.setF_mem (f : Fld) (u i : Nat) : (s.setF f u i).mem = s.mem := by
  unfold State.setF State.setW
  dsimp only
  split <;> rfl

/-! ## A unit -/

section
variable (n : Nat) (f : Chan → Chan)
@[simp] theorem State.onCh_pending : (s.onCh n f).pending = s.pending := rfl
@[simp] theorem State.onCh_now : (s.onCh n f).now = s.now := rfl
@[simp] theorem State.onCh_free : (s.onCh n f).free = s.free := rfl
@[simp] theorem State.onCh_regs : (s.onCh n f).regs = s.regs := rfl
@[simp] theorem State.onCh_mem : (s.onCh n f).mem = s.mem := rfl
@[simp] theorem State.onCh_grp : (s.onCh n f).grp = s.grp := rfl
@[simp] theorem State.onCh_pitch : (s.onCh n f).pitch = s.pitch := rfl
@[simp] theorem State.onCh_tdc : (s.onCh n f).tdc = s.tdc := rfl
@[simp] theorem State.onCh_meas : (s.onCh n f).meas = s.meas := rfl
@[simp] theorem State.onCh_ring : (s.onCh n f).ring = s.ring := rfl
@[simp] theorem State.onCh_lport : (s.onCh n f).lport = s.lport := rfl
@[simp] theorem State.onCh_lane : (s.onCh n f).lane = s.lane := rfl
@[simp] theorem State.onCh_vport : (s.onCh n f).vport = s.vport := rfl
@[simp] theorem State.onCh_vcm : (s.onCh n f).vcm = s.vcm := rfl
@[simp] theorem State.onCh_guy : (s.onCh n f).guy = s.guy := rfl
@[simp] theorem State.onCh_clk : (s.onCh n f).clk = s.clk := rfl
@[simp] theorem State.onCh_ptp : (s.onCh n f).ptp = s.ptp := rfl
@[simp] theorem State.onCh_mbox : (s.onCh n f).mbox = s.mbox := rfl
@[simp] theorem State.onCh_jobs : (s.onCh n f).jobs = s.jobs := rfl
@[simp] theorem State.onCh_disp : (s.onCh n f).disp = s.disp := rfl
@[simp] theorem State.onCh_sec : (s.onCh n f).sec = s.sec := rfl
@[simp] theorem State.onCh_pwr : (s.onCh n f).pwr = s.pwr := rfl
@[simp] theorem State.onCh_recm : (s.onCh n f).recm = s.recm := rfl
@[simp] theorem State.onCh_cal : (s.onCh n f).cal = s.cal := rfl
@[simp] theorem State.onCh_twin : (s.onCh n f).twin = s.twin := rfl
@[simp] theorem State.onCh_mark : (s.onCh n f).mark = s.mark := rfl
@[simp] theorem State.onCh_xtrig : (s.onCh n f).xtrig = s.xtrig := rfl
@[simp] theorem State.onCh_lines : (s.onCh n f).lines = s.lines := rfl
@[simp] theorem State.onCh_bus : (s.onCh n f).bus = s.bus := rfl
@[simp] theorem State.onCh_cyc : (s.onCh n f).cyc = s.cyc := rfl
@[simp] theorem State.onCh_r (g : Fld) (u i : Nat) : (s.onCh n f).r g u i = s.r g u i := rfl
@[simp] theorem State.onCh_ch : (s.onCh n f).ch n = f (s.ch n) := tget_tset_self ..
theorem State.onCh_ch_ne {m : Nat} (h : m ≠ n) : (s.onCh n f).ch m = s.ch m := tget_tset_ne _ _ _ h
@[simp] theorem State.w_ch (a : Fld) (u v i : Nat) : (s.w a u v i).ch n = s.ch n := rfl
end

section
variable (n : Nat) (f : Grp → Grp)
@[simp] theorem State.onGp_pending : (s.onGp n f).pending = s.pending := rfl
@[simp] theorem State.onGp_now : (s.onGp n f).now = s.now := rfl
@[simp] theorem State.onGp_free : (s.onGp n f).free = s.free := rfl
@[simp] theorem State.onGp_regs : (s.onGp n f).regs = s.regs := rfl
@[simp] theorem State.onGp_mem : (s.onGp n f).mem = s.mem := rfl
@[simp] theorem State.onGp_chan : (s.onGp n f).chan = s.chan := rfl
@[simp] theorem State.onGp_pitch : (s.onGp n f).pitch = s.pitch := rfl
@[simp] theorem State.onGp_tdc : (s.onGp n f).tdc = s.tdc := rfl
@[simp] theorem State.onGp_meas : (s.onGp n f).meas = s.meas := rfl
@[simp] theorem State.onGp_ring : (s.onGp n f).ring = s.ring := rfl
@[simp] theorem State.onGp_lport : (s.onGp n f).lport = s.lport := rfl
@[simp] theorem State.onGp_lane : (s.onGp n f).lane = s.lane := rfl
@[simp] theorem State.onGp_vport : (s.onGp n f).vport = s.vport := rfl
@[simp] theorem State.onGp_vcm : (s.onGp n f).vcm = s.vcm := rfl
@[simp] theorem State.onGp_guy : (s.onGp n f).guy = s.guy := rfl
@[simp] theorem State.onGp_clk : (s.onGp n f).clk = s.clk := rfl
@[simp] theorem State.onGp_ptp : (s.onGp n f).ptp = s.ptp := rfl
@[simp] theorem State.onGp_mbox : (s.onGp n f).mbox = s.mbox := rfl
@[simp] theorem State.onGp_jobs : (s.onGp n f).jobs = s.jobs := rfl
@[simp] theorem State.onGp_disp : (s.onGp n f).disp = s.disp := rfl
@[simp] theorem State.onGp_sec : (s.onGp n f).sec = s.sec := rfl
@[simp] theorem State.onGp_pwr : (s.onGp n f).pwr = s.pwr := rfl
@[simp] theorem State.onGp_recm : (s.onGp n f).recm = s.recm := rfl
@[simp] theorem State.onGp_cal : (s.onGp n f).cal = s.cal := rfl
@[simp] theorem State.onGp_twin : (s.onGp n f).twin = s.twin := rfl
@[simp] theorem State.onGp_mark : (s.onGp n f).mark = s.mark := rfl
@[simp] theorem State.onGp_xtrig : (s.onGp n f).xtrig = s.xtrig := rfl
@[simp] theorem State.onGp_lines : (s.onGp n f).lines = s.lines := rfl
@[simp] theorem State.onGp_bus : (s.onGp n f).bus = s.bus := rfl
@[simp] theorem State.onGp_cyc : (s.onGp n f).cyc = s.cyc := rfl
@[simp] theorem State.onGp_r (g : Fld) (u i : Nat) : (s.onGp n f).r g u i = s.r g u i := rfl
@[simp] theorem State.onGp_gp : (s.onGp n f).gp n = f (s.gp n) := tget_tset_self ..
theorem State.onGp_gp_ne {m : Nat} (h : m ≠ n) : (s.onGp n f).gp m = s.gp m := tget_tset_ne _ _ _ h
@[simp] theorem State.w_gp (a : Fld) (u v i : Nat) : (s.w a u v i).gp n = s.gp n := rfl
end

section
variable (n : Nat) (f : Pitch → Pitch)
@[simp] theorem State.onPt_pending : (s.onPt n f).pending = s.pending := rfl
@[simp] theorem State.onPt_now : (s.onPt n f).now = s.now := rfl
@[simp] theorem State.onPt_free : (s.onPt n f).free = s.free := rfl
@[simp] theorem State.onPt_regs : (s.onPt n f).regs = s.regs := rfl
@[simp] theorem State.onPt_mem : (s.onPt n f).mem = s.mem := rfl
@[simp] theorem State.onPt_chan : (s.onPt n f).chan = s.chan := rfl
@[simp] theorem State.onPt_grp : (s.onPt n f).grp = s.grp := rfl
@[simp] theorem State.onPt_tdc : (s.onPt n f).tdc = s.tdc := rfl
@[simp] theorem State.onPt_meas : (s.onPt n f).meas = s.meas := rfl
@[simp] theorem State.onPt_ring : (s.onPt n f).ring = s.ring := rfl
@[simp] theorem State.onPt_lport : (s.onPt n f).lport = s.lport := rfl
@[simp] theorem State.onPt_lane : (s.onPt n f).lane = s.lane := rfl
@[simp] theorem State.onPt_vport : (s.onPt n f).vport = s.vport := rfl
@[simp] theorem State.onPt_vcm : (s.onPt n f).vcm = s.vcm := rfl
@[simp] theorem State.onPt_guy : (s.onPt n f).guy = s.guy := rfl
@[simp] theorem State.onPt_clk : (s.onPt n f).clk = s.clk := rfl
@[simp] theorem State.onPt_ptp : (s.onPt n f).ptp = s.ptp := rfl
@[simp] theorem State.onPt_mbox : (s.onPt n f).mbox = s.mbox := rfl
@[simp] theorem State.onPt_jobs : (s.onPt n f).jobs = s.jobs := rfl
@[simp] theorem State.onPt_disp : (s.onPt n f).disp = s.disp := rfl
@[simp] theorem State.onPt_sec : (s.onPt n f).sec = s.sec := rfl
@[simp] theorem State.onPt_pwr : (s.onPt n f).pwr = s.pwr := rfl
@[simp] theorem State.onPt_recm : (s.onPt n f).recm = s.recm := rfl
@[simp] theorem State.onPt_cal : (s.onPt n f).cal = s.cal := rfl
@[simp] theorem State.onPt_twin : (s.onPt n f).twin = s.twin := rfl
@[simp] theorem State.onPt_mark : (s.onPt n f).mark = s.mark := rfl
@[simp] theorem State.onPt_xtrig : (s.onPt n f).xtrig = s.xtrig := rfl
@[simp] theorem State.onPt_lines : (s.onPt n f).lines = s.lines := rfl
@[simp] theorem State.onPt_bus : (s.onPt n f).bus = s.bus := rfl
@[simp] theorem State.onPt_cyc : (s.onPt n f).cyc = s.cyc := rfl
@[simp] theorem State.onPt_r (g : Fld) (u i : Nat) : (s.onPt n f).r g u i = s.r g u i := rfl
@[simp] theorem State.onPt_pt : (s.onPt n f).pt n = f (s.pt n) := tget_tset_self ..
theorem State.onPt_pt_ne {m : Nat} (h : m ≠ n) : (s.onPt n f).pt m = s.pt m := tget_tset_ne _ _ _ h
@[simp] theorem State.w_pt (a : Fld) (u v i : Nat) : (s.w a u v i).pt n = s.pt n := rfl
end

section
variable (n : Nat) (f : Tdc → Tdc)
@[simp] theorem State.onTd_pending : (s.onTd n f).pending = s.pending := rfl
@[simp] theorem State.onTd_now : (s.onTd n f).now = s.now := rfl
@[simp] theorem State.onTd_free : (s.onTd n f).free = s.free := rfl
@[simp] theorem State.onTd_regs : (s.onTd n f).regs = s.regs := rfl
@[simp] theorem State.onTd_mem : (s.onTd n f).mem = s.mem := rfl
@[simp] theorem State.onTd_chan : (s.onTd n f).chan = s.chan := rfl
@[simp] theorem State.onTd_grp : (s.onTd n f).grp = s.grp := rfl
@[simp] theorem State.onTd_pitch : (s.onTd n f).pitch = s.pitch := rfl
@[simp] theorem State.onTd_meas : (s.onTd n f).meas = s.meas := rfl
@[simp] theorem State.onTd_ring : (s.onTd n f).ring = s.ring := rfl
@[simp] theorem State.onTd_lport : (s.onTd n f).lport = s.lport := rfl
@[simp] theorem State.onTd_lane : (s.onTd n f).lane = s.lane := rfl
@[simp] theorem State.onTd_vport : (s.onTd n f).vport = s.vport := rfl
@[simp] theorem State.onTd_vcm : (s.onTd n f).vcm = s.vcm := rfl
@[simp] theorem State.onTd_guy : (s.onTd n f).guy = s.guy := rfl
@[simp] theorem State.onTd_clk : (s.onTd n f).clk = s.clk := rfl
@[simp] theorem State.onTd_ptp : (s.onTd n f).ptp = s.ptp := rfl
@[simp] theorem State.onTd_mbox : (s.onTd n f).mbox = s.mbox := rfl
@[simp] theorem State.onTd_jobs : (s.onTd n f).jobs = s.jobs := rfl
@[simp] theorem State.onTd_disp : (s.onTd n f).disp = s.disp := rfl
@[simp] theorem State.onTd_sec : (s.onTd n f).sec = s.sec := rfl
@[simp] theorem State.onTd_pwr : (s.onTd n f).pwr = s.pwr := rfl
@[simp] theorem State.onTd_recm : (s.onTd n f).recm = s.recm := rfl
@[simp] theorem State.onTd_cal : (s.onTd n f).cal = s.cal := rfl
@[simp] theorem State.onTd_twin : (s.onTd n f).twin = s.twin := rfl
@[simp] theorem State.onTd_mark : (s.onTd n f).mark = s.mark := rfl
@[simp] theorem State.onTd_xtrig : (s.onTd n f).xtrig = s.xtrig := rfl
@[simp] theorem State.onTd_lines : (s.onTd n f).lines = s.lines := rfl
@[simp] theorem State.onTd_bus : (s.onTd n f).bus = s.bus := rfl
@[simp] theorem State.onTd_cyc : (s.onTd n f).cyc = s.cyc := rfl
@[simp] theorem State.onTd_r (g : Fld) (u i : Nat) : (s.onTd n f).r g u i = s.r g u i := rfl
@[simp] theorem State.onTd_td : (s.onTd n f).td n = f (s.td n) := tget_tset_self ..
theorem State.onTd_td_ne {m : Nat} (h : m ≠ n) : (s.onTd n f).td m = s.td m := tget_tset_ne _ _ _ h
@[simp] theorem State.w_td (a : Fld) (u v i : Nat) : (s.w a u v i).td n = s.td n := rfl
end

section
variable (n : Nat) (f : Meas → Meas)
@[simp] theorem State.onMs_pending : (s.onMs n f).pending = s.pending := rfl
@[simp] theorem State.onMs_now : (s.onMs n f).now = s.now := rfl
@[simp] theorem State.onMs_free : (s.onMs n f).free = s.free := rfl
@[simp] theorem State.onMs_regs : (s.onMs n f).regs = s.regs := rfl
@[simp] theorem State.onMs_mem : (s.onMs n f).mem = s.mem := rfl
@[simp] theorem State.onMs_chan : (s.onMs n f).chan = s.chan := rfl
@[simp] theorem State.onMs_grp : (s.onMs n f).grp = s.grp := rfl
@[simp] theorem State.onMs_pitch : (s.onMs n f).pitch = s.pitch := rfl
@[simp] theorem State.onMs_tdc : (s.onMs n f).tdc = s.tdc := rfl
@[simp] theorem State.onMs_ring : (s.onMs n f).ring = s.ring := rfl
@[simp] theorem State.onMs_lport : (s.onMs n f).lport = s.lport := rfl
@[simp] theorem State.onMs_lane : (s.onMs n f).lane = s.lane := rfl
@[simp] theorem State.onMs_vport : (s.onMs n f).vport = s.vport := rfl
@[simp] theorem State.onMs_vcm : (s.onMs n f).vcm = s.vcm := rfl
@[simp] theorem State.onMs_guy : (s.onMs n f).guy = s.guy := rfl
@[simp] theorem State.onMs_clk : (s.onMs n f).clk = s.clk := rfl
@[simp] theorem State.onMs_ptp : (s.onMs n f).ptp = s.ptp := rfl
@[simp] theorem State.onMs_mbox : (s.onMs n f).mbox = s.mbox := rfl
@[simp] theorem State.onMs_jobs : (s.onMs n f).jobs = s.jobs := rfl
@[simp] theorem State.onMs_disp : (s.onMs n f).disp = s.disp := rfl
@[simp] theorem State.onMs_sec : (s.onMs n f).sec = s.sec := rfl
@[simp] theorem State.onMs_pwr : (s.onMs n f).pwr = s.pwr := rfl
@[simp] theorem State.onMs_recm : (s.onMs n f).recm = s.recm := rfl
@[simp] theorem State.onMs_cal : (s.onMs n f).cal = s.cal := rfl
@[simp] theorem State.onMs_twin : (s.onMs n f).twin = s.twin := rfl
@[simp] theorem State.onMs_mark : (s.onMs n f).mark = s.mark := rfl
@[simp] theorem State.onMs_xtrig : (s.onMs n f).xtrig = s.xtrig := rfl
@[simp] theorem State.onMs_lines : (s.onMs n f).lines = s.lines := rfl
@[simp] theorem State.onMs_bus : (s.onMs n f).bus = s.bus := rfl
@[simp] theorem State.onMs_cyc : (s.onMs n f).cyc = s.cyc := rfl
@[simp] theorem State.onMs_r (g : Fld) (u i : Nat) : (s.onMs n f).r g u i = s.r g u i := rfl
@[simp] theorem State.onMs_ms : (s.onMs n f).ms n = f (s.ms n) := tget_tset_self ..
theorem State.onMs_ms_ne {m : Nat} (h : m ≠ n) : (s.onMs n f).ms m = s.ms m := tget_tset_ne _ _ _ h
@[simp] theorem State.w_ms (a : Fld) (u v i : Nat) : (s.w a u v i).ms n = s.ms n := rfl
end

section
variable (n : Nat) (f : Ring → Ring)
@[simp] theorem State.onRg_pending : (s.onRg n f).pending = s.pending := rfl
@[simp] theorem State.onRg_now : (s.onRg n f).now = s.now := rfl
@[simp] theorem State.onRg_free : (s.onRg n f).free = s.free := rfl
@[simp] theorem State.onRg_regs : (s.onRg n f).regs = s.regs := rfl
@[simp] theorem State.onRg_mem : (s.onRg n f).mem = s.mem := rfl
@[simp] theorem State.onRg_chan : (s.onRg n f).chan = s.chan := rfl
@[simp] theorem State.onRg_grp : (s.onRg n f).grp = s.grp := rfl
@[simp] theorem State.onRg_pitch : (s.onRg n f).pitch = s.pitch := rfl
@[simp] theorem State.onRg_tdc : (s.onRg n f).tdc = s.tdc := rfl
@[simp] theorem State.onRg_meas : (s.onRg n f).meas = s.meas := rfl
@[simp] theorem State.onRg_lport : (s.onRg n f).lport = s.lport := rfl
@[simp] theorem State.onRg_lane : (s.onRg n f).lane = s.lane := rfl
@[simp] theorem State.onRg_vport : (s.onRg n f).vport = s.vport := rfl
@[simp] theorem State.onRg_vcm : (s.onRg n f).vcm = s.vcm := rfl
@[simp] theorem State.onRg_guy : (s.onRg n f).guy = s.guy := rfl
@[simp] theorem State.onRg_clk : (s.onRg n f).clk = s.clk := rfl
@[simp] theorem State.onRg_ptp : (s.onRg n f).ptp = s.ptp := rfl
@[simp] theorem State.onRg_mbox : (s.onRg n f).mbox = s.mbox := rfl
@[simp] theorem State.onRg_jobs : (s.onRg n f).jobs = s.jobs := rfl
@[simp] theorem State.onRg_disp : (s.onRg n f).disp = s.disp := rfl
@[simp] theorem State.onRg_sec : (s.onRg n f).sec = s.sec := rfl
@[simp] theorem State.onRg_pwr : (s.onRg n f).pwr = s.pwr := rfl
@[simp] theorem State.onRg_recm : (s.onRg n f).recm = s.recm := rfl
@[simp] theorem State.onRg_cal : (s.onRg n f).cal = s.cal := rfl
@[simp] theorem State.onRg_twin : (s.onRg n f).twin = s.twin := rfl
@[simp] theorem State.onRg_mark : (s.onRg n f).mark = s.mark := rfl
@[simp] theorem State.onRg_xtrig : (s.onRg n f).xtrig = s.xtrig := rfl
@[simp] theorem State.onRg_lines : (s.onRg n f).lines = s.lines := rfl
@[simp] theorem State.onRg_bus : (s.onRg n f).bus = s.bus := rfl
@[simp] theorem State.onRg_cyc : (s.onRg n f).cyc = s.cyc := rfl
@[simp] theorem State.onRg_r (g : Fld) (u i : Nat) : (s.onRg n f).r g u i = s.r g u i := rfl
@[simp] theorem State.onRg_rg : (s.onRg n f).rg n = f (s.rg n) := tget_tset_self ..
theorem State.onRg_rg_ne {m : Nat} (h : m ≠ n) : (s.onRg n f).rg m = s.rg m := tget_tset_ne _ _ _ h
@[simp] theorem State.w_rg (a : Fld) (u v i : Nat) : (s.w a u v i).rg n = s.rg n := rfl
end

section
variable (n : Nat) (f : LPort → LPort)
@[simp] theorem State.onLp_pending : (s.onLp n f).pending = s.pending := rfl
@[simp] theorem State.onLp_now : (s.onLp n f).now = s.now := rfl
@[simp] theorem State.onLp_free : (s.onLp n f).free = s.free := rfl
@[simp] theorem State.onLp_regs : (s.onLp n f).regs = s.regs := rfl
@[simp] theorem State.onLp_mem : (s.onLp n f).mem = s.mem := rfl
@[simp] theorem State.onLp_chan : (s.onLp n f).chan = s.chan := rfl
@[simp] theorem State.onLp_grp : (s.onLp n f).grp = s.grp := rfl
@[simp] theorem State.onLp_pitch : (s.onLp n f).pitch = s.pitch := rfl
@[simp] theorem State.onLp_tdc : (s.onLp n f).tdc = s.tdc := rfl
@[simp] theorem State.onLp_meas : (s.onLp n f).meas = s.meas := rfl
@[simp] theorem State.onLp_ring : (s.onLp n f).ring = s.ring := rfl
@[simp] theorem State.onLp_lane : (s.onLp n f).lane = s.lane := rfl
@[simp] theorem State.onLp_vport : (s.onLp n f).vport = s.vport := rfl
@[simp] theorem State.onLp_vcm : (s.onLp n f).vcm = s.vcm := rfl
@[simp] theorem State.onLp_guy : (s.onLp n f).guy = s.guy := rfl
@[simp] theorem State.onLp_clk : (s.onLp n f).clk = s.clk := rfl
@[simp] theorem State.onLp_ptp : (s.onLp n f).ptp = s.ptp := rfl
@[simp] theorem State.onLp_mbox : (s.onLp n f).mbox = s.mbox := rfl
@[simp] theorem State.onLp_jobs : (s.onLp n f).jobs = s.jobs := rfl
@[simp] theorem State.onLp_disp : (s.onLp n f).disp = s.disp := rfl
@[simp] theorem State.onLp_sec : (s.onLp n f).sec = s.sec := rfl
@[simp] theorem State.onLp_pwr : (s.onLp n f).pwr = s.pwr := rfl
@[simp] theorem State.onLp_recm : (s.onLp n f).recm = s.recm := rfl
@[simp] theorem State.onLp_cal : (s.onLp n f).cal = s.cal := rfl
@[simp] theorem State.onLp_twin : (s.onLp n f).twin = s.twin := rfl
@[simp] theorem State.onLp_mark : (s.onLp n f).mark = s.mark := rfl
@[simp] theorem State.onLp_xtrig : (s.onLp n f).xtrig = s.xtrig := rfl
@[simp] theorem State.onLp_lines : (s.onLp n f).lines = s.lines := rfl
@[simp] theorem State.onLp_bus : (s.onLp n f).bus = s.bus := rfl
@[simp] theorem State.onLp_cyc : (s.onLp n f).cyc = s.cyc := rfl
@[simp] theorem State.onLp_r (g : Fld) (u i : Nat) : (s.onLp n f).r g u i = s.r g u i := rfl
@[simp] theorem State.onLp_lp : (s.onLp n f).lp n = f (s.lp n) := tget_tset_self ..
theorem State.onLp_lp_ne {m : Nat} (h : m ≠ n) : (s.onLp n f).lp m = s.lp m := tget_tset_ne _ _ _ h
@[simp] theorem State.w_lp (a : Fld) (u v i : Nat) : (s.w a u v i).lp n = s.lp n := rfl
end

section
variable (n : Nat) (f : Lane → Lane)
@[simp] theorem State.onLn_pending : (s.onLn n f).pending = s.pending := rfl
@[simp] theorem State.onLn_now : (s.onLn n f).now = s.now := rfl
@[simp] theorem State.onLn_free : (s.onLn n f).free = s.free := rfl
@[simp] theorem State.onLn_regs : (s.onLn n f).regs = s.regs := rfl
@[simp] theorem State.onLn_mem : (s.onLn n f).mem = s.mem := rfl
@[simp] theorem State.onLn_chan : (s.onLn n f).chan = s.chan := rfl
@[simp] theorem State.onLn_grp : (s.onLn n f).grp = s.grp := rfl
@[simp] theorem State.onLn_pitch : (s.onLn n f).pitch = s.pitch := rfl
@[simp] theorem State.onLn_tdc : (s.onLn n f).tdc = s.tdc := rfl
@[simp] theorem State.onLn_meas : (s.onLn n f).meas = s.meas := rfl
@[simp] theorem State.onLn_ring : (s.onLn n f).ring = s.ring := rfl
@[simp] theorem State.onLn_lport : (s.onLn n f).lport = s.lport := rfl
@[simp] theorem State.onLn_vport : (s.onLn n f).vport = s.vport := rfl
@[simp] theorem State.onLn_vcm : (s.onLn n f).vcm = s.vcm := rfl
@[simp] theorem State.onLn_guy : (s.onLn n f).guy = s.guy := rfl
@[simp] theorem State.onLn_clk : (s.onLn n f).clk = s.clk := rfl
@[simp] theorem State.onLn_ptp : (s.onLn n f).ptp = s.ptp := rfl
@[simp] theorem State.onLn_mbox : (s.onLn n f).mbox = s.mbox := rfl
@[simp] theorem State.onLn_jobs : (s.onLn n f).jobs = s.jobs := rfl
@[simp] theorem State.onLn_disp : (s.onLn n f).disp = s.disp := rfl
@[simp] theorem State.onLn_sec : (s.onLn n f).sec = s.sec := rfl
@[simp] theorem State.onLn_pwr : (s.onLn n f).pwr = s.pwr := rfl
@[simp] theorem State.onLn_recm : (s.onLn n f).recm = s.recm := rfl
@[simp] theorem State.onLn_cal : (s.onLn n f).cal = s.cal := rfl
@[simp] theorem State.onLn_twin : (s.onLn n f).twin = s.twin := rfl
@[simp] theorem State.onLn_mark : (s.onLn n f).mark = s.mark := rfl
@[simp] theorem State.onLn_xtrig : (s.onLn n f).xtrig = s.xtrig := rfl
@[simp] theorem State.onLn_lines : (s.onLn n f).lines = s.lines := rfl
@[simp] theorem State.onLn_bus : (s.onLn n f).bus = s.bus := rfl
@[simp] theorem State.onLn_cyc : (s.onLn n f).cyc = s.cyc := rfl
@[simp] theorem State.onLn_r (g : Fld) (u i : Nat) : (s.onLn n f).r g u i = s.r g u i := rfl
@[simp] theorem State.onLn_ln : (s.onLn n f).ln n = f (s.ln n) := tget_tset_self ..
theorem State.onLn_ln_ne {m : Nat} (h : m ≠ n) : (s.onLn n f).ln m = s.ln m := tget_tset_ne _ _ _ h
@[simp] theorem State.w_ln (a : Fld) (u v i : Nat) : (s.w a u v i).ln n = s.ln n := rfl
end

section
variable (n : Nat) (f : VPort → VPort)
@[simp] theorem State.onVp_pending : (s.onVp n f).pending = s.pending := rfl
@[simp] theorem State.onVp_now : (s.onVp n f).now = s.now := rfl
@[simp] theorem State.onVp_free : (s.onVp n f).free = s.free := rfl
@[simp] theorem State.onVp_regs : (s.onVp n f).regs = s.regs := rfl
@[simp] theorem State.onVp_mem : (s.onVp n f).mem = s.mem := rfl
@[simp] theorem State.onVp_chan : (s.onVp n f).chan = s.chan := rfl
@[simp] theorem State.onVp_grp : (s.onVp n f).grp = s.grp := rfl
@[simp] theorem State.onVp_pitch : (s.onVp n f).pitch = s.pitch := rfl
@[simp] theorem State.onVp_tdc : (s.onVp n f).tdc = s.tdc := rfl
@[simp] theorem State.onVp_meas : (s.onVp n f).meas = s.meas := rfl
@[simp] theorem State.onVp_ring : (s.onVp n f).ring = s.ring := rfl
@[simp] theorem State.onVp_lport : (s.onVp n f).lport = s.lport := rfl
@[simp] theorem State.onVp_lane : (s.onVp n f).lane = s.lane := rfl
@[simp] theorem State.onVp_vcm : (s.onVp n f).vcm = s.vcm := rfl
@[simp] theorem State.onVp_guy : (s.onVp n f).guy = s.guy := rfl
@[simp] theorem State.onVp_clk : (s.onVp n f).clk = s.clk := rfl
@[simp] theorem State.onVp_ptp : (s.onVp n f).ptp = s.ptp := rfl
@[simp] theorem State.onVp_mbox : (s.onVp n f).mbox = s.mbox := rfl
@[simp] theorem State.onVp_jobs : (s.onVp n f).jobs = s.jobs := rfl
@[simp] theorem State.onVp_disp : (s.onVp n f).disp = s.disp := rfl
@[simp] theorem State.onVp_sec : (s.onVp n f).sec = s.sec := rfl
@[simp] theorem State.onVp_pwr : (s.onVp n f).pwr = s.pwr := rfl
@[simp] theorem State.onVp_recm : (s.onVp n f).recm = s.recm := rfl
@[simp] theorem State.onVp_cal : (s.onVp n f).cal = s.cal := rfl
@[simp] theorem State.onVp_twin : (s.onVp n f).twin = s.twin := rfl
@[simp] theorem State.onVp_mark : (s.onVp n f).mark = s.mark := rfl
@[simp] theorem State.onVp_xtrig : (s.onVp n f).xtrig = s.xtrig := rfl
@[simp] theorem State.onVp_lines : (s.onVp n f).lines = s.lines := rfl
@[simp] theorem State.onVp_bus : (s.onVp n f).bus = s.bus := rfl
@[simp] theorem State.onVp_cyc : (s.onVp n f).cyc = s.cyc := rfl
@[simp] theorem State.onVp_r (g : Fld) (u i : Nat) : (s.onVp n f).r g u i = s.r g u i := rfl
@[simp] theorem State.onVp_vp : (s.onVp n f).vp n = f (s.vp n) := tget_tset_self ..
theorem State.onVp_vp_ne {m : Nat} (h : m ≠ n) : (s.onVp n f).vp m = s.vp m := tget_tset_ne _ _ _ h
@[simp] theorem State.w_vp (a : Fld) (u v i : Nat) : (s.w a u v i).vp n = s.vp n := rfl
end

section
variable (n : Nat) (f : PtpPort → PtpPort)
@[simp] theorem State.onPp_pending : (s.onPp n f).pending = s.pending := rfl
@[simp] theorem State.onPp_now : (s.onPp n f).now = s.now := rfl
@[simp] theorem State.onPp_free : (s.onPp n f).free = s.free := rfl
@[simp] theorem State.onPp_regs : (s.onPp n f).regs = s.regs := rfl
@[simp] theorem State.onPp_mem : (s.onPp n f).mem = s.mem := rfl
@[simp] theorem State.onPp_chan : (s.onPp n f).chan = s.chan := rfl
@[simp] theorem State.onPp_grp : (s.onPp n f).grp = s.grp := rfl
@[simp] theorem State.onPp_pitch : (s.onPp n f).pitch = s.pitch := rfl
@[simp] theorem State.onPp_tdc : (s.onPp n f).tdc = s.tdc := rfl
@[simp] theorem State.onPp_meas : (s.onPp n f).meas = s.meas := rfl
@[simp] theorem State.onPp_ring : (s.onPp n f).ring = s.ring := rfl
@[simp] theorem State.onPp_lport : (s.onPp n f).lport = s.lport := rfl
@[simp] theorem State.onPp_lane : (s.onPp n f).lane = s.lane := rfl
@[simp] theorem State.onPp_vport : (s.onPp n f).vport = s.vport := rfl
@[simp] theorem State.onPp_vcm : (s.onPp n f).vcm = s.vcm := rfl
@[simp] theorem State.onPp_guy : (s.onPp n f).guy = s.guy := rfl
@[simp] theorem State.onPp_clk : (s.onPp n f).clk = s.clk := rfl
@[simp] theorem State.onPp_mbox : (s.onPp n f).mbox = s.mbox := rfl
@[simp] theorem State.onPp_jobs : (s.onPp n f).jobs = s.jobs := rfl
@[simp] theorem State.onPp_disp : (s.onPp n f).disp = s.disp := rfl
@[simp] theorem State.onPp_sec : (s.onPp n f).sec = s.sec := rfl
@[simp] theorem State.onPp_pwr : (s.onPp n f).pwr = s.pwr := rfl
@[simp] theorem State.onPp_recm : (s.onPp n f).recm = s.recm := rfl
@[simp] theorem State.onPp_cal : (s.onPp n f).cal = s.cal := rfl
@[simp] theorem State.onPp_twin : (s.onPp n f).twin = s.twin := rfl
@[simp] theorem State.onPp_mark : (s.onPp n f).mark = s.mark := rfl
@[simp] theorem State.onPp_xtrig : (s.onPp n f).xtrig = s.xtrig := rfl
@[simp] theorem State.onPp_lines : (s.onPp n f).lines = s.lines := rfl
@[simp] theorem State.onPp_bus : (s.onPp n f).bus = s.bus := rfl
@[simp] theorem State.onPp_cyc : (s.onPp n f).cyc = s.cyc := rfl
@[simp] theorem State.onPp_r (g : Fld) (u i : Nat) : (s.onPp n f).r g u i = s.r g u i := rfl
@[simp] theorem State.onPp_pp : (s.onPp n f).pp n = f (s.pp n) := tget_tset_self ..
theorem State.onPp_pp_ne {m : Nat} (h : m ≠ n) : (s.onPp n f).pp m = s.pp m := tget_tset_ne _ _ _ h
@[simp] theorem State.w_pp (a : Fld) (u v i : Nat) : (s.w a u v i).pp n = s.pp n := rfl
end

/-! ## A memory -/

section
variable (sp a : Nat) (b : List Byte)
@[simp] theorem State.store_pending : (s.store sp a b).pending = s.pending := rfl
@[simp] theorem State.store_now : (s.store sp a b).now = s.now := rfl
@[simp] theorem State.store_free : (s.store sp a b).free = s.free := rfl
@[simp] theorem State.store_regs : (s.store sp a b).regs = s.regs := rfl
@[simp] theorem State.store_chan : (s.store sp a b).chan = s.chan := rfl
@[simp] theorem State.store_grp : (s.store sp a b).grp = s.grp := rfl
@[simp] theorem State.store_pitch : (s.store sp a b).pitch = s.pitch := rfl
@[simp] theorem State.store_tdc : (s.store sp a b).tdc = s.tdc := rfl
@[simp] theorem State.store_meas : (s.store sp a b).meas = s.meas := rfl
@[simp] theorem State.store_ring : (s.store sp a b).ring = s.ring := rfl
@[simp] theorem State.store_lport : (s.store sp a b).lport = s.lport := rfl
@[simp] theorem State.store_lane : (s.store sp a b).lane = s.lane := rfl
@[simp] theorem State.store_vport : (s.store sp a b).vport = s.vport := rfl
@[simp] theorem State.store_vcm : (s.store sp a b).vcm = s.vcm := rfl
@[simp] theorem State.store_guy : (s.store sp a b).guy = s.guy := rfl
@[simp] theorem State.store_clk : (s.store sp a b).clk = s.clk := rfl
@[simp] theorem State.store_ptp : (s.store sp a b).ptp = s.ptp := rfl
@[simp] theorem State.store_mbox : (s.store sp a b).mbox = s.mbox := rfl
@[simp] theorem State.store_jobs : (s.store sp a b).jobs = s.jobs := rfl
@[simp] theorem State.store_disp : (s.store sp a b).disp = s.disp := rfl
@[simp] theorem State.store_sec : (s.store sp a b).sec = s.sec := rfl
@[simp] theorem State.store_pwr : (s.store sp a b).pwr = s.pwr := rfl
@[simp] theorem State.store_recm : (s.store sp a b).recm = s.recm := rfl
@[simp] theorem State.store_cal : (s.store sp a b).cal = s.cal := rfl
@[simp] theorem State.store_twin : (s.store sp a b).twin = s.twin := rfl
@[simp] theorem State.store_mark : (s.store sp a b).mark = s.mark := rfl
@[simp] theorem State.store_xtrig : (s.store sp a b).xtrig = s.xtrig := rfl
@[simp] theorem State.store_lines : (s.store sp a b).lines = s.lines := rfl
@[simp] theorem State.store_bus : (s.store sp a b).bus = s.bus := rfl
@[simp] theorem State.store_cyc : (s.store sp a b).cyc = s.cyc := rfl
@[simp] theorem State.store_r (f : Fld) (u i : Nat) : (s.store sp a b).r f u i = s.r f u i := rfl
end

/-- A store into a space leaves its bytes outside the stored ones. -/
theorem State.space_setSpace (sp : Nat) (m : Mem) : (s.setSpace sp m).space sp = m := by
  rcases sp with _ | _ | _ | _ | _ <;> rfl

theorem State.space_setBad (sp sp' : Nat) (l : List Nat) : (s.setBad sp l).space sp' = s.space sp' := by
  rcases sp with _ | _ | _ | _ | _ <;> rcases sp' with _ | _ | _ | _ | _ <;> rfl

@[simp] theorem State.space_store (sp a : Nat) (b : List Byte) : (s.store sp a b).space sp = (s.space sp).wrs a b := by
  unfold State.store
  dsimp only
  rw [State.space_setBad, State.space_setSpace]

theorem State.store_out (sp a c : Nat) (b : List Byte) (h : c < a ∨ a + b.length ≤ c) :
    ((s.store sp a b).space sp).rd c = (s.space sp).rd c := by
  rw [State.space_store, Mem.rd_wrs_out _ _ _ _ h]

/-- A store into a space leaves the others. -/
theorem State.space_store_ne {sp sp' : Nat} (a : Nat) (b : List Byte) (h : min sp 4 ≠ min sp' 4) :
    (s.store sp a b).space sp' = s.space sp' := by
  unfold State.store
  dsimp only
  rw [State.space_setBad]
  unfold State.setSpace State.space
  rcases sp with _ | _ | _ | _ | _ <;> rcases sp' with _ | _ | _ | _ | _ <;> first | rfl | (exfalso; omega)

end Sys2Proof.Machine
end

