-- ==== Sys2Proof/Laws/Ops.lean ====
section
/-! SUPPORT. What the shared operations can do, once for each: a packet sent, an event raised, credits returned, refused items taken in
again, a command freed, and the start of a host command. -/

namespace Sys2Proof.Machine

/-- Under the invariant every register field reads a value of its width. -/
theorem State.r_lt {s : State} (h : s.Good) (f : Fld) (u i : Nat) : s.r f u i < 2 ^ f.width := by
  have hl : ∀ l : Regs, (∀ e ∈ l, e.2 < 2 ^ e.1.fld.width) → rget (f.resetAt u i) l ⟨f, u, i⟩ < 2 ^ f.width := by
    intro l
    induction l with
    | nil => exact fun _ => f.resetAt_lt u i
    | cons a r ih =>
      intro hl
      obtain ⟨k, v⟩ := a
      unfold rget
      split
      · rename_i hk
        subst hk
        exact hl (⟨f, u, i⟩, v) (by simp)
      · exact ih (fun e he => hl e (by simp [he]))
  exact hl s.regs (fun e he => (h.2.2 e he).1)

/-! ## Packets and events -/

/-- What a sent packet leaves: all but its port and, where the port is OFF or DOWN, the count of dropped messages. -/
structure SentFrom (s t : State) : Prop where
  mem : t.mem = s.mem
  mbox : t.mbox = s.mbox
  pwr : t.pwr = s.pwr
  pitch : t.pitch = s.pitch
  disp : t.disp = s.disp
  r : ∀ f u i, f ≠ .LK_TXN_DROP_MSG → t.r f u i = s.r f u i

theorem SentFrom.refl (s : State) : SentFrom s s := ⟨rfl, rfl, rfl, rfl, rfl, fun _ _ _ _ => rfl⟩

theorem SentFrom.trans {s t u : State} (h : SentFrom s t) (g : SentFrom t u) : SentFrom s u :=
  ⟨g.mem.trans h.mem, g.mbox.trans h.mbox, g.pwr.trans h.pwr, g.pitch.trans h.pitch, g.disp.trans h.disp,
    fun f u i hf => (g.r f u i hf).trans (h.r f u i hf)⟩

theorem send_from (s : State) (n : Nat) (k : Pkt) : SentFrom s (s.send n k) := by
  unfold State.send
  split
  · split
    · exact ⟨rfl, rfl, rfl, rfl, rfl, fun f u i h => State.r_w_ne _ _ _ _ _ _ _ _ h⟩
    · exact SentFrom.refl s
  · unfold State.pump
    split <;> exact ⟨rfl, rfl, rfl, rfl, rfl, fun _ _ _ _ => rfl⟩

theorem sendAll_from (l : List Nat) (k : Pkt) : ∀ s : State, SentFrom s (forAll l (fun n t => t.send n k) s) := by
  induction l with
  | nil => exact SentFrom.refl
  | cons a r ih => exact fun s => (send_from s a k).trans (ih (s.send a k))

/-- An event without room in the ring is counted and changes nothing else but its number and DROPPED. -/
theorem event_dropped {s : State} (h : s.evrRoom = false) (c : Nat) (v : List (Nat × Nat)) :
    event c v s = { s.inc .EVR_STAT_EVR_LOST with
      mbox := { s.mbox with evSeq := (s.mbox.evSeq + 1) % 2 ^ 32, evDropped := true } } := by
  unfold event
  rw [h]
  rfl

/-- An event with room is written into its slot, and what NOTIFY sends touches no memory. -/
theorem event_written {s : State} (h : s.evrRoom = true) (c : Nat) (v : List (Nat × Nat)) :
    SentFrom { ((s.storeN 3 (pageAt (s.r .EVR_CFG_EVR_PAGE) + 32 * (s.r .EVR_PROD_COUNT % s.evrSize)) 32 (s.eventRec c v)).w
        .EVR_PROD_COUNT 0 (s.r .EVR_PROD_COUNT + 1)) with
      mbox := { s.mbox with evSeq := (s.mbox.evSeq + 1) % 2 ^ 32, evDropped := false } } (event c v s) := by
  unfold event
  rw [h]
  simp only [if_true]
  split
  · exact sendAll_from _ _ _
  · exact SentFrom.refl _

/-- The registers that an event can write. -/
theorem event_r (c : Nat) (v : List (Nat × Nat)) (s : State) (f : Fld) (u i : Nat)
    (h : f ∉ [Fld.LK_TXN_DROP_MSG, .EVR_STAT_EVR_LOST, .EVR_PROD_COUNT]) : (event c v s).r f u i = s.r f u i := by
  simp only [List.mem_cons, List.not_mem_nil, or_false, not_or] at h
  cases hr : s.evrRoom
  · rw [event_dropped hr]
    exact State.r_w_ne _ _ _ _ _ _ _ _ h.2.1
  · rw [(event_written hr c v).r f u i h.1]
    exact State.r_w_ne _ _ _ _ _ _ _ _ h.2.2

theorem event_pwr (c : Nat) (v : List (Nat × Nat)) (s : State) : (event c v s).pwr = s.pwr := by
  cases hr : s.evrRoom
  · rw [event_dropped hr]; rfl
  · rw [(event_written hr c v).pwr]; rfl

theorem event_pitch (c : Nat) (v : List (Nat × Nat)) (s : State) : (event c v s).pitch = s.pitch := by
  cases hr : s.evrRoom
  · rw [event_dropped hr]; rfl
  · rw [(event_written hr c v).pitch]; rfl

theorem event_disp (c : Nat) (v : List (Nat × Nat)) (s : State) : (event c v s).disp = s.disp := by
  cases hr : s.evrRoom
  · rw [event_dropped hr]; rfl
  · rw [(event_written hr c v).disp]; rfl

/-! ## Credits, items and completions -/

/-- The registers that items which leave or are taken in again move. -/
abbrev freedFields : List Fld := [.CU_FILL_USED, .CU_FILL_PEAK, .DU_CANCEL_CANCEL, .DU_CANCEL_RCANCEL]

/-- What returning credits and taking items in again leaves: memories, mailboxes, pitches, the twin, and every register but those. -/
structure FreedFrom (s t : State) : Prop where
  mem : t.mem = s.mem
  mbox : t.mbox = s.mbox
  pitch : t.pitch = s.pitch
  twin : t.twin = s.twin
  r : ∀ f u i, f ∉ freedFields → t.r f u i = s.r f u i

theorem FreedFrom.refl (s : State) : FreedFrom s s := ⟨rfl, rfl, rfl, rfl, fun _ _ _ _ => rfl⟩

theorem FreedFrom.trans {s t u : State} (h : FreedFrom s t) (g : FreedFrom t u) : FreedFrom s u :=
  ⟨g.mem.trans h.mem, g.mbox.trans h.mbox, g.pitch.trans h.pitch, g.twin.trans h.twin,
    fun f u i hf => (g.r f u i hf).trans (h.r f u i hf)⟩

/-- Items and queues of the dispatch unit are none of them. -/
theorem FreedFrom.disp {s t : State} {x : Disp} (h : FreedFrom { s with disp := x } t) : FreedFrom s t :=
  ⟨h.mem, h.mbox, h.pitch, h.twin, h.r⟩

theorem onLp_from (n : Nat) (f : LPort → LPort) (s : State) : FreedFrom s (s.onLp n f) := ⟨rfl, rfl, rfl, rfl, fun _ _ _ _ => rfl⟩

theorem ctrlWord_from (n code v : Nat) (s : State) : FreedFrom s (ctrlWord n code v s) := onLp_from ..

theorem releaseCr_from (n h d np : Nat) (s : State) : FreedFrom s (releaseCr n h d np s) := by
  have hif : ∀ (k v : Nat) (t : State), FreedFrom t (if k = 0 then t else ctrlWord n 2 v t) := by
    intro k v t
    split
    · exact FreedFrom.refl t
    · exact ctrlWord_from ..
  exact (onLp_from _ _ s).trans ((hif ..).trans ((hif ..).trans (hif ..)))

theorem msgFreed_from (x : Item) (s : State) : FreedFrom s (msgFreed x s) := by
  unfold msgFreed
  dsimp only
  split
  · exact releaseCr_from ..
  · split
    · exact releaseCr_from ..
    · exact FreedFrom.refl s

theorem inc_from (f : Fld) (u i n : Nat) (s : State) (hf : f ∈ freedFields) : FreedFrom s (s.inc f u i n) := by
  have h : ∀ g, g ∉ freedFields → g ≠ f := fun g hg e => hg (e ▸ hf)
  unfold State.inc
  exact ⟨by simp, by simp, by simp, by simp, fun g u' i' hg => by simp [State.r_w_ne _ _ _ _ _ _ _ _ (h g hg)]⟩

theorem raceCancel_from (s : State) : FreedFrom s (raceCancel s) :=
  (inc_from _ _ _ _ s (by decide)).trans (inc_from _ _ _ _ _ (by decide))

theorem cuFill_from (g : Nat) (s : State) : FreedFrom s (cuFill g s) := by
  have h : ∀ f, f ∉ freedFields → f ≠ .CU_FILL_USED ∧ f ≠ .CU_FILL_PEAK := by
    intro f hf
    constructor <;> (rintro rfl; exact hf (by decide))
  unfold cuFill State.hi
  exact ⟨by simp, by simp, by simp, by simp, fun f u i hf => by
    simp [State.r_w_ne _ _ _ _ _ _ _ _ (h f hf).1, State.r_w_ne _ _ _ _ _ _ _ _ (h f hf).2]⟩

theorem readmitFrom_from (l : List Item) : ∀ s : State, FreedFrom s (readmitFrom l s) := by
  induction l with
  | nil => exact FreedFrom.refl
  | cons x r ih =>
    intro s
    unfold readmitFrom
    split
    · refine FreedFrom.trans ?_ (ih _)
      refine FreedFrom.trans ?_ (msgFreed_from x _)
      dsimp only
      have hc : ∀ t u : State, FreedFrom s t → FreedFrom s u → FreedFrom s (if x.cls == 0 then cuFill x.prod t else u) := by
        intro t u ht hu
        split
        · exact ht.trans (cuFill_from ..)
        · exact hu
      have hr : ∀ (c : Bool) (t u : State), FreedFrom s t → FreedFrom s u → FreedFrom s (if c = true then raceCancel t else u) := by
        intro c t u ht hu
        split
        · exact ht.trans (raceCancel_from t)
        · exact hu
      refine hc _ _ (hr _ _ _ ?_ ?_) (hr _ _ _ ?_ ?_) <;> exact ⟨rfl, rfl, rfl, rfl, fun _ _ _ _ => rfl⟩
    · exact ih s

theorem readmit_from (s : State) : FreedFrom s (readmit s) := readmitFrom_from _ s

theorem freeCmd_from (d : Desc) (s : State) : FreedFrom s (freeCmd d s) := by
  unfold freeCmd
  exact FreedFrom.disp (readmit_from _)

/-- The mirror touches the twin's queue only. -/
theorem mirror_eq (m : MirrorItem) (s : State) :
    mirror m s = s ∨ mirror m s = { s with twin := { s.twin with queued := s.twin.queued ++ [m] } } := by
  unfold mirror
  split
  · exact Or.inr rfl
  · exact Or.inl rfl

theorem mirror_regs (m : MirrorItem) (s : State) : (mirror m s).regs = s.regs := by rcases mirror_eq m s with h | h <;> rw [h]
theorem mirror_mem (m : MirrorItem) (s : State) : (mirror m s).mem = s.mem := by rcases mirror_eq m s with h | h <;> rw [h]
theorem mirrorMb_regs (n : Nat) (s : State) : (mirrorMb n s).regs = s.regs := by
  unfold mirrorMb
  split
  · exact mirror_regs ..
  · rfl
theorem mirrorMb_mem (n : Nat) (s : State) : (mirrorMb n s).mem = s.mem := by
  unfold mirrorMb
  split
  · exact mirror_mem ..
  · rfl

theorem drained_mem (n : Nat) (s : State) : (drained n s).mem = s.mem := by
  unfold drained
  split
  · exact (mirrorMb_mem ..).trans rfl
  · rfl

theorem notifyCpl_from (d : Desc) (e : Nat) (s : State) : SentFrom s (notifyCpl d e s) := by
  unfold notifyCpl
  split
  · exact send_from ..
  · exact SentFrom.refl s

/-! ## The start of a host command -/

/-- No check fails, so none decides. -/
theorem firstBad_none {l : List (Bool × Nat)} (h : Passes l) : firstBad l = none := by
  induction l with
  | nil => rfl
  | cons c r ih =>
    obtain ⟨b, st⟩ := c
    have hb : b = false := h (b, st) (by simp)
    simp only [firstBad, hb, Bool.false_eq_true, if_false]
    exact ih fun c hc => h c (by simp [hc])

/-- An admitted command whose form checks pass runs its own step. -/
theorem runCmd_admitted {cmd : Nat} {d : Desc} {pre : List (Bool × Nat)} {body : State → State × Reply} {s : State}
    (ha : Admitted cmd d s) (hp : Passes pre) :
    runCmd cmd d pre body s = reply cmd d (body (started d s)).2 (body (started d s)).1 := by
  obtain ⟨h₁, h₂, h₃, h₄⟩ := ha
  have hr : (started d s).ready = true := h₂
  have ht : ((started d s).taken' d.mb && !takenCmd cmd d) = false := h₃
  have hf : firstBad ((d.rsv != 0, ST_RANGE) :: pre) = none := by
    simp only [firstBad, h₄, bne_self_eq_false, Bool.false_eq_true, if_false]
    exact firstBad_none hp
  simp only [runCmd, h₁, hr, ht, hf, if_true, Bool.not_true, Bool.false_eq_true, if_false]

/-- A step whose checks pass has its effect. -/
theorem checked_passes {l : List (Bool × Nat)} {ok : State × Reply} {s : State} (h : Passes l) : checked l ok s = ok := by
  unfold checked
  rw [firstBad_none h]

/-- A step with checks, all of which pass. -/
theorem runChecked_admitted {cmd : Nat} {d : Desc} {pre : List (Bool × Nat)} {l : State → List (Bool × Nat)} {ok : State → State × Reply}
    {s : State} (ha : Admitted cmd d s) (hp : Passes pre) (hl : Passes (l (started d s))) :
    runCmd cmd d pre (fun s => checked (l s) (ok s) s) s = reply cmd d (ok (started d s)).2 (ok (started d s)).1 := by
  rw [runCmd_admitted ha hp, checked_passes hl]

/-- A step that completes at once. -/
theorem runDone_admitted {cmd st : Nat} {d : Desc} {pre : List (Bool × Nat)} {l : State → List (Bool × Nat)} {after : State → State}
    {s : State} (ha : Admitted cmd d s) (hp : Passes pre) (hl : Passes (l (started d s))) :
    runCmd cmd d pre (fun s => checked (l s) (after s, .done st) s) s = complete cmd d st false 0 0 0 (after (started d s)) :=
  runChecked_admitted ha hp hl

/-- A step that completes later, of a command that frees its mailbox (R332). -/
theorem runLate_admitted {cmd : Nat} {d : Desc} {pre : List (Bool × Nat)} {l : State → List (Bool × Nat)} {after : State → State}
    {s : State} (ha : Admitted cmd d s) (hp : Passes pre) (hl : Passes (l (started d s))) (h : lateCmd cmd = true) :
    runCmd cmd d pre (fun s => checked (l s) (after s, .later) s) s = freeCmd d (after (started d s)) := by
  rw [runChecked_admitted ha hp hl, reply, if_pos h]

/-- A step that completes later and holds its mailbox. -/
theorem runLater_admitted {cmd : Nat} {d : Desc} {pre : List (Bool × Nat)} {l : State → List (Bool × Nat)} {after : State → State}
    {s : State} (ha : Admitted cmd d s) (hp : Passes pre) (hl : Passes (l (started d s))) (h : lateCmd cmd = false) :
    runCmd cmd d pre (fun s => checked (l s) (after s, .later) s) s = after (started d s) := by
  rw [runChecked_admitted ha hp hl, reply, h]; rfl

/-- A step without checks of its own. -/
theorem runBody_admitted {cmd st : Nat} {d : Desc} {pre : List (Bool × Nat)} {after : State → State} {s : State}
    (ha : Admitted cmd d s) (hp : Passes pre) :
    runCmd cmd d pre (fun s => (after s, .done st)) s = complete cmd d st false 0 0 0 (after (started d s)) :=
  runCmd_admitted ha hp

/-- A step written as an act. -/
theorem runAct_admitted {cmd : Nat} {d : Desc} {pre : List (Bool × Nat)} {act : State → Act} {s : State}
    (ha : Admitted cmd d s) (hp : Passes pre) (hc : Passes (act (started d s)).checks) :
    runAct cmd d pre act s = complete cmd d ST_OK false 0 0 0 (act (started d s)).after := by
  unfold runAct
  rw [runCmd_admitted ha hp, checked_passes hc]
  rfl

/-- A command that runs before READY as after it. -/
theorem runAlways_passes {cmd : Nat} {d : Desc} {pre : List (Bool × Nat)} {body : State → State × Reply} {s : State}
    (h : s.startable cmd d = true) (hr : d.rsv = 0) (hp : Passes pre) :
    runAlways cmd d pre body s = reply cmd d (body (started d s)).2 (body (started d s)).1 := by
  have hf : firstBad ((d.rsv != 0, ST_RANGE) :: pre) = none := by
    simp only [firstBad, hr, bne_self_eq_false, Bool.false_eq_true, if_false]
    exact firstBad_none hp
  simp only [runAlways, h, hf, if_true]

/-- A descriptor with reserved bits set is refused. -/
theorem runCmd_rsv {cmd : Nat} {d : Desc} {pre : List (Bool × Nat)} {body : State → State × Reply} {s : State}
    (h₁ : s.startable cmd d = true) (h₂ : s.ready = true) (h₃ : (s.taken' d.mb && !takenCmd cmd d) = false) (h₄ : d.rsv ≠ 0) :
    runCmd cmd d pre body s = complete cmd d ST_RANGE false 0 0 0 (started d s) := by
  have hr : (started d s).ready = true := h₂
  have ht : ((started d s).taken' d.mb && !takenCmd cmd d) = false := h₃
  have hb : (d.rsv != 0) = true := by simpa using h₄
  simp only [runCmd, h₁, hr, ht, if_true, Bool.not_true, Bool.false_eq_true, if_false, firstBad, hb]

/-- Before READY. -/
theorem runCmd_notReady {cmd : Nat} {d : Desc} {pre : List (Bool × Nat)} {body : State → State × Reply} {s : State}
    (h₁ : s.startable cmd d = true) (h₂ : s.ready = false) :
    runCmd cmd d pre body s = complete cmd d ST_STATE false 0 0 0 (started d s) := by
  have hr : (started d s).ready = false := h₂
  simp only [runCmd, h₁, hr, if_true, Bool.not_false]

/-- A command whose turn has not come. -/
theorem runCmd_waits {cmd : Nat} {d : Desc} {pre : List (Bool × Nat)} {body : State → State × Reply} {s : State}
    (h : s.startable cmd d = false) : runCmd cmd d pre body s = s := by
  simp only [runCmd, h, Bool.false_eq_true, if_false]

end Sys2Proof.Machine
end

