-- ==== Sys2Proof/WellFormed.lean ====
section
/-! DEFINITION. Well-formed commands and events: every operand lies in the range of the field, contact or message that
carries it. -/

namespace Sys2Proof

/-- A descriptor as Table MBX-1 lays it out, from a mailbox of R324 and over a port or I3C. -/
def Desc.wf (d : Desc) : Bool :=
  d.mb < 64 && d.index < 65536 && d.tag < 65536 && d.rsv < 2 ^ 30 && d.path != .flash &&
    [d.a0, d.a1, d.a2, d.a3, d.a4, d.a5, d.a6].all (· < 2 ^ 64)

/-- The fields of Table MIC-1 beside OPC. -/
def Micro.wf (w : Micro) : Bool := w.cond < 16 && w.next < 2 ^ 14 && w.dst < 16 && w.src < 16 && w.imm < 256

/-- Raw statistics of a channel or a TDCX: one entry for each of the 1,024 fine codes and the 96 taps that a list holds. -/
def CalRaw.wf (r : CalRaw) : Bool :=
  r.unit < 1040 && r.hist.length ≤ 1024 && [r.drv, r.den].all (·.length ≤ 96) && [r.cmh, r.cml].all (·.length ≤ 96) &&
    (r.cmh ++ r.cml).all (fun l => l.all (·.hits ≤ r.trials)) && r.cmlPath.length ≤ 96

/-- The 16 phases of a group as its 32 channels see them (R229). -/
def CalPhase.wf (c : CalPhase) : Bool := c.group < 32 && c.dev.length == 16 && c.dev.all (·.length == 32)

/-- A frame of Table RDG-3. -/
def Frame.wf (f : Frame) : Bool := f.bytes.length == 128

/-- Filter coefficients of R266, the pre-cursor and the post-cursor. -/
def firWf (x : Nat × Nat) : Bool := x.1 ≤ 16 && x.2 ≤ 25

/-- A header of Table RDG-7; `rsv` joins its 15 reserved bits. -/
def Txn.wf (h : Txn) : Bool :=
  h.ttype < 16 && h.cst < 16 && h.len < 256 && h.tag < 4096 && h.mcode < 65536 && h.group < 32 && h.addr < 2 ^ 64 && h.rsv < 2 ^ 15

/-- A capability block (R282). -/
def Capability.wf (c : Capability) : Bool := c.kind < 256 && c.ident < 2 ^ 64 && c.port < 256 && c.role < 4 && c.lanes ≤ 4 && c.polinv < 16

/-- A PTP message of the profile (Table GUY-5). -/
def PtpMsg.wf (m : PtpMsg) : Bool :=
  1 ≤ m.len && m.len ≤ 64 && m.domain < 256 && m.seq < 65536 && m.src < 2 ^ 80 && m.req < 2 ^ 80 && -2 ^ 63 ≤ m.corr && m.corr < 2 ^ 63 &&
    m.prio1 < 256 && m.cls < 256 && m.acc < 256 && m.var < 65536 && m.prio2 < 256 && m.gm < 2 ^ 64 && m.steps < 65536

/-- A flow handler's answer: a site, a 16-bit bin and 160 bytes of its own (Table TRU-11), or a fault cause. -/
def Handler.wf (h : Handler) : Bool :=
  match h with
  | .none => true
  | .result site bin user => site < 256 && bin < 65536 && user < 2 ^ 1280
  | .fault site cause => site < 256 && cause < 256

/-- A return's edges rise in time. -/
def Wave.wf (w : Wave) : Bool := (w.edges.zip (w.edges.drop 1)).all (fun e => e.1 < e.2)

/-- A read of one of the 49,152 pool pages (R80). -/
def PoolRead.wf (r : PoolRead) : Bool := r.page < 49152

/-- Whether a command or event is well-formed. -/
def Instr.wf (i : Instr) : Bool :=
  match i with
  | .unsupportedCommand d cmd => d.wf && cmd < 65536
  | .sysInfo d | .sysNop d | .sysAckShutdown d | .coatLoad d | .coatApply d | .coatList d | .chConfig d | .chPark d
  | .tsetWrite d | .tsetRead d | .tsetInvalidate d | .patBind d _ | .patStage d _ | .patQuota d | .patRing d | .patPrepare d
  | .patRelease d | .seqForm d | .seqFollow d | .seqLoad d | .seqProg d | .seqStart d | .seqStop d | .seqHalt d | .seqFlag d
  | .seqCounter d | .seqMark d | .seqPrime d | .seqService d | .capConfig d | .capTrigset d | .capBus d | .capArm d | .capTrig d
  | .capDisarm d | .capClear d | .capFirstfail d | .tdcSetup d | .tdcArm d | .tdcResult d | .tdcAbort d | .tdcRelease d
  | .tdcStrip d | .calRun d | .calCommit d | .calDiscard d | .calSysoff d | .vcmInfo d | .vcmErrlog d | .vcmFill d
  | .vcmRetrain d | .vcmScrub d | .linkConfig d | .linkEnable d | .linkDisable d | .linkLane d | .linkAperture d | .linkStatus d
  | .timeGuycfg d | .timeAlign d | .timeAccept d | .timePtpcfg d | .timeSet d | .timeRead d | .timeFwd d | .secQuote d
  | .secLog d | .secCert d | .secKeystate d | .secOwner d | .secDebug d | .secSeal d | .secLot d | .secRing d | .secFlow d
  | .thmConfig d | .thmRead d | .thmShutrec d | .recRead d | .recFlush d | .recCalendar d | .twinPair d | .twinUnpair d
  | .twinStatus d | .startDeadline d => d.wf
  | .patBindDone _ | .patStageDone _ _ | .patPrepareDone _ | .seqLoadDone _ _ | .calCommitDone | .vcmFillDone _ | .groupRamp
  | .descriptorTake _ | .mbDisable _ | .sqCmdResume _ | .sqCmdSnap _ | .interruptTake _ | .primerTimeout _ | .loopBegin _
  | .loopEnd _ | .call _ | .ret _ | .wait _ | .setflag _ | .startInstant _ | .underrun _ _ | .boundary _
  | .mapSegmentPublish _ | .edgePlacement _ _ | .markPulseEnd _ | .judgementResolve _ | .evaluation _
  | .triggerTimeout _ | .busLineEnd _ | .acquisitionOpen _ | .rearm _ | .disarmEnd _ | .recordRelease _ | .stopInstant _
  | .stoppingComplete _ | .coatWaitTimeout _ | .refMissingTimeout _ | .acqTimeout _ | .holdLimit _ | .grefTimeout
  | .grefFreqCheck _ | .grefReturn | .multiplierLock | .echoDrive | .reflectionTimeout
  | .pegWindowMiss | .timeAlignTimeout | .xtrigEdge _ _ _ _ | .parkNAssert _ | .parkNRelease _ | .tdcArmInstant _
  | .freqGateWindow _ | .measurementTimeout _ | .rowRepair _ | .refreshInterval _ | .dieTrip _
  | .throttleTick | .avsTick _ _ _ _ | .pmbusTimeout | .porstNAssert _ | .porstNRelease | .warmrstNAssert _ | .warmrstNRelease
  | .pwrfailNAssert _ | .emergencyPark | .i3cTimeout | .jtagInstruction _ | .laneLockTimeout _ | .ackTimeout _ | .ackSendTimer _
  | .idleReq _ | .idleAck _ | .idleNak _ | .idleDelayTimeout _ | .exitBurst _ | .wakeTx _ | .soak _ _ | .soakEnd _ _ _
  | .signalDetect _ | .alignDone _ | .trainingTimeout _ | .backoffEnd _ | .creditStall _
  | .announceTimeout | .tsqEntryTimeout _ | .tsqHoldTimeout _ | .workItemReady _ | .workItemDispatch _ | .duLoadWindow
  | .flowHangTimer _ | .flowEntryReturn _ | .flowEntryTimeout _ | .signatureDone | .reservationWriteDone _ | .sessionKeyGenerated
  | .sealTimer | .challengeExpiry | .flushTimer | .flushDone _ | .recReadRetry | .lifeSecond | .railSample _ | .laneHour _ _
  | .calendarCheck | .heartbeatSend | .heartbeatMiss | .failing | .syncDone | .twinPairTimeout | .twinAliveTimeout _
  | .twinAliveRange | .twinAliveReturn | .sidebandTimeout | .stageChunkTimeout _ | .deepStoreRowFeed _ _ | .refreshIssue _ _
  | .vcmWriteDrain _ | .ptpMessageInterval _ _ => true
  | .refStamp _ _ coarse _ | .tdcStamp _ _ _ coarse _ | .gpegPulse coarse _ _ => coarse < 2 ^ 64
  | .strobeSample _ cmh cml => cmh.wf && cml.wf
  | .vectorStart _ reads => reads.all PoolRead.wf
  | .calRunDone units phases => units.all CalRaw.wf && phases.all CalPhase.wf
  | .vcmRetrainDone fail => (fail.map (·.2)).all (· < 256)
  | .mbDb path _ v => path != .flash && v < 2 ^ 32
  | .mbCplConsWrite _ v | .evrConsWrite v | .phRegisterWrite _ _ v | .duQuotaWrite _ _ v => v < 2 ^ 32
  | .mbEnable _ cfg | .evrEnable cfg => cfg < 2 ^ 32
  | .sqCmdArm _ seg => seg < 2 ^ 20
  | .srCommit _ v | .cuStailWrite _ v | .resConsWrite v | .twMresConsWrite v => v < 2 ^ 64
  | .rcRead path off | .latchedPairRead path off => path != .flash && off < 65536
  | .registerWrite path off wide v => path != .flash && off < 65536 && v < 2 ^ (if wide then 64 else 32)
  | .nop _ w | .mov _ w | .ldi _ w | .add _ w | .addi _ w | .sub _ w | .and _ w | .or _ w | .xor _ w | .shl _ w | .shr _ w
  | .cmp _ w | .cmpi _ w | .ldent _ w | .fld _ w | .issue _ w | .push _ w | .pop _ w | .topw _ w | .ldins _ w | .disp _ w
  | .setf _ w | .clrl _ w | .armc _ w | .pndg _ w | .setstop _ w | .post _ w | .reti _ w | .csrr _ w | .csrw _ w
  | .reservedOpcode _ w => w.wf
  | .test _ w result => w.wf && result < 2 ^ 32
  | .vcmReadDone a err => a < 2 ^ 37 && err < 3
  | .thermalSample die hbm => die.all (·.1 < 96) && hbm.all (·.1 < 4)
  | .tdcx00CalDone x => x.wf
  | .startPhaseEnd die selfTestFail vcmFail td0 => die.all (·.1 < 96) && selfTestFail < 2 ^ 32 && (vcmFail.map (·.2)).all (· < 256) && td0.wf
  | .xspiTimeout ptype copy => ptype < 65536 && copy < 2
  | .i3cWrite off data => off < 65536 && data.length ≤ 8
  | .i3cPointer off => off < 65536
  | .codewordReceive _ tag line _ _ _ => tag < 2 ^ 20 && line.length == 640
  | .laneTrainDone _ a b => firWf (a, b)
  | .equalizeDone _ fir => fir.length == 4 && fir.all firWf
  | .frameReceive _ f => f.wf
  | .nak _ fseq => fseq < 4096
  | .credit _ _ count => count < 65536
  | .restripe _ map gen | .restripeAck _ map gen => map < 16 && gen < 16
  | .slowLaneCheck _ counts => counts.length ≤ 4
  | .signalLoss _ lanes => lanes < 16
  | .capabilityBlock _ cap => cap.wf
  | .mrd _ h _ => h.wf
  | .mwr _ h data | .cpl _ h data | .msg _ h data => h.wf && data.length == 4 * h.len
  | .mrdTimeout _ tag => tag < 4096
  | .startAt _ id mask peg seg report => id < 2 ^ 32 && mask < 2 ^ 32 && peg < 2 ^ 40 && seg < 2 ^ 21 && report < 16
  | .ptp _ m => m.wf
  | .workItemPost cls _ type key payload _ => cls < 8 && type < 256 && key < 65536 && payload < 2 ^ 192
  | .workItemDone _ results => results.all Handler.wf
  | .flowBudgetTimer _ site => site < 256
  | .heartbeat seq pstate => seq < 2 ^ 32 && pstate < 16
  | .mirror items => items.length ≤ 32
  | .mirrorAck n => n ≤ 32
  | .pair ident _ _ pages _ => ident < 2 ^ 64 && pages.all (fun e => e.1 < 65536 && e.2 < 65536)
  | .internalFault groups => groups < 2 ^ 32

end Sys2Proof
end

