-- ==== Sys2Proof/Tests/Slice0.lean ====
section
/-! SUPPORT. Small tests: what the checks refuse, the examples of the spec, and states that meet the conditions of the statements. -/

namespace Sys2Proof.Machine

open Sys2Proof

/-! ## Small states -/

def followImg : Nat := 2 ^ 30 +
    (100 * 2 ^ 20 + 8 * 2 ^ 14 + 1) * 2 ^ 32 + 0x00400000 * 2 ^ 64 + 0x06000000 * 2 ^ 96 + 16 * 2 ^ 16 * 2 ^ 128
/-- A READY device with mailbox 0 enabled. -/
def hostS : State := ({ State.reset with pwr := { porstLow := false } }.w .MB_CFG_EN 0 1).w .SYS_STATE_READY 0 1
def liveS : State := (hostS.w .PT_MEMBERS_MASK 0 1).w .PT_RUN_STATE 0 RUNNING
def portS (st : Nat) (x : LPort) : State := { hostS.w .LK_STATE_STATE 3 st with lport := [(3, x)] }
def laneS (st : Nat) : State := portS PUP {} |>.w .LK_LANE_LSTATE 3 st 1
def guyImg : Nat := 5 * 2 ^ 18
def linkImg : Nat := 2 ^ 23 + 2 ^ 160
def ptpImg : Nat := 47379453646049560575702594867819919436522155527796205733676724002552657600832210894592821745413841960319505635335411637193267873736500895197361145349204278636877088664314245425004476585958699331682485478904184737575918702166016
def stallP : Pkt := { h := { ttype := 2 } }
def vcmS : State := hostS.w .VCM_STATE_STATE 0 VUP
def twinS (st : Nat) : State := hostS.w .TW_STATE_STATE 0 st
def runS (x : Pitch) : State := { liveS.w .PH_SRC_KIND 0 1 with pitch := [(0, x)] }
def flowAtS (i : Nat) : State := runS { needFlow := true, prog := [i] }
def evalS : State := { runS { vec := 1, acq := { disarmAt := some 0 } } with chan := (upTo 32).map (fun c => (c, { resolved := [{ vec := 0 }] })) }
def vecS : State := { (runS {}).w .PG_LIMIT_LIMIT 0 1 with grp := [(0, { pool := [(0, some {})], tsets := [(0, { valid := true, period := 1024 })] })] }
def segImg : Nat := 512 * 2 ^ 48 + 2 ^ 80 + 3 * 2 ^ 112
def startS : State := { ((((vecS.w .PT_RUN_STATE 0 0).w .PT_SUPPLY_PREPARED 0 1).w .SQ_TBL_LEN_COUNT 0 1).w .PT_STATUS_TRK 0 2).storeN 0 0 32 segImg with
  guy := { hostS.guy with gref := true, mult := true, inRange := true, everLocked := true }
  pwr := { porstLow := false, parkNLow := false }
  grp := [(0, { tsets := [(0, { valid := true, period := 1024 })], leadFull := true })] }
def armedS : State := { (runS { armed := some { beat := 0 } }).w .PT_RUN_STATE 0 ARMED with guy := hostS.guy }
def stopS : State := (runS {}).w .PT_RUN_STATE 0 STOPPING
def markS : State := { hostS.w .MK_ROUTE_FORM 0 1 7 with mark := [(7, { active := true })] }
def mapS : State := (hostS.w .PT_STATUS_TRK 0 2).w .PH_FREQ_FREQ 0 0x01000000 |>.w .PH_SRC_KIND 0 3
def tdcImg : Nat := 1 + 2 ^ 48 + 2 ^ 80 + 2 ^ 112 + 5 * 2 ^ 8 + 2 ^ 45 + 143343663499379469475676305956380433799785311823017570233599302461682679755530300504376159569382855409664
def wqS : State := { vcmS with vport := [(127, { wq := [{}] })] }
def runDoneS : State := { hostS with jobs := [.calRun {}], cal := { hostS.cal with running := some (0, 0, 8, false) } }
def loadS : State := { hostS.storeN 0 0 32 segImg with jobs := [.load {} 0 0 0 1 4096] }
def prepS : State := { (((hostS.w .PT_MEMBERS_MASK 0 1).w .PG_LIMIT_LIMIT 0 1).w .PG_QUOTA_PAT_PAGES 0 100) with grp := [(0, { tsets := [(0, { valid := true })] })] }
def feedS : State := { (hostS.w .SR_CFG_USE 0 1).w .SR_CFG_PAGES 0 16 with ring := [(0, { src := some { port := 0, addr := 0, rows := 1 } })] }
def coatS (k : Nat) : State := hostS.storeN 3 0 64 (5 + k * 2 ^ 16 + 2 ^ 32 +
    (if k = 2 then 7 * 2 ^ 64 else 2 ^ 160 + 2 ^ 192) + 96 * 2 ^ 96)
def keyS : State := { hostS with sec := { sess := [{ keyId := 5, state := 3 }] } }
def ownS : State := (hostS.w .SEC_STATE_OWNER 0 1).storeN 3 0 128 (6 + 2 ^ 64 + 2 ^ 512)
def itemS : State := { hostS.w .FC_STATE_STATE 0 1 0 with now := 4, disp := { items := [{ cls := 5, type := 3, st := .ready 0 }], cores := [(0, { prog := some { sites := [{ site := 4 }] } })] } }
def flowP : FlowProg := { sites := [{ site := 4 }] }
def flowS : State := { hostS.w .FC_STATE_STATE 0 1 0 with disp := { items := [{ cls := 5, type := 3, st := .service 1 0 }], cores := [(0, { prog := some flowP })] } }
/-- A sequencer of group 3 in PRIMER mode whose next word is a given one. -/
def microS (opc : Nat) (w : Micro) : State := { (hostS.w .SQ_UCTL_UMODE 3 1).w .SQ_UCTL_URUN 3 1 with grp := [(3, { sq := { primer :=
  [(0, pack [(8, w.imm), (4, w.src), (4, w.dst), (5, opc), (14, w.next), (4, w.cond), (1, b2n w.int)])] } })] }

/-! ## Ill-formed terms are refused -/

theorem test_wf_desc : ({ mb := 64 } : Desc).wf = false ∧ ({ rsv := 2 ^ 30 } : Desc).wf = false ∧ ({ a6 := 2 ^ 64 } : Desc).wf = false ∧
    ({ path := .flash } : Desc).wf = false ∧ (Instr.patBind { tag := 65536 } false).wf = false ∧
        (Instr.patBind {} false).wf = true := by decide
theorem test_wf_micro : ({ cond := 16 } : Micro).wf = false ∧ ({ next := 2 ^ 14 } : Micro).wf = false ∧
    (Instr.add 0 { imm := 256 }).wf = false ∧
    (Instr.test 0 {} (2 ^ 32)).wf = false := by decide
theorem test_wf_calibration : ({ unit := 1040 } : CalRaw).wf = false ∧ ({ group := 32 } : CalPhase).wf = false ∧
    (Instr.calRunDone [{ cmlPath := List.replicate 97 0 }] []).wf = false ∧
        (Instr.calRunDone [] [{ dev := [[]] }]).wf = false := by decide
theorem test_wf_link : ({ bytes := [0] } : Frame).wf = false ∧ ({ tag := 4096 } : Txn).wf = false ∧
    ({ role := 4 } : Capability).wf = false ∧
    (Instr.mwr 0 { len := 2 } [0]).wf = false ∧ (Instr.nak 0 4096).wf = false ∧ (Instr.restripe 0 16 0).wf = false := by decide
theorem test_wf_time : ({ domain := 256 } : PtpMsg).wf = false ∧ (Instr.refStamp .gref true (2 ^ 64) 0).wf = false ∧
    (Instr.startAt 0 0 0 (2 ^ 40) 0 0).wf = false := by decide
theorem test_wf_dispatch : (Handler.result 256 0 0).wf = false ∧ (Instr.workItemPost 8 0 0 0 0 false).wf = false ∧
    (Instr.flowBudgetTimer 0 256).wf = false := by decide
theorem test_wf_registers : (Instr.registerWrite .i3c 65536 false 0).wf = false ∧
    (Instr.registerWrite .i3c 0 false (2 ^ 32)).wf = false ∧
    (Instr.mbDb .flash 0 0).wf = false ∧ (Instr.duQuotaWrite 0 true (2 ^ 32)).wf = false ∧
        (Instr.i3cWrite 0 (List.replicate 9 0)).wf = false := by
  decide
theorem test_wf_memory : (Instr.vcmReadDone (2 ^ 37) 0).wf = false ∧ (Instr.vcmReadDone 0 3).wf = false := by decide
theorem test_wf_twin : (Instr.heartbeat (2 ^ 32) 0).wf = false ∧ (Instr.mirrorAck 33).wf = false ∧
    (Instr.pair 0 false false [(65536, 0)] 0).wf = false := by
  decide

/-! ## Examples of the spec -/

/-- A = 0x12_3456_7C00 (R244): port 0x34, L = 0x2468_AC00, column 0x400, bank 21, row 9,320. -/
theorem test_vcm_example : vcmPort 0x1234567C00 = 0x34 ∧ vcmLocal 0x1234567C00 = 0x2468AC00 ∧ vcmLocal 0x1234567C00 % 2048 = 0x400 ∧
    vcmBank 0x1234567C00 = 21 ∧ vcmRow 0x1234567C00 = 9320 := by decide

/-- Channel CH0161 (R57): coarse 8 and phase 7 give 8 × 16 + 7; tap 4 of 254 and 318, 6 units early. -/
theorem test_place_example :
    let tab := (upTo 96).map (fun i => 64 * i - 2)
    let s := ((State.reset.w .CAL_APPLY_OFFSET 161 (unsint 32 (-3500)) 0).w .CH_SYSOFF_OFFSET 161 1200 0).onCh 161
        (fun x => { x with taps := [tab] })
    s.place 161 0 (s.sigCal 161 0) 555520 = { cp := 8 * 16 + 7, tap := 4, time := 553214 } := by decide +kernel

/-- The lost-edge example of R211: MEAN 4,177,920 and STD 96,929. -/
theorem test_tdc_example : ({ n := 4, x0 := 16384, s := -256, q := 589824 } : Meas).mean = 4177920 ∧
    ({ n := 4, x0 := 16384, s := -256, q := 589824 } : Meas).std = 96929 := by decide +kernel

/-- With CSR_SEL selecting G04, PT_PHASE_LO stands at 0x8024 and CH_STATUS of CH0133 at 0x9A1C (R351). -/
theorem test_csr_example : csrFind 0 4 0x8024 = some { reg := .PT_PHASE_LO, unit := 4, idx := 0, byte := 0 } ∧
    csrFind 0 4 0x8028 = some { reg := .PT_PHASE_HI, unit := 4, idx := 0, byte := 0 } ∧
    csrFind 0 4 0x9A1C = some { reg := .CH_STATUS, unit := 133, idx := 0, byte := 0 } := by decide +kernel

/-- The caps of the throttle episode (R423): 104.5, 99.0 and 93.5 W at k = 1, 2 and 3. -/
theorem test_cap_example : [1, 2,
    3].map (fun k => ({ State.reset.w .THM_STATE_CAP_STEP 0 k with pwr := { pcap := 110 } } : State).vcap) =
    [10450, 9900, 9350] := by decide

/-- Table PKG-2 and the totals of Table PKG-4. -/
theorem test_package_example : contactAt ⟨28, 115⟩ = some (.chan 417 .drv false) ∧ contactAt ⟨30, 112⟩ = some (.chan 417 .cml true) ∧
    contactAt ⟨29, 113⟩ = some .vss ∧ contactAt ⟨121, 35⟩ = some (.lane 29 true false) ∧
        contactAt ⟨120, 33⟩ = some (.lane 29 false true) := by
  decide +kernel
theorem test_package_totals : coreCount (fun _ => true) = 4272 ∧ coreCount (· == .vss) = 2987 ∧
    coreCount (· == .rail .vcore) = 400 := by
  decide +kernel

/-- The check value of the CRC-32 of R269 (PRESUMED: from IEEE 802.3). -/
theorem test_crc : crc32 ([0x31, 0x32, 0x33, 0x34, 0x35, 0x36, 0x37, 0x38, 0x39] : List Byte) = 0xCBF43926 := by decide +kernel

/-- A clear in the core cycle of a set, and after it (R365). -/
theorem test_clear_in_the_cycle_of_a_set :
    (w1c .PT_RUN_DEFER 0 0 1 (State.reset.setF .PT_RUN_DEFER 0)).r .PT_RUN_DEFER 0 = 1 ∧
    (w1c .PT_RUN_DEFER 0 0 1 (State.reset.w .PT_RUN_DEFER 0 1)).r .PT_RUN_DEFER 0 = 0 := by decide

/-! ## Witnesses of the general statements -/

theorem test_hostS_good : hostS.Good := ⟨by decide, by unfold regsWf; decide⟩

theorem test_StepsKeepTheInvariant_witness : hostS.Good ∧ step { hostS with pending := [.i3cTimeout] } = .next hostS :=
  ⟨test_hostS_good, rfl⟩
theorem test_CommandsLeaveTheQueueAndTheTime_witness : hostS.Good ∧ exec .i3cTimeout hostS = .next hostS := ⟨test_hostS_good, rfl⟩
theorem test_StepsRunTheQueue_witness : hostS.pending = [] ∧ hostS.Good ∧ State.reset.pending = [] ∧
    (newCycle State.reset).halted = true :=
  ⟨rfl, test_hostS_good, rfl, rfl⟩
theorem test_MemoriesReadAsWritten_witness : (hostS.space 3).wf = true ∧ min 0 4 ≠ min 3 4 ∧ 6 + [0, 0].length ≤ 8 := by decide
theorem test_PhasesCompareAcrossTheWrap_witness : phDiff (phAdd (2 ^ 64 - 1) (2 ^ 63 - 1)) (2 ^ 64 - 1) = 2 ^ 63 - 1 := by decide
theorem test_ThePhasePairShowsOnePhase_witness :
    let s : State := { State.reset with guy := { State.reset.guy with beat := 2 ^ 48 - 1 } }.w .PH_SRC_KIND 0 1
    s.phaseNow 0 < 2 ^ 64 ∧ (regRead .PT_PHASE_LO 0 0 s).2.r .PT_PHASE_HI_PHASE 0 = 2 ^ 32 - 1 := by decide

/-- A running pitch at the end of a pass with a pending jump and a stop of a cause due. -/
def jumpS (c : Nat) : State := runS { atEnd := true, defer := some { target := 3, at' := 0, order := 0 }, stops := [{ cause := c, when' := .boundary 0 }] }
theorem test_AStopDiscardsThePendingJump_witness :
    let ok (c : Nat) : Bool := let s := jumpS c
      s.pstate 0 == RUNNING && (s.pt 0).atEnd && !(s.pt 0).needFlow && s.reached 0 (s.pt 0).next && (s.pt 0).defer.isSome &&
        (quieted 0 s).boundaryStop 0 ((s.cycleOf 0 (s.pt 0).next).getD s.now) == some c
    ok 0xF = true ∧ ok 0xD = true := by decide

/-- The event ring with the records 2^32 − 1 and 0 unread. -/
def evrS : State := ((hostS.w .EVR_CFG_EN 0 1).w .EVR_PROD_COUNT 0 1).w .EVR_CONS_COUNT 0 (2 ^ 32 - 1)
theorem test_EventsAreDroppedOrWritten_witness : (evrS.Good ∧ hostS.Good) ∧ hostS.rb .EVR_CFG_EN = false ∧ evrS.rb .EVR_CFG_EN = true ∧
    dist32 (evrS.r .EVR_PROD_COUNT) (evrS.r .EVR_CONS_COUNT) < evrS.evrSize ∧
    dist32 0 (evrS.r .EVR_CONS_COUNT) < dist32 (evrS.r .EVR_PROD_COUNT) (evrS.r .EVR_CONS_COUNT) ∧
    (let t := evrS.w .EVR_PROD_COUNT 0 127; t.evrSize ≤ dist32 (t.r .EVR_PROD_COUNT) (t.r .EVR_CONS_COUNT)) :=
  ⟨⟨⟨by decide, by unfold regsWf; decide⟩, test_hostS_good⟩, by decide, by decide, by decide, by decide, by decide⟩
theorem test_UnknownCommandsAreUnsupported_witness : known 0x7777 = false ∧ Admitted 0x7777 {} hostS := by decide
theorem test_ReleaseUnpinsAnIdlePitch_witness :
    (Admitted 0x0506 {} hostS ∧ Passes [args {} 1, unit 32 0, hostS.pOff 0] ∧ hostS.idle 0 = true) ∧
    Admitted 0x0506 {} liveS ∧ Passes [args {} 1, unit 32 0, liveS.pOff 0] ∧ liveS.idle 0 = false ∧ 0 ∈ liveS.members 0 := by decide
theorem test_TheWindowSparesBoundArrays_witness : vecS.inBound (vecS.winAt .i3c 0x800000000).2 1 = true ∧
    hostS.inBound (hostS.winAt .i3c 0x800000000).2 1 = false := by decide
theorem test_CompletionsWriteTheirEntryOnly_witness : hostS.twinWaits = false ∧ (twinS 2).twinWaits = true ∧
    (twinS 3).twinWaits = true := by decide
theorem test_VcmAddressesDecodeByTheTable_witness : vcmPort (2 ^ 37 - 1) = 0 ∧ vcmLocal (2 ^ 37 - 1) = 2 ^ 30 - 1 := by decide
theorem test_EdgesTakeTheNearestTap_witness : nominalTaps ≠ [] ∧ (∀ x ∈ nominalTaps, x < 2 ^ 31) ∧ chooseTap nominalTaps 32 = 0 ∧
    chooseTap nominalTaps 33 = 1 := by decide
theorem test_CalibrationInterpolates_witness : (([(240, 7)] ++ (640, 0) :: (1040, 80) :: [(1440,
    5)] : List (Int × Int)).map (·.1)).Pairwise (· < ·) ∧
    calAt 0 840 ([(240, 7)] ++ (640, 0) :: (1040, 80) :: [(1440, 5)]) = 40 := by decide
theorem test_PostsAreAdmittedByQuota_witness : keyOk 0xFFFF = true ∧ hostS.duHp 5 0 < hostS.duR 5 ∧
    (let s := (hostS.w .DU_QUOTA_GUAR 0 0 5); ¬ s.duHp 5 0 < s.duR 5 ∧ s.duHp 5 0 < s.r .DU_CLASS_PLIM 0 5 ∧
      s.duHc 5 < s.r .DU_QUOTA_MAX 0 5 ∧ 0 < s.duShared) ∧
    (let s := (hostS.w .DU_QUOTA_GUAR 0 0 5).w .DU_CLASS_PLIM 0 0 5; ¬ s.duHp 5 0 < s.duR 5 ∧
        ¬ s.duHp 5 0 < s.r .DU_CLASS_PLIM 0 5) := by
  decide +kernel
theorem test_OneItemOfAKeyInService_witness : oneInService hostS ∧ ∃ t, exec (.workItemDispatch 0) hostS = .next t :=
  ⟨⟨by decide, fun _ hx => absurd hx List.not_mem_nil⟩, _, rfl⟩
theorem test_ThrottleTicksMoveKByOne_witness :
    let s : State := { hostS.w .THM_STATE_CAP_STEP 0 16 with pwr := { porstLow := false, ticking := true } }
    s.stopped = false ∧ s.pwr.ticking = true ∧ s.pwr.tickAt ≤ s.now ∧ s.r .THM_STATE_CAP_STEP ≤ 16 := by decide
theorem test_BeatOffCarriesIntoTheBeat_witness : hostS.guy.beat < 2 ^ 48 ∧ (moveBoff (-1) hostS).guy.beat = 1 ∧
    (moveBoff (-1) hostS).r .GY_BOFF_BEAT_OFF = 4194303 := by decide
theorem test_DoorbellsMoveTheProducerCount_witness : hostS.rb .MB_CFG_EN 0 = true ∧ hostS.mbox.draining.contains 0 = false ∧
    hostS.r .MB_PROD_COUNT 0 = 0 ∧ dist32 64 0 ≤ hostS.mbSize 0 - dist32 0 (hostS.r .MB_CONS_COUNT 0) ∧
    hostS.mbSize 0 - dist32 0 (hostS.r .MB_CONS_COUNT 0) < dist32 65 0 ∧ hostS.rb .MB_CFG_EN 1 = false := by decide
theorem test_QuotaWritesKeepTheSums_witness : hostS.quotaOk 0 2048 4096 (hostS.r .DU_CLASS_PLIM 0 0) = true ∧
    hostS.quotaOk 0 8193 8193 (hostS.r .DU_CLASS_PLIM 0 0) = false := by decide
theorem test_ReservedFieldsAreRefused_witness : hostCmd (.patBind { rsv := 1 } false) = some (0x0501, { rsv := 1 }) ∧
    hostS.startable 0x0501 { rsv := 1 } = true ∧ hostS.ready = true ∧
        (hostS.taken' 0 && !takenCmd 0x0501 { rsv := 1 }) = false := by decide
theorem test_CommandsAreTurnedAway_witness : (hostS.w .SYS_STATE_READY 0 0).ready = false ∧
    (hostS.w .SYS_STATE_READY 0 0).startable 0x0501 {} = true ∧ ¬beforeReady 0x0501 ∧
    (let s := (twinS 6).w .TW_STATE_HALF 0 1; s.startable 0x0501 {} = true ∧ s.ready = true ∧ s.taken' 0 = true) := by decide
theorem test_CommandsStartInRingOrder_witness : hostS.rb .MB_CFG_EN 1 = false ∧
    ([(({ index := 1 } : Desc), 0x0102)].find? (fun x => x.1.mb == 0)) = some ({ index := 1 }, 0x0102) ∧
    ({ hostS with jobs := [.bind {} 0] } : State).unfinished 0 ≠ 0 := by decide
theorem test_LinkRowsTouchTheLinkOnly_witness : linkQuiet (.idleNak 3) = true ∧ ∃ t, exec (.idleNak 3) hostS = .next t := ⟨rfl, _, rfl⟩
theorem test_FlowInstructionsTouchTheirPitchOnly_witness : flowPitch (.ret 31) = some 31 ∧
    ∃ t, exec (.ret 31) hostS = .next t := ⟨rfl, _, rfl⟩
theorem test_InnerRowsTouchNoRegister_witness : inner .i3cTimeout = true ∧ exec .i3cTimeout hostS = .next hostS := ⟨rfl, rfl⟩
theorem test_PlainMicrowordsWriteTheirDestinationOnly_witness :
    let w : Micro := { int := false, dst := 0, src := 0 }
    let s := microS 3 w
    plainMicro (.add 3 w) = some (3, 3, w, true) ∧ s.supplies 3 3 w = true ∧ (s.gp 3).sq.gap < 15 ∧
      (s.fetchAt 3).1 + 1 < storeEnd (s.fetchAt 3).2 ∧
      ((s.w .SQ_UPC_UPC 3 (2 ^ 14 - 2)).fetchAt 3).1 + 1 < storeEnd ((s.w .SQ_UPC_UPC 3 (2 ^ 14 - 2)).fetchAt 3).2 := by decide
theorem test_ConsumerCountsTouchThemselvesOnly_witness : consumer (.cuStailWrite 31 0) = some (.CU_STAIL_TAIL, 31, 0) ∧
    ∃ t, exec (.cuStailWrite 31 0) hostS = .next t := ⟨rfl, _, rfl⟩
theorem test_InterruptRowsTouchTheirSequencerOnly_witness : interruptRow (.sqCmdSnap 31) = some 31 ∧
    ∃ t, exec (.sqCmdSnap 31) hostS = .next t :=
  ⟨rfl, _, rfl⟩
theorem test_BlocksChangeTheirBytesOnly_witness : hostS.winAt .i3c 0x04000000 = (3, 0) ∧
    hostS.winAt .i3c 0x800000000 = (0, 0) := by decide
theorem test_AClearSparesWhatHardwareSets_witness : (Fld.info .PT_RUN_DEFER).acc = .W1C ∧ 0 < Fld.width .PT_RUN_DEFER := by decide
theorem test_KeysSpendReservedIndicesOnly_witness :
    let s : State := { hostS with sec := { sigs := [.scert 1 0] } }
    s.keyOf (.scert 1 0) = some s.sec.ident ∧ s.sec.ident.resEnd ≤ s.sec.ident.next := by decide

/-- A ROM fetch of an address that a match register holds reads the patch RAM, and the word runs from there (R136, R137). -/
theorem test_match_redirects :
    let v := pack [(8, 9), (4, 15), (4, 2), (5, 2), (14, 0), (4, 1), (1, 1)]
    let s : State := { (hostS.w .SQ_MATCH_WORD 3 (2 ^ 31 + 7 * 2 ^ 16 + 0x123) 63).w .SQ_UPC_UPC 3 0x123 with
      grp := [(3, { sq := { patch := [(7, v)] } })] }
    s.fetchAt 3 = (7, true) ∧ s.supplies 3 2 { dst := 2, imm := 9 } = true ∧ s.supplies 3 2 { dst := 2, imm := 8 } = false ∧
    ∃ t, exec (.ldi 3 { dst := 2, imm := 9 }) s = .next t ∧ (t.gp 3).sq.t1 = 9 ∧ t.r .SQ_UPC_UPC 3 = 8 ∧
        t.rb .SQ_UPC_UPATCH 3 = true := by
  refine ⟨by decide, by decide, by decide, _, rfl, by decide, by decide, by decide⟩

/-- A page that an owner needs comes from the group with the most borrowed pages (R82). -/
theorem test_reclaim_takes_the_largest :
    let s := (((hostS.w .PG_USE_HELD 0 16384).w .PG_USE_HELD 1 16384).w .PG_USE_BORROWED 2 9000).w .PG_USE_BORROWED 3 5337
    (reclaim s).r .PG_USE_BORROWED 2 = 8999 ∧ (reclaim s).r .PG_STATUS_RECLAIM_CNT 2 = 1 ∧ (reclaim s).r .PG_USE_BORROWED 3 = 5337 := by
  decide +kernel

/-! ## The conditions of the effects -/

/-- The conditions of AccessesTakeEffect can be met. -/
theorem test_AccessesTakeEffect_witness :
    whenMrd 3 ({ ttype := 1, len := 64, addr := 0x04000000 }) 2 (portS PUP {}) ∧
    whenMrdTimeout 3 0 (({}, 0)) ({ portS PUP { mrds := [({}, 0)] } with now := 10000 }) ∧
    whenCpl 3 ({ ttype := 4 }) ([]) (portS PUP {}) ∧
    whenMwr 3 ({ ttype := 2, len := 1, addr := 0x04000000 }) ([7]) (portS PUP {}) ∧
    whenMsg 3 ({ ttype := 5, len := 1, mcode := 1 }) ([7]) (portS PUP {}) ∧
    whenStartAt 3 1 1 100 0 12 (portS PUP {}) ∧
    whenI3cWrite 0xFFFC ([1, 2, 3, 4]) hostS ∧
    whenI3cPointer 65535 hostS := by
  and_intros <;> decide

/-- The conditions of CalibrationTakesEffect can be met. -/
theorem test_CalibrationTakesEffect_witness :
    whenCalCommit ({ a0 := 4 }) (hostS.w .CAL_MAP_STAGED 0 1) ∧
    whenCalCommitDone ({}) 7 ({ hostS with jobs := [.calCommit {} 7] }) ∧
    whenCalDiscard ({}) hostS := by
  and_intros <;> decide

/-- The conditions of CalibrationTakesEffect can be met. -/
theorem test_CalibrationTakesEffect_witness_long :
    whenCalRun ({ a0 := 0x04000000, a1 := 2, a2 := 8, a3 := 1 }) hostS ∧
    whenCalSysoff ({ a0 := 0x04000000, a1 := 0x04000400 }) hostS := by
  and_intros <;> decide +kernel

/-- The condition of CAL_RUN_DONE can be met. -/
theorem test_calRunDone_witness : ∃ x7 x8 x9, whenCalRunDone ([]) ([]) (.calRun {}) 0 0 8 false x7 x8 x9 runDoneS :=
  ⟨_, _, _, by decide, by decide, rfl, rfl, rfl⟩

/-- The conditions of MeasurementsTakeEffect can be met. -/
theorem test_MeasurementsTakeEffect_witness :
    whenTdcStamp 1039 true true 0 1023 hostS ∧
    whenTdcArmInstant 5 0 ({ (hostS.w .TD_STATE_USE 5 1) with meas := [(5, { st := MREADY, armAt := some 0 })] }) ∧
    whenFreqGateWindow 5 ({ (hostS.w .TD_STATE_USE 5 1) with meas := [(5, { st := MACTIVE, desc := 2 })], now := 10 ^ 12 }) ∧
    whenMeasurementTimeout 1039 ({ (hostS.w .TD_STATE_USE 1039 1) with meas := [(1039, { st := MACTIVE })], now := 10 ^ 15 }) ∧
    whenTdcStrip ({ a0 := 0, a1 := 3, a2 := 1, a3 := 1, a4 := 0xFFFFFFFF }) (hostS.w .PT_MEMBERS_MASK 0 1) := by
  and_intros <;> decide

/-- The conditions of MeasurementsTakeEffect can be met. -/
theorem test_MeasurementsTakeEffect_witness_long :
    whenTdcSetup ({ a0 := 5, a1 := 0x04000000 }) (hostS.storeN 3 0 64 tdcImg) ∧
    whenTdcArm ({ a0 := 0x04000000 }) hostS ∧
    whenTdcResult ({ a0 := 1039, a1 := 0x04000000 }) ({ (hostS.w .TD_STATE_USE 1039 1) with meas := [(1039, { st := MACTIVE })] }) ∧
    whenTdcAbort ({ a0 := 0x04000000 }) hostS ∧
    whenTdcRelease ({ a0 := 0x04000000 }) hostS := by
  and_intros <;> decide +kernel

/-- The conditions of CaptureCommandsTakeEffect can be met. -/
theorem test_CaptureCommandsTakeEffect_witness :
    whenCapConfig ({ a0 := 31, a1 := 0x04000000 }) hostS ∧
    whenCapTrigset ({ a0 := 31, a1 := 0x04000000 }) (hostS.store 3 0 ([0, 1, 1, 1, 1].flatMap (bytesOf 4))) ∧
    whenCapBus ({ a0 := 31, a1 := 0x10000 }) hostS ∧
    whenCapArm ({ a1 := 1, a2 := 1, a6 := 0x04000000 })
        ((((hostS.w .PT_MEMBERS_MASK 0 1).w .PG_QUOTA_CAP_PAGES 0 16).w .CU_DEST_KIND 0 1).store 3 0
        ([5] ++ List.replicate 23 0 ++ List.replicate 8 0xFF)) ∧
    whenCapTrig ({ a0 := 31 }) (hostS.setA 31 AWAIT) ∧
    whenCapDisarm ({ a0 := 31 }) hostS := by
  and_intros <;> decide

/-- The conditions of CaptureCommandsTakeEffect can be met. -/
theorem test_CaptureCommandsTakeEffect_witness_long :
    whenCapClear ({ a0 := 0x04000000 }) hostS ∧
    whenCapFirstfail ({ a0 := 0x04000000, a1 := 0x04001000 }) hostS := by
  and_intros <;> decide +kernel

/-- The conditions of MailboxAndRingWritesTakeEffect can be met. -/
theorem test_MailboxAndRingWritesTakeEffect_witness :
    whenMbEnable 63 48130 2147531778 (hostS.w .MB_CPLCFG_CPL_PAGE 63 48129) ∧
    whenMbDisable 0 hostS ∧
    whenMbDb .i3c 0 64 hostS ∧
    whenMbCplConsWrite 63 0xFFFFFFFF (hostS.w .MB_CPL_PROD_COUNT 63 0xFFFFFFFF) ∧
    whenEvrEnable 48200 hostS ∧
    whenEvrConsWrite 5 (hostS.w .EVR_PROD_COUNT 0 5) ∧
    whenCuStailWrite 31 0 hostS ∧
    whenResConsWrite 4096 ((hostS.w .RES_PROD_COUNT 0 4096).w .RES_SIZE_PAGES 0 1) ∧
    whenTwMresConsWrite 0 hostS ∧
    whenDuQuotaWrite 7 true 0 hostS ∧
    whenRcRead .i3c 44 ({ reg := .EVR_STAT, unit := 0, idx := 0, byte := 0 }) hostS ∧
    whenLatchedPairRead .i3c 1568 ({ reg := .GY_BEAT_LO, unit := 0, idx := 0, byte := 0 }) hostS ∧
    whenRegisterWrite .i3c 44 0 ({ reg := .EVR_STAT, unit := 0, idx := 0, byte := 0 }) hostS := by
  and_intros <;> decide

/-- The conditions of CommandsOfSysAndCoatsTakeEffect can be met. -/
theorem test_CommandsOfSysAndCoatsTakeEffect_witness :
    whenDescriptorTake 0 (hostS.w .MB_PROD_COUNT 0 1) ∧
    whenUnsupportedCommand ({}) 0xFFFF hostS ∧
    whenSysInfo ({ a0 := 0x04000000 }) hostS ∧
    whenSysNop ({ a0 := 0xFFFFFFFFFFFFFFFF }) hostS ∧
    whenCoatWaitTimeout 0 ({}) ({ hostS with mbox := { waits := [{}] } }) ∧
    whenCoatList ({ a0 := 0x04000000 }) hostS := by
  and_intros <;> decide

/-- The conditions of CommandsOfSysAndCoatsTakeEffect can be met. -/
theorem test_CommandsOfSysAndCoatsTakeEffect_witness_long :
    whenCoatLoad ({ a1 := 0x04000000 }) (coatS 1) ∧
    whenCoatApply ({ a0 := 0x04000000, a2 := 60000 }) ({ coatS 2 with mbox := { baseId := 7 } }) := by
  and_intros <;> decide +kernel

/-- The conditions of JudgementTakesEffect can be met. -/
theorem test_JudgementTakesEffect_witness :
    whenEdgePlacement 1 .drv 0 liveS ∧
    whenStrobeSample 1 ({}) ({}) 0 liveS ∧
    whenJudgementResolve 1 0 liveS ∧
    whenDisarmEnd 0 0 evalS ∧
    whenTriggerTimeout 0 (liveS.w .TR_CTL_EN 0 1) ∧
    whenAcquisitionOpen 0 evalS ∧
    whenRearm 0 evalS ∧
    whenRecordRelease 0 0 liveS ∧
    whenParkNAssert 20 hostS ∧
    whenUnderrun 0 0 0 ({ cause := 6, vec := 0, seg := 0, block := 0 }) ([]) (runS {}) := by
  and_intros <;> decide

/-- The condition of a row of JudgementTakesEffect can be met. -/
theorem test_JudgementTakesEffect_witness_long : whenChPark ({ a0 := 0x04000000 }) hostS := by decide +kernel

/-- The condition of XTRIG_EDGE can be met. -/
theorem test_xtrigEdge_witness : ∃ x5, whenXtrigEdge 7 true 0 2000 hostS x5 :=
  ⟨_, by decide, by decide, rfl⟩

/-- The conditions of LinkLayerTakesEffect can be met. -/
theorem test_LinkLayerTakesEffect_witness :
    whenRestripe 3 5 1 (portS PUP {}) ∧
    whenRestripeAck 3 5 1 (portS PUP { pend := some (5, 1) }) ∧
    whenLaneTrainDone 13 0 0 (laneS LLOST) ∧
    whenSoak 13 false (laneS LSOAK) ∧
    whenSoakEnd 13 true false ({ laneS LSOAK with now := 100000000 }) ∧
    whenSlowLaneCheck 3 ([(0, 1), (0, 100)]) 1 (((laneS LACTIVE).w .LK_STATE_LMAP 3 3).w .LK_SLOW_SLOW_THR 3 1) ∧
    whenNak 3 4096 (portS PUP {}) ∧
    whenAckTimeout 3 ({ portS PUP { replay := [(0, none)] } with now := 4000 }) ∧
    whenAckSendTimer 3 ({ portS PUP { rxUnacked := 1 } with now := 1000 }) ∧
    whenCredit 3 2 0 hostS ∧
    whenCreditStall 3 stallP ([]) ({ portS PUP { txq := [stallP], crHdr := 0, crData := 0 } with now := 100000000 }) ∧
    whenCodewordReceive 13 0 ([]) true true false (laneS LACTIVE) ∧
    whenSignalDetect 3 (portS 0 { phase := PDETECT }) ∧
    whenCapabilityBlock 3 ({ kind := 1, role := 0 }) (portS 0 { phase := PHANDSHAKE }) ∧
    whenEqualizeDone 3 ([]) (portS 0 { phase := PEQUALIZE }) ∧
    whenAlignDone 3 (portS 0 { phase := PALIGN }) ∧
    whenTrainingTimeout 3 ({ portS 0 { phase := PDETECT } with now := 20000000 }) ∧
    whenBackoffEnd 3 (portS 0 { phase := PBACKOFF }) ∧
    whenIdleDelayTimeout 3 ({ portS PUP {} |>.w .LK_CFG_IDLE_DELAY 3 1 with now := 1000 }) ∧
    whenIdleReq 3 (portS PUP { idleSent := true }) ∧
    whenIdleAck 3 (portS PUP { idleSent := true }) ∧
    whenIdleNak 3 (portS PUP { idleSent := true }) ∧
    whenExitBurst 3 (portS PIDLE {}) ∧
    whenWakeTx 3 ((portS PUP {}).w .LK_STATE_COMPAT 3 1) ∧
    whenLinkConfig ({ a0 := 11, a1 := 0x04000000 }) (hostS.storeN 3 0 24 linkImg) ∧
    whenLinkEnable ({ a0 := 0xFFF }) hostS ∧
    whenLinkDisable ({ a0 := 0xFFF }) hostS ∧
    whenLinkLane ({ a0 := 11, a1 := 47 }) hostS ∧
    whenLinkAperture ({ a0 := 11, a1 := 3 }) hostS ∧
    whenLinkStatus ({ a0 := 11, a1 := 0x04000000 }) hostS := by
  and_intros <;> decide

/-- The condition of SIGNAL_LOSS can be met. -/
theorem test_signalLoss_witness : ∃ x3, whenSignalLoss 3 15 (portS 0 { phase := PALIGN }) x3 :=
  ⟨_, by decide, rfl, by decide⟩

/-- The conditions of MicrowordsRun can be met. -/
theorem test_MicrowordsRun_witness :
    whenNop 3 ({ dst := 2, src := 1, imm := 5 }) (microS 0x00 { dst := 2, src := 1, imm := 5 }) ∧
    whenMov 3 ({ dst := 2, src := 1, imm := 5 }) (microS 0x01 { dst := 2, src := 1, imm := 5 }) ∧
    whenLdi 3 ({ dst := 2, src := 1, imm := 5 }) (microS 0x02 { dst := 2, src := 1, imm := 5 }) ∧
    whenAdd 3 ({ dst := 2, src := 1, imm := 5 }) (microS 0x03 { dst := 2, src := 1, imm := 5 }) ∧
    whenAddi 3 ({ dst := 2, src := 1, imm := 5 }) (microS 0x04 { dst := 2, src := 1, imm := 5 }) ∧
    whenSub 3 ({ dst := 2, src := 1, imm := 5 }) (microS 0x05 { dst := 2, src := 1, imm := 5 }) ∧
    whenAnd 3 ({ dst := 2, src := 1, imm := 5 }) (microS 0x06 { dst := 2, src := 1, imm := 5 }) ∧
    whenOr 3 ({ dst := 2, src := 1, imm := 5 }) (microS 0x07 { dst := 2, src := 1, imm := 5 }) ∧
    whenXor 3 ({ dst := 2, src := 1, imm := 5 }) (microS 0x08 { dst := 2, src := 1, imm := 5 }) ∧
    whenShl 3 ({ dst := 2, src := 1, imm := 5 }) (microS 0x09 { dst := 2, src := 1, imm := 5 }) ∧
    whenShr 3 ({ dst := 2, src := 1, imm := 5 }) (microS 0x0A { dst := 2, src := 1, imm := 5 }) ∧
    whenCmp 3 ({ dst := 2, src := 1, imm := 5 }) (microS 0x0B { dst := 2, src := 1, imm := 5 }) ∧
    whenCmpi 3 ({ dst := 2, src := 1, imm := 5 }) (microS 0x0C { dst := 2, src := 1, imm := 5 }) ∧
    whenLdent 3 ({ dst := 2, src := 1, imm := 5 }) (microS 0x0D { dst := 2, src := 1, imm := 5 }) ∧
    whenFld 3 ({ dst := 2, src := 1, imm := 5 }) (microS 0x0E { dst := 2, src := 1, imm := 5 }) ∧
    whenIssue 3 ({ dst := 2, src := 1, imm := 5 }) (microS 0x0F { dst := 2, src := 1, imm := 5 }) ∧
    whenPush 3 ({ dst := 2, src := 1, imm := 5 }) (microS 0x10 { dst := 2, src := 1, imm := 5 }) ∧
    whenPop 3 ({ dst := 2, src := 1, imm := 5 }) (microS 0x11 { dst := 2, src := 1, imm := 5 }) ∧
    whenTopw 3 ({ dst := 2, src := 1, imm := 5 }) (microS 0x12 { dst := 2, src := 1, imm := 5 }) ∧
    whenLdins 3 ({ dst := 2, src := 1, imm := 5 }) (microS 0x13 { dst := 2, src := 1, imm := 5 }) ∧
    whenSetf 3 ({ dst := 2, src := 1, imm := 5 }) (microS 0x15 { dst := 2, src := 1, imm := 5 }) ∧
    whenClrl 3 ({ dst := 2, src := 1, imm := 5 }) (microS 0x16 { dst := 2, src := 1, imm := 5 }) ∧
    whenArmc 3 ({ dst := 2, src := 1, imm := 5 }) (microS 0x17 { dst := 2, src := 1, imm := 5 }) ∧
    whenPndg 3 ({ dst := 2, src := 1, imm := 5 }) (microS 0x18 { dst := 2, src := 1, imm := 5 }) ∧
    whenSetstop 3 ({ dst := 2, src := 1, imm := 5 }) (microS 0x19 { dst := 2, src := 1, imm := 5 }) ∧
    whenPost 3 ({ dst := 2, src := 1, imm := 5 }) (microS 0x1A { dst := 2, src := 1, imm := 5 }) ∧
    whenCsrr 3 ({ dst := 2, src := 1, imm := 5 }) (microS 0x1D { dst := 2, src := 1, imm := 5 }) ∧
    whenCsrw 3 ({ dst := 2, src := 1, imm := 5 }) (microS 0x1E { dst := 2, src := 1, imm := 5 }) ∧
    whenTest 3 ({ dst := 2, src := 1, imm := 5 }) 1 (microS 0x1B { dst := 2, src := 1, imm := 5 }) ∧
    whenDisp 3 ({ dst := 2, src := 1, imm := 5 }) (microS 0x14 { dst := 2, src := 1, imm := 5 }) ∧
    whenReti 3 ({ dst := 2, src := 1, imm := 5 }) (microS 0x1C { dst := 2, src := 1, imm := 5 }) := by
  and_intros <;> decide

/-- The conditions of SequencerEventsTakeEffect can be met. -/
theorem test_SequencerEventsTakeEffect_witness :
    whenReservedOpcode 3 ({ dst := 2, src := 1, imm := 5 }) (microS 0x1F { dst := 2, src := 1, imm := 5 }) ∧
    whenSqCmdArm 31 5 hostS ∧
    whenSqCmdResume 31 hostS ∧
    whenSqCmdSnap 31 hostS ∧
    whenInterruptTake 31 ({ hostS.w .SQ_INTP_PEND 31 1 with grp := [(31, { sq := { lastInt := true } })] }) ∧
    whenPrimerTimeout 31 (hostS.w .SQ_UCTL_URUN 31 1) ∧
    whenSeqService ({ a0 := 0xFFFFFFFF }) hostS := by
  and_intros <;> decide

/-- The condition of SEQ_PRIME can be met. -/
theorem test_seqPrime_witness : ∃ x1 x2, whenSeqPrime ({ a0 := 1, a1 := 0x04000000, a3 := 60000 }) x1 x2 hostS :=
  ⟨_, _, by decide, by decide, rfl, rfl⟩

/-- The conditions of TimingAndChannelCommandsTakeEffect can be met. -/
theorem test_TimingAndChannelCommandsTakeEffect_witness :
    whenTsetRead ({ a0 := 31, a1 := 255, a2 := 0x04000000 }) hostS ∧
    whenTsetInvalidate ({ a0 := 31, a1 := 255 }) hostS := by
  and_intros <;> decide

/-- The conditions of TimingAndChannelCommandsTakeEffect can be met. -/
theorem test_TimingAndChannelCommandsTakeEffect_witness_long :
    whenChConfig ({ a0 := 0x04000000 }) hostS ∧
    whenTsetWrite ({ a0 := 31, a1 := 255, a2 := 0x04000000 }) hostS := by
  and_intros <;> decide +kernel

/-- The conditions of PatternCommandsTakeEffect can be met. -/
theorem test_PatternCommandsTakeEffect_witness :
    whenPatBindDone 31 (.bind {} 31) ({ hostS with jobs := [.bind {} 31] }) ∧
    whenPatQuota ({ a0 := 31, a1 := 5000 }) hostS ∧
    whenPatRing ({ a0 := 47, a1 := 1, a3 := 16, a4 := ALL1 }) hostS ∧
    whenPatStage ({ a0 := 31, a1 := 2, a2 := 47 }) false hostS ∧
    whenStageChunkTimeout 31 ({}) 31 0 0 ({ hostS with jobs := [.stageRing {} 31 0 0], now := 1000000000 }) ∧
    whenPatPrepareDone 0 (.prepare {} 0) ({ prepS with jobs := [.prepare {} 0] }) ∧
    whenPatRelease ({ a0 := 31 }) hostS ∧
    whenSrCommit 47 65536 (hostS.w .SR_CFG_PAGES 47 16) ∧
    whenDeepStoreRowFeed 0 0 ({ port := 0, addr := 0, rows := 1 }) feedS := by
  and_intros <;> decide

/-- The condition of a row of PatternCommandsTakeEffect can be met. -/
theorem test_PatternCommandsTakeEffect_witness_long : whenPatBind
    ({ a1 := 0, a2 := 4096, a3 := 8192, a4 := 1 }) true hostS := by decide +kernel

/-- The condition of PAT_STAGE_DONE can be met. -/
theorem test_patStageDone_witness : ∃ x9 x10 x11,
    whenPatStageDone 31 none ({}) 31 0 0 0 0 0 x9 x10 x11 ({ hostS with jobs := [.stage {} 31 0 0 0 0] }) :=
  ⟨_, _, _, by decide, by decide, rfl, rfl, rfl⟩

/-- The condition of PAT_PREPARE can be met. -/
theorem test_patPrepare_witness : ∃ x1, whenPatPrepare ({}) x1 prepS :=
  ⟨_, by decide, by decide, by decide, rfl, by decide⟩

/-- The conditions of PowerTakesEffect can be met. -/
theorem test_PowerTakesEffect_witness :
    whenThermalSample ([]) ([]) hostS ∧
    whenDieTrip 95 hostS ∧
    whenThrottleTick ({ hostS with pwr := { porstLow := false, ticking := true } }) ∧
    whenAvsTick true 750 1000 0 ({ hostS with pwr := { porstLow := false, phase := 8 }, now := 1000000 }) ∧
    whenPmbusTimeout hostS ∧
    whenPorstNAssert 1000 hostS ∧
    whenPorstNRelease (State.reset) ∧
    whenWarmrstNRelease ({ hostS with pwr := { porstLow := false, warmLow := true } }) ∧
    whenPwrfailNAssert 1000 hostS ∧
    whenFlushDone ([]) (hostS.w .REC_STAT_FLUSHING 0 1) ∧
    whenXspiTimeout 5 1 ({ hostS with pwr := { porstLow := false, phase := 2 } }) ∧
    whenStartPhaseEnd ([]) 0 none ({}) ({ hostS with pwr := { porstLow := false, phase := 7 } }) ∧
    whenThmConfig ({ a0 := 100, a1 := 110 }) hostS ∧
    whenThmRead ({ a0 := 0x04000000 }) hostS ∧
    whenThmShutrec ({ a0 := 0x04000000 }) hostS ∧
    whenSysAckShutdown ({}) (hostS.w .THM_STATE_SHUT_PEND 0 1) := by
  and_intros <;> decide

/-- The condition of WARMRST_N_ASSERT can be met. -/
theorem test_warmrstNAssert_witness : ∃ x1, whenWarmrstNAssert 1000 x1 hostS :=
  ⟨_, by decide, by decide, rfl⟩

/-- The conditions of SequencersPlay can be met. -/
theorem test_SequencersPlay_witness :
    whenBoundary 0 0 (runS { atEnd := true }) ∧
    whenLoopBegin 0 0 0 (flowAtS 0) ∧
    whenLoopEnd 0 8 0 (flowAtS 8) ∧
    whenCall 0 1 0 (flowAtS 1) ∧
    whenRet 0 2 0 (flowAtS 2) ∧
    whenWait 0 3 0 (flowAtS 3) ∧
    whenStartDeadline ({ a1 := 1 }) ({ hostS with mbox := { hostS.mbox with taken := [({ a1 := 1 }, 0x0605)] } }) ∧
    whenSeqStop ({}) liveS ∧
    whenStopInstant 0 13 0 (runS { stops := [{ cause := 13 }] }) ∧
    whenRefMissingTimeout 0 ({ mapS with pitch := [(0, { trk := { last := some 0 } })], now := 10 ^ 9 }) ∧
    whenHoldLimit 0 0 ({ (mapS.w .PT_STATUS_TRK 0 3).w .PH_HOLD_HOLD_LIMIT 0 1 with pitch := [(0, { trk := { lossAt := some 0 } })], now := 1000 }) ∧
    whenGrefTimeout ({ State.reset with guy := { State.reset.guy with gref := true }, now := 100 }) := by
  and_intros <;> decide

/-- The condition of SETFLAG can be met. -/
theorem test_setflag_witness : ∃ x4, whenSetflag 0 4 0 (flowAtS 4) x4 :=
  ⟨_, by decide, by decide, by decide, by decide, rfl⟩

/-- The condition of VECTOR_START can be met. -/
theorem test_vectorStart_witness : ∃ x2 x4, whenVectorStart 0 ([]) x2 ({ valid := true, period := 1024 }) x4 vecS :=
  ⟨_, _, by decide, by decide, by decide, by decide, by decide, rfl, rfl, by decide, by decide⟩

/-- The condition of SEQ_START can be met. -/
theorem test_seqStart_witness : ∃ x3, whenSeqStart ({ a0 := 1 }) none (some 0) x3 startS :=
  ⟨_, by decide, by decide, rfl, by decide, by decide, rfl⟩

/-- The condition of START_INSTANT can be met. -/
theorem test_startInstant_witness : ∃ x3 x4, whenStartInstant 0 0 ({ beat := 0 }) x3 x4 armedS :=
  ⟨_, _, by decide, by decide, rfl, rfl⟩

/-- The condition of STOPPING_COMPLETE can be met. -/
theorem test_stoppingComplete_witness : whenStoppingComplete 0 (forAll (upTo 8) settleMark stopS) stopS :=
  ⟨rfl, by decide, by decide⟩

/-- The condition of MARK_PULSE_END can be met. -/
theorem test_markPulseEnd_witness : whenMarkPulseEnd 7 (settleMark 7 markS) markS :=
  ⟨rfl, by decide, by decide, by decide, by decide⟩

/-- The conditions of SecurityCommandsTakeEffect can be met. -/
theorem test_SecurityCommandsTakeEffect_witness :
    whenSecQuote ({ a4 := 0x04000000 }) keyS ∧
    whenSecLog ({ a0 := 1, a1 := 1, a2 := 0x04000000 }) ({ hostS with sec := { log := [5] } }) ∧
    whenSecCert ({ a0 := 0x04000000 }) hostS ∧
    whenSecKeystate ({ a0 := 0x04000000 }) hostS ∧
    whenSecDebug ({ a0 := 1, a1 := 0x04000000 }) hostS ∧
    whenChallengeExpiry hostS ∧
    whenSecSeal ({}) keyS ∧
    whenSecLot ({ a1 := 0xFFFFFFFF }) (hostS.w .RES_SIZE_PAGES 0 16) ∧
    whenSecRing ({ a0 := 4096, a1 := 16 }) hostS ∧
    whenReservationWriteDone (.quote {} 0 0) ([]) ({ keyId := 5, state := 3 })
        ({ keyS with sec := { keyS.sec with resWrite := true, sigs := [.quote {} 0 0] } }) ∧
    whenSignatureDone ({}) 0 0 ([]) ({ keyId := 5, state := 3, resEnd := 32 })
        ({ keyS with sec := { keyS.sec with sigs := [.quote {} 0 0], sess := [{ keyId := 5, state := 3, resEnd := 32 }] } }) ∧
    whenSessionKeyGenerated ({ keyId := 6, state := 1, cert := [0] })
        ({ keyS with sec := { keyS.sec with sess := [{ keyId := 5, state := 3 }, { keyId := 6, state := 1, cert := [0] }] } }) ∧
    whenSealTimer 0 ({ hostS with sec := { unsealed := some 0 }, now := 55000000000 }) := by
  and_intros <;> decide

/-- The condition of a row of SecurityCommandsTakeEffect can be met. -/
theorem test_SecurityCommandsTakeEffect_witness_long : whenSecOwner ({ a0 := 1, a1 := 0x04000000 }) ownS := by decide +kernel

/-- The conditions of SeqCommandsTakeEffect can be met. -/
theorem test_SeqCommandsTakeEffect_witness :
    whenSeqLoad ({ a0 := 31, a1 := 2, a3 := 1048576, a4 := 4096 }) hostS ∧
    whenSeqProg ({ a0 := 3, a1 := 0x04000000, a2 := 1 }) ([8]) (hostS.storeN 3 0 8 8) ∧
    whenSeqFlag ({ a0 := 31, a1 := 0xFFFF, a2 := 0xFFFF }) hostS ∧
    whenSeqCounter ({ a0 := 31, a1 := 3, a2 := 0xFFFFFFFF }) hostS ∧
    whenSeqHalt ({ a0 := 1 }) (hostS.w .PT_RUN_STATE 1 2) ∧
    whenSeqMark ({ a0 := 7, a1 := 0x8000 }) hostS := by
  and_intros <;> decide

/-- The condition of SEQ_LOAD_DONE can be met. -/
theorem test_seqLoadDone_witness : whenSeqLoadDone 0 false ({}) 0 0 0 1 4096 loadS (dropJob (.load {} 0 0 0 1 4096) loadS) :=
  ⟨by decide, rfl, by decide⟩

/-- The conditions of TimeTakesEffect can be met. -/
theorem test_TimeTakesEffect_witness :
    whenEchoDrive 0 ({ hostS with guy := { hostS.guy with echoAt := some 0 } }) ∧
    whenReflectionTimeout 0 ({ hostS with guy := { hostS.guy with echoE := some 0, waitA := some 0 }, now := 10 ^ 12 }) ∧
    whenPegWindowMiss (hostS.guy.pegBeat + hostS.pegBeats)
        ({ hostS.w .GY_STATUS_ALIGNED 0 1 with guy := { hostS.guy with beat := 10 ^ 12 } }) ∧
    whenTimeGuycfg ({ a0 := 0x04000000 }) (hostS.storeN 3 0 12 guyImg) ∧
    whenTimeAlign ({ a0 := 10000 }) ({ hostS.w .GY_CFG_REFL 0 1 with guy := { hostS.guy with gref := true } }) ∧
    whenTimeAlignTimeout ({ d := {}, deadline := 0 })
        ({ hostS with guy := { hostS.guy with align := some { d := {}, deadline := 0 } } }) ∧
    whenTimeAccept ({ a0 := 1 }) (hostS.w .GY_STATUS_SHIFT_HOLD 0 1) ∧
    whenTimeSet ({ a0 := 0xFFFFFFFFFFFFFFFF }) hostS ∧
    whenTimeRead ({ a0 := 0x04000000 }) hostS ∧
    whenTimeFwd ({ a0 := 0xFFF }) hostS ∧
    whenAnnounceTimeout ({ portS PUP {} |>.w .PP_CFG_EN 3 1 with now := 10 ^ 12 }) ∧
    whenPtpMessageInterval 3 .sync (portS PUP {} |>.w .PP_CFG_EN 3 1) ∧
    whenTsqEntryTimeout 3 ({ hostS with ptp := [(3, { tsq := [{}] })], now := 100000000 }) ∧
    whenTsqHoldTimeout 3 ((0, .sync, 0)) ({ hostS with ptp := [(3, { held := some (0, .sync, 0) })], now := 1000000 }) := by
  and_intros <;> decide

/-- The condition of a row of TimeTakesEffect can be met. -/
theorem test_TimeTakesEffect_witness_long : whenTimePtpcfg ({ a0 := 0x04000000 }) (hostS.storeN 3 0 100 ptpImg) := by decide +kernel

/-- The condition of GPEG_PULSE can be met. -/
theorem test_gpegPulse_witness : ∃ x3 x4, whenGpegPulse 0 1023 16 x3 x4 hostS :=
  ⟨_, _, rfl, rfl⟩

/-- The condition of PTP can be met. -/
theorem test_ptp_witness : ∃ x2, whenPtp 3 ({ kind := PtpKind.sync, src := 7 * 65536 }) x2 (portS PUP {} |>.w .PP_CFG_EN 3 1) :=
  ⟨_, rfl, by decide, by decide, by decide, by decide, by decide⟩

/-- The conditions of TimelinesTakeEffect can be met. -/
theorem test_TimelinesTakeEffect_witness :
    whenPhRegisterWrite 0 .src (2 ^ 30) ((((hostS.w .PT_MEMBERS_MASK 0 1).wImg .PH_LOOP 0
        (100 * 2 ^ 20 + 8 * 2 ^ 14 + 1)).wImg .PH_FMIN 0 0x00400000 |>.wImg .PH_FMAX 0 0x06000000).wImg .PH_LIMIT 0 (16 * 2 ^ 16)) ∧
    whenSeqForm ({ a0 := 0, a1 := 0xFFFFFFFF }) hostS ∧
    whenGroupRamp ({}) ([3]) 0 ({ hostS with jobs := [.ramp {} [3] 0], now := 10 ^ 9 }) ∧
    whenAcqTimeout 31 ({ ((hostS.w .PT_STATUS_TRK 31 1).w .PH_SRC_KIND 31 3) with now := 10 ^ 15 }) ∧
    whenGrefReturn ({ hostS with guy := { hostS.guy with gref := false, inRange := true, rangeFrom := 0 }, now := 100000 }) ∧
    whenMultiplierLock ({ hostS with guy := { hostS.guy with gref := true, mult := false } }) ∧
    whenTdcx00CalDone ({}) ({ hostS.w .GY_STATUS_CALPEND 0 1 with guy := { hostS.guy with everLocked := true } }) ∧
    whenMapSegmentPublish 0 ((nextSeg (mapS.pt 0).trk ((mapS.now + 16) * ETU) (periodOf
        (mapS.r .PH_FREQ_FREQ 0)) false).getD {}) mapS := by
  and_intros <;> decide

/-- The condition of a row of TimelinesTakeEffect can be met. -/
theorem test_TimelinesTakeEffect_witness_long : whenSeqFollow ({ a0 := 0, a1 := 0x04000000 })
    ((hostS.w .PT_MEMBERS_MASK 0 1).storeN 3 0 24 followImg) := by decide +kernel

/-- The conditions of TwinTakesEffect can be met. -/
theorem test_TwinTakesEffect_witness :
    whenTwinPair ({ a0 := 5, a3 := 0x10000000, a4 := 16, a5 := 60000 }) hostS ∧
    whenTwinPairTimeout ({}) 0 ({ twinS TW_PAIRING with jobs := [.pair {} 0] }) ∧
    whenTwinStatus ({ a0 := 0x04000000 }) hostS ∧
    whenMirror ([]) (twinS TW_PAIRED) ∧
    whenMirrorAck 32 ({ twinS TW_SUSPECT with twin := { inFlight := 1, queued := [.completion 0 0 0] } }) ∧
    whenPair 5 true true ([]) true (twinS TW_PAIRING) ∧
    whenSyncDone (twinS TW_RESYNC) ∧
    whenHeartbeatSend ({ twinS TW_SEPARATED with now := 50000 }) ∧
    whenHeartbeat 0xFFFFFFFF 3 (twinS TW_RESYNC) ∧
    whenHeartbeatMiss ({ twinS TW_PAIRED with now := 60000 }) ∧
    whenFailing (twinS TW_SUSPECT) ∧
    whenTwinAliveRange (twinS TW_PAIRED) ∧
    whenSidebandTimeout 0 ({ twinS TW_PAIRED with twin := { badSince := some 0 }, now := 1000000 }) := by
  and_intros <;> decide

/-- The condition of TWIN_UNPAIR can be met. -/
theorem test_twinUnpair_witness : ∃ x1, whenTwinUnpair ({}) x1 hostS :=
  ⟨_, by decide, by decide, rfl⟩

/-- The condition of TWIN_ALIVE_TIMEOUT can be met. -/
theorem test_twinAliveTimeout_witness : ∃ x1, whenTwinAliveTimeout true x1 (twinS TW_PAIRED) :=
  ⟨_, rfl⟩

/-- The condition of INTERNAL_FAULT can be met. -/
theorem test_internalFault_witness : ∃ x1, whenInternalFault 0 x1 (twinS TW_PAIRED) :=
  ⟨_, rfl, by decide, by decide, by decide⟩

/-- The conditions of VectorCacheTakesEffect can be met. -/
theorem test_VectorCacheTakesEffect_witness :
    whenRefreshInterval 127 ({ vcmS with now := 10 ^ 9 }) ∧
    whenRefreshIssue 127 true (vcmS.w .VP_STAT_RMODE 127 URGENT) ∧
    whenVcmReadDone 0x1FFFFFFFFF 2 vcmS ∧
    whenRowRepair 127 ({}) ([]) ({ vcmS with vport := [(127, { retire := [{}] })] }) ∧
    whenVcmErrlog ({ a0 := 0x04000000, a1 := 0xFFFFFFFFFFFFFFFF }) hostS ∧
    whenVcmFill ({ a0 := 0x1FFFFFFFC0, a1 := 64, a2 := 1 }) vcmS ∧
    whenVcmFillDone 0 ({}) 0 64 7 ({ vcmS with jobs := [.fill {} 0 64 7] }) ∧
    whenVcmRetrain ({}) vcmS ∧
    whenVcmRetrainDone (some (127, 2)) (.retrain {}) ({ vcmS with jobs := [.retrain {}] }) ∧
    whenVcmScrub ({ a0 := 1 }) hostS := by
  and_intros <;> decide

/-- The condition of a row of VectorCacheTakesEffect can be met. -/
theorem test_VectorCacheTakesEffect_witness_long : whenVcmInfo ({ a0 := 0x04000000 }) hostS := by decide +kernel

/-- The condition of VCM_WRITE_DRAIN can be met. -/
theorem test_vcmWriteDrain_witness : ∃ x2, whenVcmWriteDrain 127 ({}) x2 wqS :=
  ⟨_, by decide, by decide, by decide, by decide, rfl⟩

/-- The conditions of WorkItemsAreServed can be met. -/
theorem test_WorkItemsAreServed_witness :
    whenWorkItemPost 0 31 0 0 0 true hostS ∧
    whenWorkItemReady 0 ({ hostS with disp := { items := [{ cls := 1, st := .held }] } }) ∧
    whenWorkItemDone 16 ([]) ({ cls := 5, type := 3, st := .service 16 0 })
        ({ hostS with disp := { items := [{ cls := 5, type := 3, st := .service 16 0 }] } }) ∧
    whenFlowBudgetTimer 0 4 ({ cls := 5, type := 3, st := .service 1 0 }) flowP ({ site := 4 }) 1 0 flowS ∧
    whenSecFlow ({ a0 := 15 }) hostS ∧
    whenFlowEntryReturn 3 ({}) 0 ({ hostS with jobs := [.flowEntry {} 3 0] }) ∧
    whenFlowEntryTimeout 3 ({}) 0 ({ hostS with jobs := [.flowEntry {} 3 0], now := 10000000 }) := by
  and_intros <;> decide

/-- The condition of WORK_ITEM_DISPATCH can be met. -/
theorem test_workItemDispatch_witness : ∃ x2, whenWorkItemDispatch 1 ({ cls := 5, type := 3, st := .ready 0 }) x2 itemS :=
  ⟨_, rfl, by decide, by decide, by decide, by decide⟩

/-- The condition of DU_LOAD_WINDOW can be met. -/
theorem test_duLoadWindow_witness : ∃ x0, whenDuLoadWindow x0 ({ hostS with now := 1000000 }) :=
  ⟨_, by decide, rfl⟩

/-- The condition of FLOW_HANG_TIMER can be met. -/
theorem test_flowHangTimer_witness : ∃ x5,
    whenFlowHangTimer 0 ({ cls := 5, type := 3, st := .service 1 0 }) flowP 1 0 x5 ({ flowS with now := 10 ^ 9 }) :=
  ⟨_, by decide, by decide, by decide, by decide, by decide, rfl⟩

/-- The conditions of RecordCommandsTakeEffect can be met. -/
theorem test_RecordCommandsTakeEffect_witness :
    whenRecRead ({ a0 := 1, a3 := 4, a4 := 0x04000000 }) hostS ∧
    whenCalendarCheck 0 (hostS.w .TM_STATUS_LOCKED 0 1) ∧
    whenRecCalendar ({ a0 := 1, a1 := 2 ^ 48 - 1 }) hostS ∧
    whenRecFlush ({}) hostS ∧
    whenFlushTimer (hostS.w .REC_AGE_SECONDS 0 600) ∧
    whenLaneHour 47 9 ({ hostS.w .LK_LANE_LSTATE 11 LACTIVE 3 with now := 3600000000000 }) := by
  and_intros <;> decide

/-- The condition of REC_READ_RETRY can be met. -/
theorem test_recReadRetry_witness : ∃ x3,
    whenRecReadRetry ({ a0 := 1, a3 := 4, a4 := 0x04000000 }) 1 0 x3
    ({ hostS with jobs := [.recRead { a0 := 1, a3 := 4, a4 := 0x04000000 } 1 0], now := 10000 }) :=
  ⟨_, by decide, rfl, by decide⟩

end Sys2Proof.Machine
end

section
/-! SUPPORT. Commands that the manual does not name (R2, R420, R454). -/

namespace Sys2Proof.Machine

open Sys2Proof

/-! ## Commands that the manual does not name -/

/-- The manual names every command that the survivor of a takeover runs on a partner-half mailbox (R454). -/
theorem known_of_takenCmd {cmd : Nat} {d : Desc} (h : takenCmd cmd d = true) : known cmd = true := by
  simp only [takenCmd, Bool.or_eq_true, Bool.and_eq_true, beq_iff_eq] at h
  obtain (((rfl | rfl) | rfl) | ⟨rfl, -⟩) | rfl := h <;> decide

/-- So the survivor runs no unknown command there. -/
theorem takenCmd_unknown {cmd : Nat} {d : Desc} (h : known cmd = false) : takenCmd cmd d = false := by
  cases ht : takenCmd cmd d with
  | false => rfl
  | true => exact absurd (known_of_takenCmd ht) (by simp [h])

/-- An unknown command that may start, on a READY device and a mailbox that is not taken over (R2, R420, R454). -/
theorem execUnsupportedCommand_unknown {cmd : Nat} {d : Desc} {s : State} (hlt : cmd < 65536) (hk : known cmd = false)
    (hs : s.startable cmd d = true) (hr : s.ready = true) (ht : s.taken' d.mb = false) :
    execUnsupportedCommand d cmd s = .next (complete cmd d ST_UNSUPPORTED false 0 0 0 (started d s)) := by
  have hr' : (started d s).ready = true := hr
  have ht' : (started d s).taken' d.mb = false := ht
  simp [execUnsupportedCommand, hk, hs, hr', ht', Nat.not_le.mpr hlt]

/-- Settles O13. Admission lets a taken-over mailbox through for the commands of R454 only, and those are all named. -/
theorem unknownCommandsAreUnsupported : Obligations.UnknownCommandsAreUnsupported := by
  unfold Obligations.UnknownCommandsAreUnsupported
  intro d cmd s hlt hk ⟨hs, hr, ht, _⟩
  rw [takenCmd_unknown hk, Bool.not_false, Bool.and_true] at ht
  exact execUnsupportedCommand_unknown hlt hk hs hr ht

end Sys2Proof.Machine
end

section
/-! SUPPORT. The latched phase pair of a pitch (R39). -/

namespace Sys2Proof.Machine

open Sys2Proof

/-! ## The latched phase pair -/

/-- PT_PHASE_LO shows the low half of the present phase, and its read latches the high half (R39). -/
theorem regRead_phaseLo (u i : Nat) (s : State) :
    regRead .PT_PHASE_LO u i s = (s.phaseNow u % 2 ^ 32, s.w .PT_PHASE_HI_PHASE u (s.phaseNow u / 2 ^ 32)) := rfl

/-- PT_PHASE_HI shows the latch, and its read leaves the state: it is no low register of a pair and holds no RC field (R39). -/
theorem regRead_phaseHi (u i : Nat) (s : State) :
    regRead .PT_PHASE_HI u i s = (s.r .PT_PHASE_HI_PHASE u i % 2 ^ 32, s) := by
  have hslots : s.slots .PT_PHASE_HI i = [(.PT_PHASE_HI_PHASE, i, 0)] := rfl
  have hacc : Fld.PT_PHASE_HI_PHASE.info.acc ≠ .RC := by decide
  have hvalue : s.readValue .PT_PHASE_HI u i = 0 + s.r .PT_PHASE_HI_PHASE u i % 2 ^ 32 * 2 ^ 0 := rfl
  have hlatch : latchHi .PT_PHASE_HI u s = s := rfl
  simp [regRead, hslots, hacc, hvalue, hlatch]

/-- Settles O9. The latch has room for the whole high half of a 64-bit phase, so the two reads join to the phase of the first. -/
theorem thePhasePairShowsOnePhase : Obligations.ThePhasePairShowsOnePhase := by
  unfold Obligations.ThePhasePairShowsOnePhase
  intro u s t hphase hlatch
  have hhigh : s.phaseNow u / 2 ^ 32 < 2 ^ 32 := Nat.div_lt_of_lt_mul hphase
  have hkept : t.r .PT_PHASE_HI_PHASE u = s.phaseNow u / 2 ^ 32 := by
    rw [hlatch, regRead_phaseLo, State.r_w_self]
    exact Nat.mod_eq_of_lt hhigh
  rw [regRead_phaseHi, regRead_phaseLo, hkept, Nat.mod_eq_of_lt hhigh]
  exact ⟨rfl, rfl, Nat.div_add_mod' _ _⟩

end Sys2Proof.Machine
end

section
/-! SUPPORT. An operation over a list of units: what all its steps keep, and what one of them attains. -/

namespace Sys2Proof.Machine

section
variable {l : List Nat} {f : Nat → State → State} {s : State}

/-- What no step changes, the whole operation does not change. -/
theorem forAll_keeps {α : Type} {φ : State → α} (h : ∀ k ∈ l, ∀ t, φ (f k t) = φ t) : φ (forAll l f s) = φ s := by
  induction l generalizing s with
  | nil => rfl
  | cons k r ih => exact (ih fun j hj => h j (by simp [hj])).trans (h k (by simp) s)

/-- What holds at first and every step preserves, the whole operation preserves. -/
theorem forAll_preserves {P : State → Prop} (hs : P s) (h : ∀ k ∈ l, ∀ t, P t → P (f k t)) : P (forAll l f s) := by
  induction l generalizing s with
  | nil => exact hs
  | cons k r ih => exact ih (h k (by simp) s hs) fun j hj => h j (by simp [hj])

/-- What the step of one unit of the list attains and every step preserves holds in the end. -/
theorem forAll_attains {P : State → Prop} {k : Nat} (hk : k ∈ l) (hset : ∀ t, P (f k t))
    (h : ∀ j ∈ l, ∀ t, P t → P (f j t)) : P (forAll l f s) := by
  induction l generalizing s with
  | nil => simp at hk
  | cons j r ih =>
    have hr : ∀ i ∈ r, ∀ t, P t → P (f i t) := fun i hi => h i (by simp [hi])
    rcases List.mem_cons.mp hk with rfl | hk
    · exact forAll_preserves (s := f k s) (hset s) hr
    · exact ih hk hr

end

end Sys2Proof.Machine
end

section
/-! SUPPORT. The device window and the arrays of bound groups (R79). -/

namespace Sys2Proof.Machine

open Sys2Proof

section
variable {s : State} {path : Path} {a : Nat} {b : List Byte}

/-- From 0x8_0000_0000 up the window shows VCM. -/
theorem winAt_aperture (hp : path ≠ .flash) (ha : 0x800000000 ≤ a) : (s.winAt path a).1 = 0 := by
  simp [State.winAt, hp, Nat.not_lt.mpr ha]

/-- Where a window address lies depends on the APBASE registers only. -/
theorem winAt_congr {t : State} (h : ∀ n, t.r .LK_APER_APBASE n = s.r .LK_APER_APBASE n) : t.winAt path a = s.winAt path a := by
  have hbase : t.apbase path = s.apbase path := by
    cases path with
    | port n => exact h n
    | i3c | flash => rfl
  unfold State.winAt
  rw [hbase]

/-- A read of the aperture answers the bytes of VCM. -/
theorem winLoad_aperture (n : Nat) (hp : path ≠ .flash) (ha : 0x800000000 ≤ a) :
    s.winLoad path a n = s.mem.vcm.rds (s.winAt path a).2 n := by
  unfold State.winLoad
  rw [winAt_aperture hp ha]
  rfl

/-- A write that touches a bound array is counted, and that is all it does. -/
theorem winStore_bound (hp : path ≠ .flash) (ha : 0x800000000 ≤ a) (hb : s.inBound (s.winAt path a).2 b.length = true) :
    s.winStore path a b = s.inc .POOL_ERR_WIN_REJECT_CNT := by
  simp [State.winStore, winAt_aperture hp ha, hb]

/-- A write that touches no bound array is stored, and clears PREPARED of the pitches whose segment table it meets (R91). -/
theorem winStore_free (hp : path ≠ .flash) (ha : 0x800000000 ≤ a) (hb : s.inBound (s.winAt path a).2 b.length = false) :
    s.winStore path a b = forAll ((upTo 32).filter (fun p => clash (s.tableAt p) ((s.winAt path a).2, b.length))) clearPrep
      (s.store 0 (s.winAt path a).2 b) := by
  simp only [State.winStore, winAt_aperture hp ha, hb, Bool.and_false, Bool.false_eq_true, if_false, if_true]
  rfl

/-- Clearing PREPARED of a pitch leaves every other register. -/
theorem clearPrep_r_of_not (p : Nat) (s : State) {f : Fld} {u : Nat} (i : Nat) (h : ¬(f = .PT_SUPPLY_PREPARED ∧ u = p)) :
    (clearPrep p s).r f u i = s.r f u i :=
  s.r_w_key _ _ _ _ _ _ _ fun hkey => h ⟨(RKey.mk.inj hkey).1, (RKey.mk.inj hkey).2.1⟩

/-- Clearing PREPARED of any pitches leaves the memories. -/
theorem forAll_clearPrep_mem (l : List Nat) (s : State) : (forAll l clearPrep s).mem = s.mem :=
  forAll_keeps (φ := State.mem) fun _ _ _ => rfl

/-- Clearing PREPARED of any pitches leaves every other register. -/
theorem forAll_clearPrep_r (l : List Nat) (s : State) {f : Fld} (u i : Nat) (hf : f ≠ .PT_SUPPLY_PREPARED) :
    (forAll l clearPrep s).r f u i = s.r f u i :=
  forAll_keeps (φ := fun t => t.r f u i) fun p _ t => clearPrep_r_of_not p t i fun h => hf h.1

/-- VCM after a write that touches no bound array. -/
theorem winStore_free_vcm (hp : path ≠ .flash) (ha : 0x800000000 ≤ a) (hb : s.inBound (s.winAt path a).2 b.length = false) :
    (s.winStore path a b).mem.vcm = s.mem.vcm.wrs (s.winAt path a).2 b := by
  rw [winStore_free hp ha hb, forAll_clearPrep_mem]
  exact s.space_store 0 _ b

/-- A write that touches no bound array leaves the aperture where it was. -/
theorem winStore_free_winAt (hp : path ≠ .flash) (ha : 0x800000000 ≤ a) (hb : s.inBound (s.winAt path a).2 b.length = false) :
    (s.winStore path a b).winAt path a = s.winAt path a := by
  rw [winStore_free hp ha hb]
  exact winAt_congr fun n => forAll_clearPrep_r _ _ _ _ (by decide)

/-- What a write stored, a read of the same window bytes answers. -/
theorem winLoad_winStore_free (hp : path ≠ .flash) (ha : 0x800000000 ≤ a)
    (hb : s.inBound (s.winAt path a).2 b.length = false) : (s.winStore path a b).winLoad path a b.length = b := by
  rw [winLoad_aperture _ hp ha, winStore_free_winAt hp ha hb, winStore_free_vcm hp ha hb, Mem.rds_wrs]

end

/-- Settles O15. A write into the aperture either only counts or only stores, by whether it touches a bound array. -/
theorem theWindowSparesBoundArrays : Obligations.TheWindowSparesBoundArrays := by
  unfold Obligations.TheWindowSparesBoundArrays
  intro path a b s hp ha
  refine ⟨fun hb => ?discarded, fun hb => ⟨winLoad_winStore_free hp ha hb, fun c hc => ?outside⟩, fun n => winLoad_aperture n hp ha⟩
  case discarded =>
    rw [winStore_bound hp ha hb]
    refine ⟨noteUp_mem _ _ _, s.r_inc _ _ _ _, fun f u i hf => s.r_inc_key _ _ _ _ _ _ _ fun hkey => ?_⟩
    exact hf (RKey.mk.inj hkey).1
  case outside =>
    rw [winStore_free_vcm hp ha hb, Mem.rd_wrs_out _ _ _ _ hc]

end Sys2Proof.Machine
end

section
/-! SUPPORT. The release of a pitch's pages (R92). -/

namespace Sys2Proof.Machine

open Sys2Proof

/-! ## One group -/

/-- The page counts of a group that a release clears. -/
def pinFields : List Fld := [.PG_PIN_RESIDENT, .PG_PIN_RESERVE, .PG_USE_HELD, .PG_USE_BORROWED]

/-- The release of one group: its page counts at 0, and neither lead nor far prefetch. -/
def unpinGroup (g : Nat) (s : State) : State :=
  ((((s.w .PG_PIN_RESIDENT g 0).w .PG_PIN_RESERVE g 0).w .PG_USE_HELD g 0).w .PG_USE_BORROWED g 0).onGp g (fun x =>
    { x with leadFull := false, pool := [] })

/-- A group that has been released. -/
structure Unpinned (g : Nat) (s : State) : Prop where
  counts : ∀ f ∈ pinFields, s.r f g = 0
  lead : (s.gp g).leadFull = false
  pool : (s.gp g).pool = []

/-- The release of a pitch is that of each of its groups. -/
theorem unpin_eq_forAll (p : Nat) (s : State) : unpin p s = forAll (s.members p) unpinGroup s := rfl

section
variable (g : Nat) (s : State)

theorem unpinGroup_mem : (unpinGroup g s).mem = s.mem := rfl

theorem unpinGroup_gp_ne {j : Nat} (h : j ≠ g) : (unpinGroup g s).gp j = s.gp j := State.onGp_gp_ne _ _ _ h

/-- The release of a group leaves every register but its page counts. -/
theorem unpinGroup_r_of_not {f : Fld} {u : Nat} (i : Nat) (h : ¬(f ∈ pinFields ∧ u = g)) : (unpinGroup g s).r f u i = s.r f u i := by
  have hkey : ∀ k ∈ pinFields, (⟨f, u, i⟩ : RKey) ≠ ⟨k, g, 0⟩ := by
    intro k hk e
    obtain ⟨rfl, rfl, -⟩ := RKey.mk.inj e
    exact h ⟨hk, rfl⟩
  simp only [pinFields, List.forall_mem_cons] at hkey
  obtain ⟨hresident, hreserve, hheld, hborrowed, -⟩ := hkey
  simp [unpinGroup, State.r_w_key, hresident, hreserve, hheld, hborrowed]

theorem unpinGroup_unpinned : Unpinned g (unpinGroup g s) where
  counts f hf := by
    simp only [pinFields, List.mem_cons, List.not_mem_nil, or_false] at hf
    rcases hf with rfl | rfl | rfl | rfl <;> simp [unpinGroup, State.r_w_ne]
  lead := by simp [unpinGroup]
  pool := by simp [unpinGroup]

/-- A released group stays so when any group is released. -/
theorem Unpinned.unpinGroup {g : Nat} {s : State} (h : Unpinned g s) (j : Nat) : Unpinned g (unpinGroup j s) := by
  by_cases hj : g = j
  · subst hj
    exact unpinGroup_unpinned g s
  · have hgp := unpinGroup_gp_ne j s hj
    exact ⟨fun f hf => (unpinGroup_r_of_not j s 0 fun hu => hj hu.2).trans (h.counts f hf), hgp ▸ h.lead, hgp ▸ h.pool⟩

end

/-! ## The groups of a pitch -/

section
variable (p : Nat) (s : State)

theorem unpin_mem : (unpin p s).mem = s.mem := forAll_keeps (φ := State.mem) fun g _ t => unpinGroup_mem g t

theorem unpin_unpinned {g : Nat} (hg : g ∈ s.members p) : Unpinned g (unpin p s) := by
  rw [unpin_eq_forAll]
  exact forAll_attains hg (unpinGroup_unpinned g) fun j _ _ h => h.unpinGroup j

/-- Groups of other pitches keep their lead and their prefetch. -/
theorem unpin_gp_of_not_mem {g : Nat} (hg : g ∉ s.members p) : (unpin p s).gp g = s.gp g := by
  rw [unpin_eq_forAll]
  exact forAll_keeps (φ := fun t => t.gp g) fun j hj t => unpinGroup_gp_ne j t fun e => hg (e ▸ hj)

/-- Every register but the page counts of the pitch's groups stays. -/
theorem unpin_r_of_not {f : Fld} {u : Nat} (i : Nat) (h : ¬(f ∈ pinFields ∧ u ∈ s.members p)) : (unpin p s).r f u i = s.r f u i := by
  rw [unpin_eq_forAll]
  exact forAll_keeps (φ := fun t => t.r f u i) fun j hj t => unpinGroup_r_of_not j t i fun ⟨hf, hu⟩ => h ⟨hf, hu ▸ hj⟩

/-- With PREPARED cleared beside it, the page counts stay at 0. -/
theorem clearPrep_unpin_unpinned {g : Nat} (hg : g ∈ s.members p) : Unpinned g (clearPrep p (unpin p s)) := by
  obtain ⟨hcounts, hlead, hpool⟩ := unpin_unpinned p s hg
  have hne : ∀ f ∈ pinFields, f ≠ .PT_SUPPLY_PREPARED := by decide
  exact ⟨fun f hf => (clearPrep_r_of_not p _ 0 fun h => hne f hf h.1).trans (hcounts f hf), hlead, hpool⟩

theorem clearPrep_unpin_r_of_not {f : Fld} {u : Nat} (i : Nat) (hprep : ¬(f = .PT_SUPPLY_PREPARED ∧ u = p))
    (h : ¬(f ∈ pinFields ∧ u ∈ s.members p)) : (clearPrep p (unpin p s)).r f u i = s.r f u i :=
  (clearPrep_r_of_not p _ i hprep).trans (unpin_r_of_not p s i h)

end

/-! ## The command -/

section
variable {d : Desc} {s : State} (ha : Admitted 0x0506 d s) (hp : Passes [args d 1, unit 32 d.a0, s.pOff d.a0])
include ha hp

/-- On a pitch that is not idle the command fails. -/
theorem execPatRelease_busy (hi : s.idle d.a0 = false) :
    execPatRelease d s = .next (complete 0x0506 d ST_STATE false 0 0 0 (started d s)) := by
  have hi' : (started d s).idle d.a0 = false := hi
  unfold execPatRelease
  rw [runCmd_admitted ha hp]
  simp only [checked, firstBad, hi', Bool.not_false, if_true]
  rfl

/-- On an idle pitch it releases the groups and clears PREPARED. -/
theorem execPatRelease_idle (hi : s.idle d.a0 = true) :
    execPatRelease d s = .next (complete 0x0506 d ST_OK false 0 0 0 (clearPrep d.a0 (unpin d.a0 (started d s)))) := by
  have hi' : (started d s).idle d.a0 = true := hi
  have hpass : Passes [(!(started d s).idle d.a0, ST_STATE)] := by simp [hi']
  unfold execPatRelease
  rw [runDone_admitted (l := fun t => [(!t.idle d.a0, ST_STATE)]) (after := fun t => clearPrep d.a0 (unpin d.a0 t)) ha hp hpass]

end

/-- Settles O14. The groups are released one by one; no step of another group, nor the clearing of PREPARED, undoes one. -/
theorem releaseUnpinsAnIdlePitch : Obligations.ReleaseUnpinsAnIdlePitch := by
  unfold Obligations.ReleaseUnpinsAnIdlePitch
  intro d s ha hp
  refine ⟨execPatRelease_busy ha hp, fun hi => ⟨_, execPatRelease_idle ha hp hi, unpin_mem d.a0 (started d s), State.r_w_self .., ?_,
    fun g hg => unpin_gp_of_not_mem d.a0 (started d s) hg,
    fun f u i hprep h => clearPrep_unpin_r_of_not d.a0 (started d s) i hprep h⟩⟩
  intro g hg
  obtain ⟨hcounts, hlead, hpool⟩ := clearPrep_unpin_unpinned d.a0 (started d s) hg
  exact ⟨hcounts _ (by decide), hcounts _ (by decide), hcounts _ (by decide), hcounts _ (by decide), hlead, hpool⟩

end Sys2Proof.Machine
end

section
/-! SUPPORT. What a QUIET step leaves: the pitches, and every register but the applied calibration and the event counts (R238 to R240). -/

namespace Sys2Proof.Machine

/-- The registers that a QUIET step can write: applied values, their states, and what the event of an excursion counts. -/
def quietFields : List Fld := [.CAL_APPLY_OFFSET, .TD_OFF_OFFSET, .CAL_GTEMP_APPLIED_T, .CAL_GSTAT_CATCHUP, .CAL_GSTAT_DRIFT,
  .CAL_GSTAT_DRIFT_SEEN, .CAL_GSTAT_DRIFT_CNT, .LK_TXN_DROP_MSG, .EVR_STAT_EVR_LOST, .EVR_PROD_COUNT]

/-- A state that a QUIET step can reach: the same pitches, and the same registers but those. -/
structure QuietFrom (s t : State) : Prop where
  pitch : t.pitch = s.pitch
  r : ∀ f u i, f ∉ quietFields → t.r f u i = s.r f u i

theorem QuietFrom.refl (s : State) : QuietFrom s s := ⟨rfl, fun _ _ _ _ => rfl⟩

theorem QuietFrom.pt {s t : State} (h : QuietFrom s t) (p : Nat) : t.pt p = s.pt p := by
  unfold State.pt
  rw [h.pitch]

theorem ne_of_mem_quietFields {f g : Fld} (hf : f ∈ quietFields) (hg : g ∉ quietFields) : g ≠ f := fun e => hg (e ▸ hf)

theorem State.setF_pitch (s : State) (f : Fld) (u i : Nat) : (s.setF f u i).pitch = s.pitch := by
  unfold State.setF State.setW
  dsimp only
  split <;> rfl

/-! ## Updates of the state -/

section
variable {s t : State} (h : QuietFrom s t) {f : Fld} (u i : Nat)
include h

theorem QuietFrom.w (v : Nat) (hf : f ∈ quietFields) : QuietFrom s (t.w f u v i) :=
  ⟨h.pitch, fun g u' i' hg => (State.r_w_ne _ _ _ _ _ _ _ _ (ne_of_mem_quietFields hf hg)).trans (h.r g u' i' hg)⟩

theorem QuietFrom.setF (hf : f ∈ quietFields) : QuietFrom s (t.setF f u i) :=
  ⟨(t.setF_pitch f u i).trans h.pitch,
    fun g u' i' hg => (State.r_setF_ne _ _ _ _ _ _ _ (ne_of_mem_quietFields hf hg)).trans (h.r g u' i' hg)⟩

theorem QuietFrom.inc (n : Nat) (hf : f ∈ quietFields) : QuietFrom s (t.inc f u i n) :=
  ⟨(noteUp_pitch _ _ _).trans h.pitch, fun g u' i' hg =>
    (State.r_inc_key _ _ _ _ _ _ _ _ fun e => ne_of_mem_quietFields hf hg (RKey.mk.inj e).1).trans (h.r g u' i' hg)⟩

theorem QuietFrom.onCh (n : Nat) (k : Chan → Chan) : QuietFrom s (t.onCh n k) := ⟨h.pitch, h.r⟩
theorem QuietFrom.onGp (n : Nat) (k : Grp → Grp) : QuietFrom s (t.onGp n k) := ⟨h.pitch, h.r⟩
theorem QuietFrom.onTd (n : Nat) (k : Tdc → Tdc) : QuietFrom s (t.onTd n k) := ⟨h.pitch, h.r⟩

theorem QuietFrom.event (c : Nat) (v : List (Nat × Nat)) : QuietFrom s (event c v t) := by
  have hsub : ∀ g ∈ [Fld.LK_TXN_DROP_MSG, .EVR_STAT_EVR_LOST, .EVR_PROD_COUNT], g ∈ quietFields := by decide
  exact ⟨(event_pitch c v t).trans h.pitch, fun g u' i' hg => (event_r c v t g u' i' (mt (hsub g) hg)).trans (h.r g u' i' hg)⟩

theorem QuietFrom.forAll (l : List Nat) {k : Nat → State → State} (hk : ∀ n t, QuietFrom s t → QuietFrom s (k n t)) :
    QuietFrom s (forAll l k t) := forAll_preserves h fun n _ => hk n

end

/-! ## The parts of the step -/

section
variable {s t : State} (h : QuietFrom s t) (n : Nat)
include h

theorem stepChan_quietFrom : QuietFrom s (stepChan n t) := by
  unfold stepChan
  exact (h.forAll _ fun i _ hu => hu.w n i _ (by decide)).onCh _ _

theorem stepTdc_quietFrom : QuietFrom s (stepTdc n t) := (h.onTd _ _).w _ _ _ (by decide)

theorem compareApplied_quietFrom : QuietFrom s (compareApplied n t) := by
  unfold compareApplied
  split
  · exact h.setF _ _ (by decide)
  · exact (h.w _ _ _ (by decide)).w _ _ _ (by decide)

theorem stepStrip_quietFrom : QuietFrom s (if t.tdStrips n then stepTdc n t else t) := by
  split
  · exact stepTdc_quietFrom h n
  · exact h

theorem quietGroup_quietFrom : QuietFrom s (quietGroup n t) :=
  have hchans : QuietFrom s (forAll (chansOf n) stepChan t) := h.forAll _ fun c _ hu => stepChan_quietFrom hu c
  compareApplied_quietFrom ((hchans.onGp _ _).forAll _ fun c _ hu => stepStrip_quietFrom hu c) n

/-- An excursion that begins is counted and raises an event; one that has ended clears DRIFT (R239). -/
theorem driftCheck_quietFrom : QuietFrom s (driftCheck n t) := by
  refine h.forAll _ fun g u hu => ?_
  split
  · split
    · exact hu
    · exact (((hu.setF _ _ (by decide)).setF _ _ (by decide)).inc _ _ _ (by decide)).event _ _
  · exact hu.w _ _ _ (by decide)

end

theorem quietStep_quietFrom (p : Nat) (s : State) : QuietFrom s (quietStep p s) :=
  driftCheck_quietFrom ((QuietFrom.refl s).forAll _ fun g _ h => quietGroup_quietFrom h g) p

theorem quieted_quietFrom (p : Nat) (s : State) : QuietFrom s (quieted p s) := by
  unfold quieted
  split
  · exact quietStep_quietFrom p s
  · exact QuietFrom.refl s

end Sys2Proof.Machine
end

section
/-! SUPPORT. A stop at a boundary and the pending jump (R120, R132, R133). -/

namespace Sys2Proof.Machine

/-- The registers that show the stacks and the pending jump. -/
def stackFields : List Fld := [.PT_STACK_LOOP_DEPTH, .PT_STACK_CALL_DEPTH, .PT_RUN_PEND, .PT_STACK_PEND_TARGET]

section
variable (p : Nat) (s : State)

/-! ## What shows the stacks, fixes a stop, or keeps the place of a resume -/

theorem showStacks_pitch : (showStacks p s).pitch = s.pitch := by
  cases hq : (s.pt p).defer <;> simp [showStacks, hq]

theorem showStacks_pt (n : Nat) : (showStacks p s).pt n = s.pt n := by
  unfold State.pt
  rw [showStacks_pitch]

theorem showStacks_r {f : Fld} (u i : Nat) (hf : f ∉ stackFields) : (showStacks p s).r f u i = s.r f u i := by
  simp only [stackFields, List.mem_cons, List.not_mem_nil, or_false, not_or] at hf
  obtain ⟨hloop, hcall, hpend, htarget⟩ := hf
  cases hq : (s.pt p).defer <;> simp [showStacks, hq, State.r_w_ne, hloop, hcall, hpend, htarget]

theorem fixStop_defer (c : Nat) : ((fixStop p c s).pt p).defer = (s.pt p).defer := by
  unfold fixStop
  rw [State.onPt_pt]
  rfl

theorem fixStop_drop (c : Nat) : (fixStop p c s).r .PT_RUN_DROP p = s.r .PT_RUN_DROP p := by
  simp [fixStop, State.r_w_ne]

/-- The resume keeps the pending jump beside its place (R132). -/
theorem keepResume_defer (b : Nat) : ((keepResume p b s).pt p).defer = (s.pt p).defer := by
  unfold keepResume
  cases (s.follow p b).1 <;> simp

theorem keepResume_drop (b : Nat) : (keepResume p b s).r .PT_RUN_DROP p = s.r .PT_RUN_DROP p := by
  unfold keepResume
  cases (s.follow p b).1 <;> simp [State.r_w_ne]

/-! ## The stop -/

/-- A halt only fixes the stop. -/
theorem stopHere_halt : stopHere p 0xF s = fixStop p 0xF s := rfl

/-- Another stop discards the pending jump with DROP. -/
theorem stopHere_discards {c : Nat} {q : Deferred} (hc : c ≠ 0xF) (hq : (s.pt p).defer = some q) :
    stopHere p c s = showStacks p (((fixStop p c s).setF .PT_RUN_DROP p).onPt p (fun x => { x with defer := none })) := by
  unfold stopHere
  simp [fixStop_defer, hq, hc]

/-- A boundary that ends a pass, and at which a stop is due once the QUIET steps are done (R114 line 1). -/
theorem boundary_stop {c : Nat} (hrun : s.pstate p = RUNNING) (hend : (s.pt p).atEnd = true) (hflow : (s.pt p).needFlow = false)
    (hreached : s.reached p (s.pt p).next = true)
    (hstop : (quieted p s).boundaryStop p ((s.cycleOf p (s.pt p).next).getD s.now) = some c) :
    boundary p s = stopHere p c
      (if c = 0xF then keepResume p ((s.cycleOf p (s.pt p).next).getD s.now) (quieted p s) else quieted p s) := by
  simp [boundary, hrun, hend, hflow, hreached, hstop]

end

/-- Settles O10. The QUIET steps before the stop, and the place kept for a resume, leave the pending jump and DROP; then only a halt keeps
the jump. -/
theorem aStopDiscardsThePendingJump : Obligations.AStopDiscardsThePendingJump := by
  unfold Obligations.AStopDiscardsThePendingJump
  intro p s q c hrun hend hflow hreached hdefer hstop
  have hquiet := quieted_quietFrom p s
  have hjump : ((quieted p s).pt p).defer = some q := by rw [hquiet.pt, hdefer]
  refine ⟨_, congrArg Host.Outcome.next (boundary_stop p s hrun hend hflow hreached hstop), fun hc => ?stop, fun hc => ?halt⟩
  case stop =>
    rw [if_neg hc, stopHere_discards _ _ hc hjump]
    constructor
    · rw [showStacks_pt, State.onPt_pt]
    · rw [showStacks_r _ _ _ _ (by decide), State.onPt_r, State.r_setF _ _ _ _ rfl]
  case halt =>
    subst hc
    rw [if_pos rfl, stopHere_halt, fixStop_defer, fixStop_drop, keepResume_defer, keepResume_drop]
    exact ⟨hjump, hquiet.r _ _ _ (by decide)⟩

end Sys2Proof.Machine
end

section
/-! SUPPORT. The address decode of VCM (R244). -/

namespace Sys2Proof.Machine

/-! ## The parts of an address -/

theorem bits_eq_div_mod (v hi lo : Nat) : bits v hi lo = v / 2 ^ lo % 2 ^ (hi + 1 - lo) := by
  rw [bits, Nat.shiftRight_eq_div_pow]

theorem vcmPort_eq (a : Nat) : vcmPort a = (a / 2 ^ 10 % 2 ^ 7) ^^^ (a / 2 ^ 17 % 2 ^ 7) := by
  simp only [vcmPort, bits_eq_div_mod]

theorem vcmPort_lt (a : Nat) : vcmPort a < 128 := by
  rw [vcmPort_eq]
  exact Nat.xor_lt_two_pow (n := 7) (Nat.mod_lt _ (by decide)) (Nat.mod_lt _ (by decide))

/-- Of an address of VCM, A[36:17] is all that stands above bit 16. -/
theorem vcmLocal_eq {a : Nat} (ha : a < 2 ^ 37) : vcmLocal a = a / 2 ^ 17 * 1024 + a % 1024 := by
  simp only [vcmLocal, bits_eq_div_mod]
  omega

theorem vcmLocal_lt (a : Nat) : vcmLocal a < 2 ^ 30 := by
  simp only [vcmLocal, bits_eq_div_mod]
  omega

theorem vcmBank_eq (a : Nat) : vcmBank a = vcmLocal a / 2 ^ 11 % 2 ^ 5 := bits_eq_div_mod _ _ _

/-- A local address has no bit above its row. -/
theorem vcmRow_eq (a : Nat) : vcmRow a = vcmLocal a / 2 ^ 16 := by
  have hlocal := vcmLocal_lt a
  rw [vcmRow, bits_eq_div_mod]
  omega

/-! ## What port and local address tell of the address -/

/-- In one block of 128 KiB the port names the unit: A[23:17] is fixed there, and XOR with it is injective. -/
theorem unit_eq_of_vcmPort_eq {a b : Nat} (hport : vcmPort a = vcmPort b) (hblock : a / 2 ^ 17 = b / 2 ^ 17) :
    a / 2 ^ 10 % 2 ^ 7 = b / 2 ^ 10 % 2 ^ 7 := by
  rw [vcmPort_eq, vcmPort_eq, hblock] at hport
  exact Nat.xor_left_inj.mp hport

/-- The local address names the block of 128 KiB and the byte in its unit. -/
theorem block_and_byte_eq_of_vcmLocal_eq {a b : Nat} (ha : a < 2 ^ 37) (hb : b < 2 ^ 37) (hlocal : vcmLocal a = vcmLocal b) :
    a / 2 ^ 17 = b / 2 ^ 17 ∧ a % 1024 = b % 1024 := by
  rw [vcmLocal_eq ha, vcmLocal_eq hb] at hlocal
  omega

theorem eq_of_vcmPort_eq_of_vcmLocal_eq {a b : Nat} (ha : a < 2 ^ 37) (hb : b < 2 ^ 37) (hport : vcmPort a = vcmPort b)
    (hlocal : vcmLocal a = vcmLocal b) : a = b := by
  obtain ⟨hblock, hbyte⟩ := block_and_byte_eq_of_vcmLocal_eq ha hb hlocal
  have hunit := unit_eq_of_vcmPort_eq hport hblock
  omega

/-- The units of an aligned run stand in one block, so their ports differ. -/
theorem unit_eq_of_vcmPort_eq_of_alignedRun {k i j : Nat} (hi : i < 128) (hj : j < 128)
    (hport : vcmPort (k * 2 ^ 17 + i * 1024) = vcmPort (k * 2 ^ 17 + j * 1024)) : i = j := by
  have hunit := unit_eq_of_vcmPort_eq hport (by omega)
  omega

/-- Settles O17. The local address fixes the block and the byte, and within a block the port fixes the unit. -/
theorem vcmAddressesDecodeByTheTable : Obligations.VcmAddressesDecodeByTheTable := by
  unfold Obligations.VcmAddressesDecodeByTheTable
  refine ⟨fun a ha => ?decode, fun a b ha hb => ?collision, fun k i j _ hi hj => ?run⟩
  case decode => exact ⟨vcmPort_eq a, vcmPort_lt a, vcmLocal_eq ha, vcmLocal_lt a, vcmBank_eq a, vcmRow_eq a⟩
  case collision => exact eq_of_vcmPort_eq_of_vcmLocal_eq ha hb
  case run => exact unit_eq_of_vcmPort_eq_of_alignedRun hi hj

end Sys2Proof.Machine
end

section
/-! SUPPORT. Packed records: the value and the bits of each field (R354, R478). -/

namespace Sys2Proof.Machine

/-- The bits that packed fields take together. -/
def packWidth (l : List (Nat × Nat)) : Nat := (l.map (·.1)).sum

theorem packWidth_cons (w v : Nat) (l : List (Nat × Nat)) : packWidth ((w, v) :: l) = w + packWidth l := rfl

/-- Fields packed above others stand at the bit where those end. -/
theorem pack_append (l r : List (Nat × Nat)) : pack (l ++ r) = pack l + 2 ^ packWidth l * pack r := by
  induction l with
  | nil => simp [pack, packWidth]
  | cons e l ih =>
    obtain ⟨w, v⟩ := e
    rw [List.cons_append, pack, ih, pack, packWidth_cons]
    ring

theorem pack_lt (l : List (Nat × Nat)) : pack l < 2 ^ packWidth l := by
  induction l with
  | nil => exact Nat.one_pos
  | cons e l ih =>
    obtain ⟨w, v⟩ := e
    have hlow : v % 2 ^ w < 2 ^ w := Nat.mod_lt _ (Nat.two_pow_pos w)
    calc v % 2 ^ w + 2 ^ w * pack l
        < 2 ^ w * (pack l + 1) := by rw [Nat.mul_succ]; omega
      _ ≤ 2 ^ w * 2 ^ packWidth l := Nat.mul_le_mul_left _ ih
      _ = 2 ^ packWidth ((w, v) :: l) := (Nat.pow_add 2 w _).symm

/-- A field reads back the value packed into it, kept to its width. -/
theorem bits_pack {hi w : Nat} (v : Nat) (l r : List (Nat × Nat)) (hhi : hi + 1 = packWidth l + w) :
    bits (pack (l ++ (w, v) :: r)) hi (packWidth l) = v % 2 ^ w := by
  have habove : pack (l ++ (w, v) :: r) / 2 ^ packWidth l = v % 2 ^ w + 2 ^ w * pack r := by
    rw [pack_append, Nat.add_mul_div_left _ _ (Nat.two_pow_pos _), Nat.div_eq_of_lt (pack_lt l), Nat.zero_add, pack]
  rw [bits_eq_div_mod, habove, hhi, Nat.add_sub_cancel_left, Nat.add_mul_mod_self_left, Nat.mod_mod]

end Sys2Proof.Machine
end

section
/-! SUPPORT. The event ring: what it takes, and the slot it writes (R326, R333, R334). -/

namespace Sys2Proof.Machine

section
variable (code : Nat) (vals : List (Nat × Nat)) {s : State}

/-! ## The record -/

/-- The fields of Table MBX-5 fill 32 bytes. -/
theorem eventRec_lt : s.eventRec code vals < 256 ^ 32 := by
  rw [State.eventRec]
  exact (pack_lt _).trans_eq (by norm_num [packWidth])

theorem bits_eventRec_code : bits (s.eventRec code vals) 15 0 = code % 2 ^ 16 := bits_pack code [] _ rfl

theorem bits_eventRec_dropped : bits (s.eventRec code vals) 16 16 = b2n s.mbox.evDropped := by
  have hbit : b2n s.mbox.evDropped % 2 ^ 1 = b2n s.mbox.evDropped := by cases s.mbox.evDropped <;> rfl
  exact (bits_pack (b2n s.mbox.evDropped) [(16, code)] _ rfl).trans hbit

theorem bits_eventRec_seq : bits (s.eventRec code vals) 63 32 = s.mbox.evSeq % 2 ^ 32 :=
  bits_pack s.mbox.evSeq [(16, code), (1, b2n s.mbox.evDropped), (15, 0)] _ rfl

/-! ## Room in the ring -/

/-- The ring takes a record while it is enabled and not full (R334). -/
theorem evrRoom_iff : s.evrRoom = true ↔
    s.rb .EVR_CFG_EN = true ∧ dist32 (s.r .EVR_PROD_COUNT) (s.r .EVR_CONS_COUNT) < s.evrSize := by
  rw [State.evrRoom, Bool.and_eq_true, decide_eq_true_iff]

/-- A disabled ring and a full one have no room. -/
theorem evrRoom_eq_false
    (h : s.rb .EVR_CFG_EN = false ∨ s.evrSize ≤ dist32 (s.r .EVR_PROD_COUNT) (s.r .EVR_CONS_COUNT)) : s.evrRoom = false := by
  rw [Bool.eq_false_iff, Ne, evrRoom_iff]
  rintro ⟨hen, hroom⟩
  rcases h with hdis | hfull
  · simp [hen] at hdis
  · exact hroom.not_ge hfull

/-! ## The slots -/

/-- The counts wrap at 2^32 without a break of the slots: the ring's size, at most 2^14, divides 2^32. -/
theorem evrSize_dvd (h : s.Good) : s.evrSize ∣ 2 ^ 32 := by
  have hlog : s.r .EVR_CFG_LOG_SIZE < 2 ^ 3 := State.r_lt h _ _ _
  exact Nat.pow_dvd_pow 2 (by omega)

/-- Equal residues mean equal distances, below a size that divides 2^32. -/
theorem dist32_eq_of_mod_eq {n x p c : Nat} (hn : n ∣ 2 ^ 32) (hc : c ≤ 2 ^ 32) (hx : dist32 x c < n) (hp : dist32 p c < n)
    (hmod : x % n = p % n) : dist32 x c = dist32 p c := by
  have hdist : dist32 x c % n = dist32 p c % n := by
    rw [Nat.mod_mod_of_dvd _ hn, Nat.mod_mod_of_dvd _ hn, Nat.add_sub_assoc hc, Nat.add_sub_assoc hc]
    exact Nat.ModEq.add_right _ hmod
  rwa [Nat.mod_eq_of_lt hx, Nat.mod_eq_of_lt hp] at hdist

/-- With room in the ring, an unread record does not stand in the next slot. -/
theorem evrSlot_apart (h : s.Good) {x : Nat}
    (hunread : dist32 x (s.r .EVR_CONS_COUNT) < dist32 (s.r .EVR_PROD_COUNT) (s.r .EVR_CONS_COUNT))
    (hroom : dist32 (s.r .EVR_PROD_COUNT) (s.r .EVR_CONS_COUNT) < s.evrSize) :
    evrSlot s x + 32 ≤ evrSlot s (s.r .EVR_PROD_COUNT) ∨ evrSlot s (s.r .EVR_PROD_COUNT) + 32 ≤ evrSlot s x := by
  have hcons : s.r .EVR_CONS_COUNT < 2 ^ 32 := State.r_lt h _ _ _
  have hslot : x % s.evrSize ≠ s.r .EVR_PROD_COUNT % s.evrSize := fun hmod =>
    hunread.ne (dist32_eq_of_mod_eq (evrSize_dvd h) hcons.le (hunread.trans hroom) hroom hmod)
  simp only [evrSlot]
  omega

/-! ## The event -/

/-- SEQ counts the events, dropped ones too (R334). -/
theorem event_evSeq (s : State) : (event code vals s).mbox.evSeq = (s.mbox.evSeq + 1) % 2 ^ 32 := by
  cases hr : s.evrRoom
  · rw [event_dropped hr]
  · rw [(event_written hr code vals).mbox]

/-- A dropped event touches no memory. -/
theorem event_dropped_mem (hr : s.evrRoom = false) : (event code vals s).mem = s.mem := by
  rw [event_dropped hr]
  exact noteUp_mem _ _ _

theorem event_dropped_lost (hr : s.evrRoom = false) : (event code vals s).r .EVR_STAT_EVR_LOST =
    min (s.r .EVR_STAT_EVR_LOST + 1) (2 ^ Fld.width .EVR_STAT_EVR_LOST - 1) := by
  rw [event_dropped hr]
  exact s.r_inc _ _ _ _

theorem event_dropped_prod (hr : s.evrRoom = false) : (event code vals s).r .EVR_PROD_COUNT = s.r .EVR_PROD_COUNT := by
  rw [event_dropped hr]
  exact s.r_inc_key _ _ _ _ _ _ _ (by decide)

theorem event_written_prod (hr : s.evrRoom = true) :
    (event code vals s).r .EVR_PROD_COUNT = (s.r .EVR_PROD_COUNT + 1) % 2 ^ 32 := by
  rw [(event_written hr code vals).r _ _ _ (by decide)]
  exact State.r_w_self _ _ _ _ _

/-- A written event stores the bytes of its record at the producer's slot. -/
theorem event_written_pool (hr : s.evrRoom = true) : (event code vals s).mem.pool =
    s.mem.pool.wrn (evrSlot s (s.r .EVR_PROD_COUNT)) 32 (s.eventRec code vals) := by
  rw [(event_written hr code vals).mem]
  exact s.space_store 3 _ _

/-- The slot reads back the record. -/
theorem event_written_loadN (hr : s.evrRoom = true) :
    (event code vals s).loadN 3 (evrSlot s (s.r .EVR_PROD_COUNT)) 32 = s.eventRec code vals := by
  change (event code vals s).mem.pool.rdn _ 32 = _
  rw [event_written_pool code vals hr, rdn_wrn, Nat.mod_eq_of_lt (eventRec_lt code vals)]

/-- The bytes outside the slot stay. -/
theorem event_written_pool_out (hr : s.evrRoom = true) {a : Nat}
    (ha : a < evrSlot s (s.r .EVR_PROD_COUNT) ∨ evrSlot s (s.r .EVR_PROD_COUNT) + 32 ≤ a) :
    (event code vals s).mem.pool.rd a = s.mem.pool.rd a := by
  rw [event_written_pool code vals hr]
  exact Mem.rd_wrs_out _ _ _ _ (by rwa [length_bytesOf])

/-- A record that stands apart from the slot stays. -/
theorem event_written_load_out (hr : s.evrRoom = true) {a n : Nat}
    (ha : a + n ≤ evrSlot s (s.r .EVR_PROD_COUNT) ∨ evrSlot s (s.r .EVR_PROD_COUNT) + 32 ≤ a) :
    (event code vals s).load 3 a n = s.load 3 a n := by
  change (event code vals s).mem.pool.rds a n = s.mem.pool.rds a n
  rw [event_written_pool code vals hr]
  exact Mem.rds_wrs_out _ _ _ _ _ (by rwa [length_bytesOf])

end

/-- Settles O12. An event is dropped or written by whether the ring has room; with room, no unread record stands in the slot written. -/
theorem eventsAreDroppedOrWritten : Obligations.EventsAreDroppedOrWritten := by
  unfold Obligations.EventsAreDroppedOrWritten
  intro code vals s hgood
  refine ⟨event_evSeq code vals s, fun hnone => ?dropped, fun hen hroom => ?written⟩
  case dropped =>
    have hr := evrRoom_eq_false hnone
    exact ⟨event_dropped_mem code vals hr, by rw [event_dropped hr], event_dropped_lost code vals hr, event_dropped_prod code vals hr⟩
  case written =>
    have hr := evrRoom_iff.mpr ⟨hen, hroom⟩
    exact ⟨by rw [(event_written hr code vals).mbox], event_written_prod code vals hr, event_written_loadN code vals hr,
      bits_eventRec_code code vals, bits_eventRec_dropped code vals, bits_eventRec_seq code vals,
      fun a ha => event_written_pool_out code vals hr ha,
      fun x _ hunread => event_written_load_out code vals hr (evrSlot_apart hgood hunread hroom)⟩

end Sys2Proof.Machine
end

section
/-! SUPPORT. The contacts outside the core: a site answers its side and its local place, and a place of a band its channel (R461 to R463). -/

namespace Sys2Proof.Machine

/-! ## The frame of a side -/

section
variable {s x y : Nat}

/-- Each side runs up to the corner that the next one starts from, so a site has one side. -/
theorem localPlace_place (hs : s < 4) (hx : x < 99) (hy : y < 32) : localPlace (place s x y) = (s, x, y) := by
  match s, hs with
  | 0, _ | 1, _ | 2, _ | 3, _ =>
    simp only [place, localPlace, Bool.and_eq_true, decide_eq_true_eq]
    split_ifs <;> simp only [Prod.mk.injEq, true_and] <;> omega

theorem onGrid_place (hs : s < 4) (hx : x < 99) (hy : y < 32) : (place s x y).onGrid = true := by
  match s, hs with
  | 0, _ | 1, _ | 2, _ | 3, _ =>
    simp only [place, GridSite.onGrid, Bool.and_eq_true, decide_eq_true_eq]
    omega

theorem inCore_place (hs : s < 4) (hy : y < 32) : (place s x y).inCore = false := by
  match s, hs with
  | 0, _ | 1, _ | 2, _ | 3, _ =>
    simp only [place, GridSite.inCore, ← Bool.not_eq_true, Bool.and_eq_true, decide_eq_true_eq]
    omega

theorem contactAt_place (hs : s < 4) (hx : x < 99) (hy : y < 32) :
    contactAt (place s x y) = some (if x < 96 then bandContact s x y else stripContact s (x - 96) y) := by
  simp [contactAt, onGrid_place hs hx hy, inCore_place hs hy, localPlace_place hs hx hy]

theorem contactAt_band (hs : s < 4) (hx : x < 96) (hy : y < 32) :
    contactAt (place s x y) = some (bandContact s x y) := by
  rw [contactAt_place hs (by omega) hy, if_pos hx]

end

theorem contactAt_strip {q i y : Nat} (hq : q < 4) (hi : i < 3) (hy : y < 32) :
    contactAt (place q (96 + i) y) = some (stripContact q i y) := by
  rw [contactAt_place hq (by omega) hy, if_neg (by omega), Nat.add_sub_cancel_left]

theorem place_inj {s x y s' x' y' : Nat} (hs : s < 4) (hx : x < 99) (hy : y < 32) (hs' : s' < 4) (hx' : x' < 99) (hy' : y' < 32)
    (h : place s x y = place s' x' y') : s = s' ∧ x = x' ∧ y = y' := by
  have hlocal := congrArg localPlace h
  rwa [localPlace_place hs hx hy, localPlace_place hs' hx' hy', Prod.mk.injEq, Prod.mk.injEq] at hlocal

/-! ## The footprint of a channel (R462) -/

/-- The side of a channel. -/
def chanSide (c : Nat) : Nat := c / 32 / 8

/-- x of a footprint's column i, and y of its position k. -/
def chanX (c i : Nat) : Nat := 24 * (c / 32 % 8 % 4) + 3 * (c % 32 % 8) + i
def chanY (c k : Nat) : Nat := 16 * (c / 32 % 8 / 4) + 4 * (c % 32 / 8) + k

/-- The channel whose footprint holds a place of a band. -/
def bandChan (s x y : Nat) : Nat := 32 * (8 * s + (x / 24 + 4 * (y / 16))) + (x % 24 / 3 + 8 * (y % 16 / 4))

theorem channelSite_eq_place (c i k : Nat) : channelSite c i k = place (chanSide c) (chanX c i) (chanY c k) := rfl

/-- The contact of a position of a channel's footprint. -/
def footprintContact (c i k : Nat) : Contact :=
  match i with
  | 0 => fourOf c k .drv .den
  | 1 => .vss
  | _ => fourOf c k .cmh .cml

theorem bandContact_eq (s x y : Nat) : bandContact s x y = footprintContact (bandChan s x y) (x % 3) (y % 4) := rfl

theorem chanSide_lt {c : Nat} (hc : c < 1024) : chanSide c < 4 := by unfold chanSide; omega
theorem chanX_lt (c : Nat) {i : Nat} (hi : i < 3) : chanX c i < 96 := by unfold chanX; omega
theorem chanY_lt (c : Nat) {k : Nat} (hk : k < 4) : chanY c k < 32 := by unfold chanY; omega

theorem chanX_mod (c : Nat) {i : Nat} (hi : i < 3) : chanX c i % 3 = i := by unfold chanX; omega
theorem chanY_mod (c : Nat) {k : Nat} (hk : k < 4) : chanY c k % 4 = k := by unfold chanY; omega

theorem bandChan_footprint (c : Nat) {i k : Nat} (hi : i < 3) (hk : k < 4) :
    bandChan (chanSide c) (chanX c i) (chanY c k) = c := by
  unfold bandChan chanSide chanX chanY
  omega

section
variable {s x y : Nat}

theorem chanSide_bandChan (hx : x < 96) (hy : y < 32) : chanSide (bandChan s x y) = s := by unfold chanSide bandChan; omega
theorem chanX_bandChan (hx : x < 96) : chanX (bandChan s x y) (x % 3) = x := by unfold chanX bandChan; omega
theorem chanY_bandChan (hx : x < 96) (hy : y < 32) : chanY (bandChan s x y) (y % 4) = y := by unfold chanY bandChan; omega

theorem bandChan_lt (hs : s < 4) (hx : x < 96) (hy : y < 32) : bandChan s x y < 1024 := by unfold bandChan; omega

theorem channelSite_bandChan (hx : x < 96) (hy : y < 32) : channelSite (bandChan s x y) (x % 3) (y % 4) = place s x y := by
  rw [channelSite_eq_place, chanSide_bandChan hx hy, chanX_bandChan hx, chanY_bandChan hx hy]

end

theorem contactAt_channelSite {c i k : Nat} (hc : c < 1024) (hi : i < 3) (hk : k < 4) :
    contactAt (channelSite c i k) = some (footprintContact c i k) := by
  rw [channelSite_eq_place, contactAt_band (chanSide_lt hc) (chanX_lt c hi) (chanY_lt c hk), bandContact_eq, chanX_mod c hi,
    chanY_mod c hk, bandChan_footprint c hi hk]

theorem channelSite_inj {c i k c' i' k' : Nat} (hc : c < 1024) (hi : i < 3) (hk : k < 4) (hc' : c' < 1024) (hi' : i' < 3) (hk' : k' < 4)
    (h : channelSite c i k = channelSite c' i' k') : c = c' ∧ i = i' ∧ k = k' := by
  have hbound {c i : Nat} (hi : i < 3) : chanX c i < 99 := Nat.lt_trans (chanX_lt c hi) (by decide)
  obtain ⟨hside, hx, hy⟩ := place_inj (chanSide_lt hc) (hbound hi) (chanY_lt c hk) (chanSide_lt hc') (hbound hi') (chanY_lt c' hk') h
  refine ⟨?_, ?_, ?_⟩
  · rw [← bandChan_footprint c hi hk, hside, hx, hy, bandChan_footprint c' hi' hk']
  · rw [← chanX_mod c hi, hx, chanX_mod c' hi']
  · rw [← chanY_mod c hk, hy, chanY_mod c' hk']

/-! ## The lanes of a gap strip (R463) -/

/-- The contact of column i of a lane, on its first or its second row. -/
def laneContact (l i : Nat) (neg : Bool) : Contact :=
  match i with
  | 0 => .lane l true neg
  | 1 => .vss
  | _ => .lane l false neg

theorem stripContact_of_lt (q i : Nat) {y : Nat} (hy : y < 24) : stripContact q i y = laneContact (12 * q + y / 2) i (y % 2 == 1) :=
  if_pos hy

theorem stripContact_of_le (q i : Nat) {y : Nat} (hy : 24 ≤ y) : stripContact q i y = if y < 26 then .rail .vserh else .vss :=
  if_neg (Nat.not_lt.mpr hy)

/-- Two rows to a lane: half the row names the lane, and the odd row is the second contact of a pair. -/
theorem contactAt_laneSite {l i n : Nat} (hl : l < 48) (hi : i < 3) (hn : n < 2) :
    contactAt (laneSite l i n) = some (laneContact l i (n == 1)) := by
  have hlane : 12 * (l / 12) + (2 * (l % 12) + n) / 2 = l := by omega
  have hrow : (2 * (l % 12) + n) % 2 = n := by omega
  rw [laneSite, contactAt_strip (by omega) hi (by omega), stripContact_of_lt _ _ (by omega), hlane, hrow]

/-- Settles O37. A place of a side's frame is read back from its site, and a channel and the position in its footprint from a place of
the band. -/
theorem contactsFollowTheMap : Obligations.ContactsFollowTheMap := by
  unfold Obligations.ContactsFollowTheMap
  refine ⟨fun c i k hc hi hk => ?footprint, fun s x y hs hx hy => ?tiling, fun c i k c' i' k' => channelSite_inj,
    fun l n hl hn => ?lane, fun q i y hq hi hlow hhigh => ?stripEnd⟩
  case footprint =>
    rw [contactAt_channelSite hc hi hk]
    match i, k, hi, hk with
    | 0, 0, _, _ | 0, 1, _, _ | 0, 2, _, _ | 0, 3, _, _ => rfl
    | 1, _, _, _ => rfl
    | 2, 0, _, _ | 2, 1, _, _ | 2, 2, _, _ | 2, 3, _, _ => rfl
  case tiling =>
    exact ⟨bandChan s x y, x % 3, y % 4, bandChan_lt hs hx hy, Nat.mod_lt _ (by decide), Nat.mod_lt _ (by decide),
      chanSide_bandChan hx hy, channelSite_bandChan hx hy⟩
  case lane =>
    exact ⟨contactAt_laneSite hl (by decide) hn, contactAt_laneSite hl (by decide) hn, contactAt_laneSite hl (by decide) hn⟩
  case stripEnd => rw [contactAt_strip hq hi hhigh, stripContact_of_le q i hlow]

end Sys2Proof.Machine
end

section
/-! SUPPORT. What every command and every core cycle keep: the canonical form of memories and registers, the queue and the time. -/

namespace Sys2Proof.Machine

open Sys2Proof

section
variable {q : List Instr} {n : Nat} {s : State}

/-! ## A command -/

/-- Each command keeps the invariant, the queue and the time, for its own meaning does. -/
theorem exec_ok (h : s.Ok q n) (c : Instr) : OutOk q n (exec c s) := by
  unfold exec
  cases c with
  | unsupportedCommand => exact execUnsupportedCommand_ok h
  | sysInfo => exact execSysInfo_ok h
  | sysNop => exact execSysNop_ok h
  | sysAckShutdown => exact execSysAckShutdown_ok h
  | coatLoad => exact execCoatLoad_ok h
  | coatApply => exact execCoatApply_ok h
  | coatList => exact execCoatList_ok h
  | chConfig => exact execChConfig_ok h
  | chPark => exact execChPark_ok h
  | tsetWrite => exact execTsetWrite_ok h
  | tsetRead => exact execTsetRead_ok h
  | tsetInvalidate => exact execTsetInvalidate_ok h
  | patBind => exact execPatBind_ok h
  | patStage => exact execPatStage_ok h
  | patQuota => exact execPatQuota_ok h
  | patRing => exact execPatRing_ok h
  | patPrepare => exact execPatPrepare_ok h
  | patRelease => exact execPatRelease_ok h
  | seqForm => exact execSeqForm_ok h
  | seqFollow => exact execSeqFollow_ok h
  | seqLoad => exact execSeqLoad_ok h
  | seqProg => exact execSeqProg_ok h
  | seqStart => exact execSeqStart_ok h
  | seqStop => exact execSeqStop_ok h
  | seqHalt => exact execSeqHalt_ok h
  | seqFlag => exact execSeqFlag_ok h
  | seqCounter => exact execSeqCounter_ok h
  | seqMark => exact execSeqMark_ok h
  | seqPrime => exact execSeqPrime_ok h
  | seqService => exact execSeqService_ok h
  | capConfig => exact execCapConfig_ok h
  | capTrigset => exact execCapTrigset_ok h
  | capBus => exact execCapBus_ok h
  | capArm => exact execCapArm_ok h
  | capTrig => exact execCapTrig_ok h
  | capDisarm => exact execCapDisarm_ok h
  | capClear => exact execCapClear_ok h
  | capFirstfail => exact execCapFirstfail_ok h
  | tdcSetup => exact execTdcSetup_ok h
  | tdcArm => exact execTdcArm_ok h
  | tdcResult => exact execTdcResult_ok h
  | tdcAbort => exact execTdcAbort_ok h
  | tdcRelease => exact execTdcRelease_ok h
  | tdcStrip => exact execTdcStrip_ok h
  | calRun => exact execCalRun_ok h
  | calCommit => exact execCalCommit_ok h
  | calDiscard => exact execCalDiscard_ok h
  | calSysoff => exact execCalSysoff_ok h
  | vcmInfo => exact execVcmInfo_ok h
  | vcmErrlog => exact execVcmErrlog_ok h
  | vcmFill => exact execVcmFill_ok h
  | vcmRetrain => exact execVcmRetrain_ok h
  | vcmScrub => exact execVcmScrub_ok h
  | linkConfig => exact execLinkConfig_ok h
  | linkEnable => exact execLinkEnable_ok h
  | linkDisable => exact execLinkDisable_ok h
  | linkLane => exact execLinkLane_ok h
  | linkAperture => exact execLinkAperture_ok h
  | linkStatus => exact execLinkStatus_ok h
  | timeGuycfg => exact execTimeGuycfg_ok h
  | timeAlign => exact execTimeAlign_ok h
  | timeAccept => exact execTimeAccept_ok h
  | timePtpcfg => exact execTimePtpcfg_ok h
  | timeSet => exact execTimeSet_ok h
  | timeRead => exact execTimeRead_ok h
  | timeFwd => exact execTimeFwd_ok h
  | secQuote => exact execSecQuote_ok h
  | secLog => exact execSecLog_ok h
  | secCert => exact execSecCert_ok h
  | secKeystate => exact execSecKeystate_ok h
  | secOwner => exact execSecOwner_ok h
  | secDebug => exact execSecDebug_ok h
  | secSeal => exact execSecSeal_ok h
  | secLot => exact execSecLot_ok h
  | secRing => exact execSecRing_ok h
  | secFlow => exact execSecFlow_ok h
  | thmConfig => exact execThmConfig_ok h
  | thmRead => exact execThmRead_ok h
  | thmShutrec => exact execThmShutrec_ok h
  | recRead => exact execRecRead_ok h
  | recFlush => exact execRecFlush_ok h
  | recCalendar => exact execRecCalendar_ok h
  | twinPair => exact execTwinPair_ok h
  | twinUnpair => exact execTwinUnpair_ok h
  | twinStatus => exact execTwinStatus_ok h
  | patBindDone => exact execPatBindDone_ok h
  | patStageDone => exact execPatStageDone_ok h
  | patPrepareDone => exact execPatPrepareDone_ok h
  | seqLoadDone => exact execSeqLoadDone_ok h
  | calRunDone => exact execCalRunDone_ok h
  | calCommitDone => exact execCalCommitDone_ok h
  | vcmFillDone => exact execVcmFillDone_ok h
  | vcmRetrainDone => exact execVcmRetrainDone_ok h
  | groupRamp => exact execGroupRamp_ok h
  | descriptorTake => exact execDescriptorTake_ok h
  | mbDb => exact execMbDb_ok h
  | mbCplConsWrite => exact execMbCplConsWrite_ok h
  | mbEnable => exact execMbEnable_ok h
  | mbDisable => exact execMbDisable_ok h
  | evrEnable => exact execEvrEnable_ok h
  | evrConsWrite => exact execEvrConsWrite_ok h
  | sqCmdArm => exact execSqCmdArm_ok h
  | sqCmdResume => exact execSqCmdResume_ok h
  | sqCmdSnap => exact execSqCmdSnap_ok h
  | phRegisterWrite => exact execPhRegisterWrite_ok h
  | srCommit => exact execSrCommit_ok h
  | cuStailWrite => exact execCuStailWrite_ok h
  | resConsWrite => exact execResConsWrite_ok h
  | twMresConsWrite => exact execTwMresConsWrite_ok h
  | duQuotaWrite => exact execDuQuotaWrite_ok h
  | rcRead => exact execRcRead_ok h
  | latchedPairRead => exact execLatchedPairRead_ok h
  | registerWrite => exact execRegisterWrite_ok h
  | nop => exact execNop_ok h
  | mov => exact execMov_ok h
  | ldi => exact execLdi_ok h
  | add => exact execAdd_ok h
  | addi => exact execAddi_ok h
  | sub => exact execSub_ok h
  | and => exact execAnd_ok h
  | or => exact execOr_ok h
  | xor => exact execXor_ok h
  | shl => exact execShl_ok h
  | shr => exact execShr_ok h
  | cmp => exact execCmp_ok h
  | cmpi => exact execCmpi_ok h
  | ldent => exact execLdent_ok h
  | fld => exact execFld_ok h
  | issue => exact execIssue_ok h
  | push => exact execPush_ok h
  | pop => exact execPop_ok h
  | topw => exact execTopw_ok h
  | ldins => exact execLdins_ok h
  | disp => exact execDisp_ok h
  | setf => exact execSetf_ok h
  | clrl => exact execClrl_ok h
  | armc => exact execArmc_ok h
  | pndg => exact execPndg_ok h
  | setstop => exact execSetstop_ok h
  | post => exact execPost_ok h
  | test => exact execTest_ok h
  | reti => exact execReti_ok h
  | csrr => exact execCsrr_ok h
  | csrw => exact execCsrw_ok h
  | reservedOpcode => exact execReservedOpcode_ok h
  | interruptTake => exact execInterruptTake_ok h
  | primerTimeout => exact execPrimerTimeout_ok h
  | loopBegin => exact execLoopBegin_ok h
  | loopEnd => exact execLoopEnd_ok h
  | call => exact execCall_ok h
  | ret => exact execRet_ok h
  | wait => exact execWait_ok h
  | setflag => exact execSetflag_ok h
  | startInstant => exact execStartInstant_ok h
  | startDeadline => exact execStartDeadline_ok h
  | vectorStart => exact execVectorStart_ok h
  | underrun => exact execUnderrun_ok h
  | boundary => exact execBoundary_ok h
  | mapSegmentPublish => exact execMapSegmentPublish_ok h
  | edgePlacement => exact execEdgePlacement_ok h
  | markPulseEnd => exact execMarkPulseEnd_ok h
  | strobeSample => exact execStrobeSample_ok h
  | judgementResolve => exact execJudgementResolve_ok h
  | evaluation => exact execEvaluation_ok h
  | triggerTimeout => exact execTriggerTimeout_ok h
  | busLineEnd => exact execBusLineEnd_ok h
  | acquisitionOpen => exact execAcquisitionOpen_ok h
  | rearm => exact execRearm_ok h
  | disarmEnd => exact execDisarmEnd_ok h
  | recordRelease => exact execRecordRelease_ok h
  | stopInstant => exact execStopInstant_ok h
  | stoppingComplete => exact execStoppingComplete_ok h
  | coatWaitTimeout => exact execCoatWaitTimeout_ok h
  | refStamp => exact execRefStamp_ok h
  | refMissingTimeout => exact execRefMissingTimeout_ok h
  | acqTimeout => exact execAcqTimeout_ok h
  | holdLimit => exact execHoldLimit_ok h
  | grefTimeout => exact execGrefTimeout_ok h
  | grefFreqCheck => exact execGrefFreqCheck_ok h
  | grefReturn => exact execGrefReturn_ok h
  | multiplierLock => exact execMultiplierLock_ok h
  | tdcx00CalDone => exact execTdcx00CalDone_ok h
  | gpegPulse => exact execGpegPulse_ok h
  | echoDrive => exact execEchoDrive_ok h
  | reflectionTimeout => exact execReflectionTimeout_ok h
  | pegWindowMiss => exact execPegWindowMiss_ok h
  | timeAlignTimeout => exact execTimeAlignTimeout_ok h
  | xtrigEdge => exact execXtrigEdge_ok h
  | parkNAssert => exact execParkNAssert_ok h
  | parkNRelease => exact execParkNRelease_ok h
  | tdcArmInstant => exact execTdcArmInstant_ok h
  | tdcStamp => exact execTdcStamp_ok h
  | freqGateWindow => exact execFreqGateWindow_ok h
  | measurementTimeout => exact execMeasurementTimeout_ok h
  | vcmReadDone => exact execVcmReadDone_ok h
  | rowRepair => exact execRowRepair_ok h
  | refreshInterval => exact execRefreshInterval_ok h
  | thermalSample => exact execThermalSample_ok h
  | dieTrip => exact execDieTrip_ok h
  | throttleTick => exact execThrottleTick_ok h
  | avsTick => exact execAvsTick_ok h
  | pmbusTimeout => exact execPmbusTimeout_ok h
  | porstNAssert => exact execPorstNAssert_ok h
  | porstNRelease => exact execPorstNRelease_ok h
  | warmrstNAssert => exact execWarmrstNAssert_ok h
  | warmrstNRelease => exact execWarmrstNRelease_ok h
  | pwrfailNAssert => exact execPwrfailNAssert_ok h
  | startPhaseEnd => exact execStartPhaseEnd_ok h
  | xspiTimeout => exact execXspiTimeout_ok h
  | i3cWrite => exact execI3cWrite_ok h
  | i3cPointer => exact execI3cPointer_ok h
  | emergencyPark => exact execEmergencyPark_ok h
  | i3cTimeout => exact execI3cTimeout_ok h
  | jtagInstruction => exact execJtagInstruction_ok h
  | codewordReceive => exact execCodewordReceive_ok h
  | laneLockTimeout => exact execLaneLockTimeout_ok h
  | frameReceive => exact execFrameReceive_ok h
  | nak => exact execNak_ok h
  | ackTimeout => exact execAckTimeout_ok h
  | ackSendTimer => exact execAckSendTimer_ok h
  | credit => exact execCredit_ok h
  | restripe => exact execRestripe_ok h
  | restripeAck => exact execRestripeAck_ok h
  | idleReq => exact execIdleReq_ok h
  | idleAck => exact execIdleAck_ok h
  | idleNak => exact execIdleNak_ok h
  | idleDelayTimeout => exact execIdleDelayTimeout_ok h
  | exitBurst => exact execExitBurst_ok h
  | wakeTx => exact execWakeTx_ok h
  | soak => exact execSoak_ok h
  | soakEnd => exact execSoakEnd_ok h
  | laneTrainDone => exact execLaneTrainDone_ok h
  | slowLaneCheck => exact execSlowLaneCheck_ok h
  | signalDetect => exact execSignalDetect_ok h
  | signalLoss => exact execSignalLoss_ok h
  | capabilityBlock => exact execCapabilityBlock_ok h
  | equalizeDone => exact execEqualizeDone_ok h
  | alignDone => exact execAlignDone_ok h
  | trainingTimeout => exact execTrainingTimeout_ok h
  | backoffEnd => exact execBackoffEnd_ok h
  | mrd => exact execMrd_ok h
  | mwr => exact execMwr_ok h
  | cpl => exact execCpl_ok h
  | mrdTimeout => exact execMrdTimeout_ok h
  | creditStall => exact execCreditStall_ok h
  | msg => exact execMsg_ok h
  | startAt => exact execStartAt_ok h
  | ptp => exact execPtp_ok h
  | announceTimeout => exact execAnnounceTimeout_ok h
  | tsqEntryTimeout => exact execTsqEntryTimeout_ok h
  | tsqHoldTimeout => exact execTsqHoldTimeout_ok h
  | workItemPost => exact execWorkItemPost_ok h
  | workItemReady => exact execWorkItemReady_ok h
  | workItemDispatch => exact execWorkItemDispatch_ok h
  | workItemDone => exact execWorkItemDone_ok h
  | duLoadWindow => exact execDuLoadWindow_ok h
  | flowBudgetTimer => exact execFlowBudgetTimer_ok h
  | flowHangTimer => exact execFlowHangTimer_ok h
  | flowEntryReturn => exact execFlowEntryReturn_ok h
  | flowEntryTimeout => exact execFlowEntryTimeout_ok h
  | signatureDone => exact execSignatureDone_ok h
  | reservationWriteDone => exact execReservationWriteDone_ok h
  | sessionKeyGenerated => exact execSessionKeyGenerated_ok h
  | sealTimer => exact execSealTimer_ok h
  | challengeExpiry => exact execChallengeExpiry_ok h
  | flushTimer => exact execFlushTimer_ok h
  | flushDone => exact execFlushDone_ok h
  | recReadRetry => exact execRecReadRetry_ok h
  | lifeSecond => exact execLifeSecond_ok h
  | railSample => exact execRailSample_ok h
  | laneHour => exact execLaneHour_ok h
  | calendarCheck => exact execCalendarCheck_ok h
  | heartbeatSend => exact execHeartbeatSend_ok h
  | heartbeat => exact execHeartbeat_ok h
  | heartbeatMiss => exact execHeartbeatMiss_ok h
  | failing => exact execFailing_ok h
  | mirror => exact execMirror_ok h
  | mirrorAck => exact execMirrorAck_ok h
  | pair => exact execPair_ok h
  | syncDone => exact execSyncDone_ok h
  | twinPairTimeout => exact execTwinPairTimeout_ok h
  | twinAliveTimeout => exact execTwinAliveTimeout_ok h
  | twinAliveRange => exact execTwinAliveRange_ok h
  | twinAliveReturn => exact execTwinAliveReturn_ok h
  | sidebandTimeout => exact execSidebandTimeout_ok h
  | internalFault => exact execInternalFault_ok h
  | stageChunkTimeout => exact execStageChunkTimeout_ok h
  | deepStoreRowFeed => exact execDeepStoreRowFeed_ok h
  | refreshIssue => exact execRefreshIssue_ok h
  | vcmWriteDrain => exact execVcmWriteDrain_ok h
  | ptpMessageInterval => exact execPtpMessageInterval_ok h

/-! ## A core cycle -/

/-- The end of a core cycle is the one place where time advances. -/
theorem newCycle_ok (h : s.Ok q n) : (newCycle s).Ok q (n + 1) := by
  unfold newCycle
  extract_lets settled
  have hsettled : settled.Ok q n :=
    settleDispatch_ok (closeMeasures_ok (reportEnded_ok (Ok.foldl h fun _ _ ht => confirmStart_ok ht)))
  clear_value settled
  obtain ⟨hgood, hpending, hnow⟩ := hsettled
  exact sampleDue_ok (lastingBits_ok ⟨hgood, hpending, congrArg (· + 1) hnow⟩)

/-- While the domains outside VAUX are held, only time passes. -/
theorem tick_of_halted (h : (newCycle s).halted = true) : tick s = newCycle s := by
  simp only [tick, h, if_true]

theorem tick_ok (h : s.Ok q n) : (tick s).Ok q (n + 1) := by
  have hnew : (newCycle s).Ok q (n + 1) := newCycle_ok h
  unfold tick
  dsimp only
  split
  · exact hnew
  · exact serviceTick_ok <| scrubTick_ok <| forAll_ok
      (finalTick_ok <| measTick_ok <| latchAll_ok <| xtrigTick_ok <| noteClocks_ok <| clockTick_ok <| beatTick_ok <| reclaim_ok <|
        supplyAll_ok <| blockTick_ok hnew) fun _ _ ht => settleMark_ok ht

/-! ## A step -/

theorem step_cons {c : Instr} (h : s.pending = c :: q) : step s = exec c { s with pending := q } := by
  simp only [step, h]

theorem step_nil (h : s.pending = []) : step s = .next (tick s) := by
  simp only [step, h]

end

/-! ## The obligations -/

/-- Settles O3. A step is a command, on the state with the queue's rest, or a core cycle. -/
theorem stepsKeepTheInvariant : Obligations.StepsKeepTheInvariant := by
  unfold Obligations.StepsKeepTheInvariant
  intro s t hs ht
  cases hq : s.pending with
  | nil =>
    obtain rfl := Host.Outcome.next.inj ((step_nil hq).symm.trans ht)
    exact (tick_ok ⟨hs, rfl, rfl⟩).1
  | cons c q =>
    have hrest : State.Ok q s.now { s with pending := q } := ⟨hs, rfl, rfl⟩
    exact ((exec_ok hrest c).ok t ((step_cons hq).symm.trans ht)).1

/-- Settles O4. -/
theorem commandsLeaveTheQueueAndTheTime : Obligations.CommandsLeaveTheQueueAndTheTime := by
  unfold Obligations.CommandsLeaveTheQueueAndTheTime
  intro c s t hs ht
  exact ((exec_ok ⟨hs, rfl, rfl⟩ c).ok t ht).2

/-- Settles O1. The invariant is what lets a core cycle be followed to its end: it carries the queue and the time with it. -/
theorem stepsRunTheQueue : Obligations.StepsRunTheQueue := by
  unfold Obligations.StepsRunTheQueue
  refine ⟨fun c q s => step_cons rfl, fun s hq => ⟨step_nil hq, fun hs => ?_, tick_of_halted⟩⟩
  obtain ⟨-, hpending, hnow⟩ := tick_ok (q := []) (n := s.now) ⟨hs, hq, rfl⟩
  exact ⟨hnow, hpending⟩

/-- The empty register file and the empty memories are in canonical form. -/
theorem reset_good : State.reset.Good := ⟨by decide, List.Pairwise.nil, fun _ he => absurd he (List.not_mem_nil)⟩

/-- Settles O2. Every register of the empty register file reads its reset value. -/
theorem resetIsIdleAndGood : Obligations.ResetIsIdleAndGood := by
  unfold Obligations.ResetIsIdleAndGood
  exact ⟨reset_good, rfl, fun _ => ⟨rfl, rfl, rfl⟩, fun _ => ⟨rfl, rfl⟩, rfl, rfl⟩

/-- Settles O5. The meaning of every command is a next state in all its branches (the model's choice, log entry 10). -/
theorem everyCommandCompletes : Obligations.EveryCommandCompletes := by
  unfold Obligations.EveryCommandCompletes
  intro c s
  unfold Completes exec
  cases c <;> exact ⟨_, rfl⟩

end Sys2Proof.Machine
end

section
/-! SUPPORT. Reading back what was written: register fields, memories, and W1C fields beside what hardware sets (R8, R365). -/

namespace Sys2Proof.Machine

open Sys2Proof

/-- Settles O6. Two register keys are one exactly when their three parts agree. -/
theorem registersReadAsWritten : Obligations.RegistersReadAsWritten := by
  unfold Obligations.RegistersReadAsWritten
  intro s f g u i v u' i'
  split
  · next h =>
    obtain ⟨rfl, rfl, rfl⟩ := h
    exact s.r_w_self ..
  · next h => exact s.r_w_key _ _ _ _ _ _ _ fun hkey => h (RKey.mk.injEq .. ▸ hkey)

/-- Settles O7. -/
theorem memoriesReadAsWritten : Obligations.MemoriesReadAsWritten := by
  unfold Obligations.MemoriesReadAsWritten
  intro s sp sp' a b
  refine ⟨?_, fun c hc => s.store_out sp a c b hc, s.space_store_ne a b, fun h => ?_⟩
  · rw [State.load, State.space_store, Mem.rds_wrs]
  · rw [State.space_store]
    exact Mem.wf_wrs b a h

/-! ## W1C fields -/

/-- Subtracting common bits clears them. -/
theorem testBit_sub_and (k : Nat) : ∀ x m : Nat, (x - (x &&& m)).testBit k = (x.testBit k && !m.testBit k) := by
  induction k with
  | zero =>
    intro x m
    have hand : (x &&& m) % 2 = 1 ↔ x % 2 = 1 ∧ m % 2 = 1 := Nat.and_mod_two_eq_one
    have hle : x &&& m ≤ x := Nat.and_le_left
    rw [Bool.eq_iff_iff]
    simp only [Nat.testBit_zero, decide_eq_true_eq, Bool.and_eq_true, Bool.not_eq_true', decide_eq_false_iff_not]
    omega
  | succ k ih =>
    intro x m
    have hdiv : (x - (x &&& m)) / 2 = x / 2 - (x / 2 &&& m / 2) := by
      have hle : x &&& m ≤ x := Nat.and_le_left
      have hhalf : (x &&& m) / 2 = x / 2 &&& m / 2 := Nat.and_div_two
      have hlow : (x &&& m) % 2 ≤ x % 2 := by
        rw [Nat.and_mod_two_pow (n := 1)]
        exact Nat.and_le_left
      omega
    rw [Nat.testBit_succ, Nat.testBit_succ, Nat.testBit_succ, hdiv, ih]

/-- Bits of a field that hardware sets in a core cycle are noted, where a write of 1s clears the field. -/
theorem setNow_setW {f : Fld} (u i b : Nat) (s : State) (h : f.info.acc = .W1C) :
    (s.setW f u b i).setNow ⟨f, u, i⟩ = b ||| s.setNow ⟨f, u, i⟩ := by
  have hfold : ∀ l : List Nat, l.foldl (· ||| ·) b = b ||| l.foldl (· ||| ·) 0 := fun l =>
    (congrArg (l.foldl (· ||| ·)) (Nat.or_zero b).symm).trans List.foldl_assoc
  simp only [State.setW, h, if_true, State.setNow, onCyc, List.filter_cons_of_pos, beq_self_eq_true, List.map_cons, List.foldl_cons,
    Nat.zero_or, hfold]
  rfl

/-- A write of 1s clears the bits written, but for those that hardware has set in the core cycle. -/
theorem testBit_w1c {f : Fld} (u i v : Nat) (s : State) {k : Nat} (hk : k < f.width) :
    ((w1c f u i v s).r f u i).testBit k = ((s.r f u i).testBit k && (!v.testBit k || (s.setNow ⟨f, u, i⟩).testBit k)) := by
  simp only [w1c, State.r_w_self, Nat.testBit_mod_two_pow, hk, decide_true, Bool.true_and, testBit_sub_and, Bool.not_and, Bool.not_not]

theorem testBit_setW {f : Fld} (u i b : Nat) (s : State) {k : Nat} (hk : k < f.width) :
    ((s.setW f u b i).r f u i).testBit k = ((s.r f u i).testBit k || b.testBit k) := by
  simp only [State.r_setW, Nat.testBit_mod_two_pow, hk, decide_true, Bool.true_and, Nat.testBit_or]

/-- Settles O38. A bit set before the clear is noted for its core cycle, and one set after it is set again. -/
theorem aClearSparesWhatHardwareSets : Obligations.AClearSparesWhatHardwareSets := by
  unfold Obligations.AClearSparesWhatHardwareSets
  intro f u i v b k s hacc hk
  refine ⟨?_, ?_, fun g u' i' h => s.r_w_key _ _ _ _ _ _ _ fun hkey => h (RKey.mk.injEq .. ▸ hkey)⟩
  · rw [testBit_w1c _ _ _ _ hk, testBit_setW _ _ _ _ hk, setNow_setW _ _ _ _ hacc, Nat.testBit_or]
    cases b.testBit k <;> simp
  · rw [testBit_setW _ _ _ _ hk, testBit_w1c _ _ _ _ hk, Bool.or_comm]

end Sys2Proof.Machine
end

section
/-! SUPPORT. Phases across the wrap (R12), the nearest tap (R57) and the bank predictor (R247). -/

namespace Sys2Proof.Machine

open Sys2Proof

/-! ## Phases -/

/-- The difference of two phases is the residue of their distance in the signed range. -/
theorem phDiff_eq (a b : Nat) : phDiff a b =
    if (a + 2 ^ 64 - b) % 2 ^ 64 < 2 ^ 63 then (((a + 2 ^ 64 - b) % 2 ^ 64 : Nat) : Int)
    else (((a + 2 ^ 64 - b) % 2 ^ 64 : Nat) : Int) - (2 ^ 64 : Nat) := rfl

/-- Settles O8. -/
theorem phasesCompareAcrossTheWrap : Obligations.PhasesCompareAcrossTheWrap := by
  unfold Obligations.PhasesCompareAcrossTheWrap
  refine ⟨fun a b => rfl, fun a b ha hb => ?range, fun a d ha hd => ?later⟩
  case range =>
    rw [phDiff_eq]
    split <;> omega
  case later =>
    rw [phDiff_eq, phDiff_eq, phAdd]
    constructor <;> split <;> omega

/-! ## The nearest tap -/

/-- How far a tap's calibrated value lies from a residue. -/
def tapMiss (resid t : Nat) : Nat := if t ≤ resid then resid - t else t - resid

theorem natAbs_sub_eq_tapMiss (resid t : Nat) : ((t : Int) - resid).natAbs = tapMiss resid t := by
  unfold tapMiss
  split <;> omega

/-- The first of the taps nearest to a residue. -/
structure NearestTap (resid : Nat) (l : List Nat) (k : Nat) : Prop where
  lt : k < l.length
  le : ∀ i, i < l.length → tapMiss resid (l.getD k 0) ≤ tapMiss resid (l.getD i 0)
  first : ∀ i, i < k → tapMiss resid (l.getD k 0) < tapMiss resid (l.getD i 0)

/-- A tap in front that lies farther away leaves the nearest one. -/
theorem NearestTap.cons {resid t k : Nat} {l : List Nat} (h : NearestTap resid l k)
    (ht : tapMiss resid (l.getD k 0) < tapMiss resid t) : NearestTap resid (t :: l) (k + 1) where
  lt := Nat.succ_lt_succ h.lt
  le i hi := by
    cases i with
    | zero => exact ht.le
    | succ i => exact h.le i (Nat.lt_of_succ_lt_succ hi)
  first i hi := by
    cases i with
    | zero => exact ht
    | succ i => exact h.first i (Nat.lt_of_succ_lt_succ hi)

theorem nearestTap_head {resid t : Nat} {l : List Nat} (h : ∀ i, i < l.length → tapMiss resid t ≤ tapMiss resid (l.getD i 0)) :
    NearestTap resid (t :: l) 0 where
  lt := Nat.succ_pos _
  le i hi := by
    cases i with
    | zero => exact le_rfl
    | succ i => exact h i (Nat.lt_of_succ_lt_succ hi)
  first i hi := absurd hi (Nat.not_lt_zero i)

/-- The search over a list of taps keeps the best tap before it where none is nearer, and ends at the nearest one otherwise. -/
theorem tapFrom_cases (resid : Nat) (l : List Nat) : ∀ best miss i : Nat,
    ((tapFrom resid best miss i l).1 = best ∧ ∀ j, j < l.length → miss ≤ tapMiss resid (l.getD j 0)) ∨
    ∃ k, (tapFrom resid best miss i l).1 = i + k ∧ NearestTap resid l k ∧ tapMiss resid (l.getD k 0) < miss := by
  induction l with
  | nil => exact fun best miss i => .inl ⟨rfl, fun j hj => absurd hj (Nat.not_lt_zero j)⟩
  | cons t r ih =>
    intro best miss i
    have hstep : tapFrom resid best miss i (t :: r) =
        if tapMiss resid t < miss then tapFrom resid i (tapMiss resid t) (i + 1) r else tapFrom resid best miss (i + 1) r := rfl
    rw [hstep]
    split
    · next ht =>
      rcases ih i (tapMiss resid t) (i + 1) with ⟨hkeep, hfar⟩ | ⟨k, hk, hnear, hlt⟩
      · exact .inr ⟨0, hkeep, nearestTap_head hfar, ht⟩
      · exact .inr ⟨k + 1, by omega, hnear.cons hlt, hlt.trans ht⟩
    · next ht =>
      rcases ih best miss (i + 1) with ⟨hkeep, hfar⟩ | ⟨k, hk, hnear, hlt⟩
      · refine .inl ⟨hkeep, fun j hj => ?_⟩
        cases j with
        | zero => exact Nat.le_of_not_lt ht
        | succ j => exact hfar j (Nat.lt_of_succ_lt_succ hj)
      · exact .inr ⟨k + 1, by omega, hnear.cons (hlt.trans_le (Nat.le_of_not_lt ht)), hlt⟩

/-- A table with values of 31 bits has a tap nearer than the bound that the search begins with. -/
theorem chooseTap_nearest {tab : List Nat} {resid : Nat} (hne : tab ≠ []) (htab : ∀ x ∈ tab, x < 2 ^ 31) (hr : resid < 2 ^ 31) :
    NearestTap resid tab (chooseTap tab resid) := by
  unfold chooseTap
  rcases tapFrom_cases resid tab 0 (2 ^ 32) 0 with ⟨-, hfar⟩ | ⟨k, hk, hnear, -⟩
  · obtain ⟨t, r, rfl⟩ := List.exists_cons_of_ne_nil hne
    have hfirst : 2 ^ 32 ≤ tapMiss resid t := hfar 0 (Nat.succ_pos _)
    have ht : t < 2 ^ 31 := htab t (by simp)
    unfold tapMiss at hfirst
    split at hfirst <;> omega
  · rw [hk, Nat.zero_add]
    exact hnear

/-- Settles O18. -/
theorem edgesTakeTheNearestTap : Obligations.EdgesTakeTheNearestTap := by
  unfold Obligations.EdgesTakeTheNearestTap
  intro tab resid hne htab hr
  simp only [natAbs_sub_eq_tapMiss]
  obtain ⟨hlt, hle, hfirst⟩ := chooseTap_nearest hne htab hr
  exact ⟨hlt, fun i hi => ⟨hle i hi, hfirst i⟩⟩

/-! ## The bank predictor -/

/-- A judged counter moves by one within 0 to 3, and the others stay. -/
theorem getD_bump {l : List Nat} {h : Nat} (hh : h < l.length) (k : Nat) (up : Bool) :
    (bump l h up).getD k 2 = if k ≠ h then l.getD k 2 else if up = true then min 3 (l.getD k 2 + 1) else l.getD k 2 - 1 := by
  unfold bump
  by_cases hk : k = h
  · subst hk
    simp [List.getD_eq_getElem?_getD, hh]
  · simp [List.getD_eq_getElem?_getD, hk, List.getElem?_set_ne (Ne.symm hk)]

/-- Settles O11. The choice that the last access made is right where it kept the row open and the access hits it, or closed it and
another row comes. -/
theorem theBankPredictorLearns : Obligations.TheBankPredictorLearns := by
  unfold Obligations.TheBankPredictorLearns
  refine ⟨rfl, fun b row same hit hlen hh hsame hhit => ?access, fun b => rfl⟩
  case access =>
    have hc : (b.access row).c = if b.lastRow.isNone then b.c else bump b.c b.h (if b.kept then hit else !same) := by
      rw [hhit, hsame]; rfl
    refine ⟨by rw [hhit, hsame]; rfl, rfl, rfl, rfl, fun hsome k hk => ?_, fun hnone => by rw [hc, hnone]; rfl⟩
    rw [hc, Option.isNone_eq_false_iff.mpr hsome, if_neg Bool.false_ne_true, getD_bump (by omega)]
    cases b.kept <;> simp

end Sys2Proof.Machine
end

section
/-! SUPPORT. A completion: its entry, and what finishing the command leaves (R329, R332, R335, R447). -/

namespace Sys2Proof.Machine

open Sys2Proof

/-! ## Its parts -/

/-- The entry put into its ring, or held back for the twin. -/
def enterCpl (d : Desc) (entry : Nat) (s : State) : State :=
  if s.twinWaits then mirror (.completion d.mb d.index entry) s
  else mirrorMb d.mb (writeCpl d.mb entry (mirror (.completion d.mb d.index entry) s))

/-- What a final completion does beside its entry. -/
def finishCmd (d : Desc) (entry : Nat) (s : State) : State :=
  drained d.mb (notifyCpl d entry (freeCmd d (s.w .MB_STAT_OUTSTANDING d.mb (s.r .MB_STAT_OUTSTANDING d.mb - 1))))

section
variable (d : Desc) (e : Nat) (s : State)

theorem mirror_twinWaits (m : MirrorItem) : (mirror m s).twinWaits = s.twinWaits := by
  unfold State.twinWaits
  simp only [State.r_congr (mirror_regs m s)]

/-- A completion with a status of its own enters its entry and, if it is final, finishes its command. -/
theorem complete_eq {cmd st r0 r1 r2 : Nat} {interim : Bool} (hst : st < 256) : complete cmd d st interim r0 r1 r2 s =
    if interim then enterCpl d (cplEntry cmd st interim d r0 r1 r2) s
    else finishCmd d (cplEntry cmd st interim d r0 r1 r2) (enterCpl d (cplEntry cmd st interim d r0 r1 r2) s) := by
  simp only [complete, enterCpl, finishCmd, if_neg (Nat.not_le.mpr hst), mirror_twinWaits]

/-! ## The entry -/

theorem State.space_congr {s t : State} (h : t.mem = s.mem) (sp : Nat) : t.space sp = s.space sp := by
  unfold State.space
  rw [h]

/-- The entry with the parity of the pass. -/
def phasedEntry (s : State) (mb e : Nat) : Nat := e + (if s.r .MB_CPL_PROD_COUNT mb / s.mbSize mb % 2 = 0 then 2 ^ 41 else 0)

/-- Without a twin that waits the entry goes into the slot of the producer count, and the count advances. -/
theorem enterCpl_now (h : s.twinWaits = false) :
    enterCpl d e s = mirrorMb d.mb (((mirror (.completion d.mb d.index e) s).storeN 3 (cplSlot s d.mb) 32 (phasedEntry s d.mb e)).w
      .MB_CPL_PROD_COUNT d.mb (s.r .MB_CPL_PROD_COUNT d.mb + 1)) := by
  simp only [enterCpl, h, Bool.false_eq_true, if_false, writeCpl, State.mbSize, State.r_congr (mirror_regs _ s), phasedEntry]
  rfl

theorem enterCpl_waits (h : s.twinWaits = true) : enterCpl d e s = mirror (.completion d.mb d.index e) s := by
  simp only [enterCpl, h, if_true]

theorem enterCpl_now_space (h : s.twinWaits = false) (sp : Nat) :
    (enterCpl d e s).space sp = (s.storeN 3 (cplSlot s d.mb) 32 (phasedEntry s d.mb e)).space sp := by
  rw [enterCpl_now d e s h, State.space_congr (mirrorMb_mem _ _)]
  rcases mirror_eq (.completion d.mb d.index e) s with hm | hm <;> rw [hm] <;> rfl

theorem enterCpl_space_of_ne {sp : Nat} (hsp : sp ≠ 3) : (enterCpl d e s).space sp = s.space sp := by
  cases h : s.twinWaits with
  | true => rw [enterCpl_waits d e s h, State.space_congr (mirror_mem _ _)]
  | false =>
    rw [enterCpl_now_space d e s h]
    exact s.space_store_ne _ _ (by omega)

/-- Entering moves the producer count only. -/
theorem enterCpl_r {f : Fld} (u i : Nat) (hf : f ≠ .MB_CPL_PROD_COUNT) : (enterCpl d e s).r f u i = s.r f u i := by
  cases h : s.twinWaits with
  | true => rw [enterCpl_waits d e s h, State.r_congr (mirror_regs _ _)]
  | false =>
    rw [enterCpl_now d e s h, State.r_congr (mirrorMb_regs _ _), State.r_w_ne _ _ _ _ _ _ _ _ hf]
    exact State.r_congr (mirror_regs _ s) ..

theorem enterCpl_now_prod (h : s.twinWaits = false) :
    (enterCpl d e s).r .MB_CPL_PROD_COUNT d.mb = (s.r .MB_CPL_PROD_COUNT d.mb + 1) % 2 ^ 32 := by
  rw [enterCpl_now d e s h, State.r_congr (mirrorMb_regs _ _)]
  exact State.r_w_self ..

/-- The fields of Table MBX-2 leave the PHASE bit and fill 32 bytes with it. -/
theorem phasedEntry_lt (mb cmd st : Nat) (interim : Bool) (r0 r1 r2 : Nat) :
    phasedEntry s mb (cplEntry cmd st interim d r0 r1 r2) < 256 ^ 32 := by
  have hlow : pack [(16, cmd), (16, d.tag), (8, st), (1, b2n interim)] < 2 ^ 41 := pack_lt _
  have hhigh : pack [(6, d.mb), (16, d.index), (64, r0), (64, r1), (64, r2)] < 2 ^ 214 := pack_lt _
  have hentry : cplEntry cmd st interim d r0 r1 r2 = pack [(16, cmd), (16, d.tag), (8, st), (1, b2n interim)] +
      2 ^ 41 * (2 * pack [(6, d.mb), (16, d.index), (64, r0), (64, r1), (64, r2)]) :=
    (pack_append [(16, cmd), (16, d.tag), (8, st), (1, b2n interim)] _).trans (by norm_num [packWidth, pack])
  rw [phasedEntry, hentry]
  split <;> omega

/-! ## The end of the command -/

theorem drained_r (mb : Nat) {f : Fld} (u i : Nat) (hf : f ≠ .MB_CFG_EN) : (drained mb s).r f u i = s.r f u i := by
  unfold drained
  split
  · rw [State.r_congr (mirrorMb_regs _ _)]
    exact s.r_w_ne .MB_CFG_EN f mb 0 0 u i hf
  · rfl

theorem finishCmd_mem : (finishCmd d e s).mem = s.mem := by
  rw [finishCmd, drained_mem, (notifyCpl_from ..).mem, (freeCmd_from ..).mem, State.w_mem]

/-- The registers that the end of a command moves. -/
abbrev finishFields : List Fld := [.MB_CFG_EN, .LK_TXN_DROP_MSG, .CU_FILL_USED, .CU_FILL_PEAK, .DU_CANCEL_CANCEL, .DU_CANCEL_RCANCEL]

theorem finishCmd_r {f : Fld} (u i : Nat) (hf : f ∉ finishFields) : (finishCmd d e s).r f u i =
    (s.w .MB_STAT_OUTSTANDING d.mb (s.r .MB_STAT_OUTSTANDING d.mb - 1)).r f u i := by
  simp only [List.mem_cons, not_or] at hf
  obtain ⟨hen, hdrop, hfreed⟩ := hf
  rw [finishCmd, drained_r _ _ _ _ hen, (notifyCpl_from ..).r _ _ _ hdrop, (freeCmd_from ..).r _ _ _ (by simpa using hfreed)]

end

/-! ## The whole completion -/

section
variable (cmd : Nat) (d : Desc) {st : Nat} (interim : Bool) (r0 r1 r2 : Nat) (s : State) (hst : st < 256)
include hst

/-- Of the memories a completion changes what its entry changes. -/
theorem complete_mem : (complete cmd d st interim r0 r1 r2 s).mem = (enterCpl d (cplEntry cmd st interim d r0 r1 r2) s).mem := by
  rw [complete_eq d s hst]
  split
  · rfl
  · exact finishCmd_mem ..

/-- A register other than OUTSTANDING and what the end of a command moves. -/
theorem complete_r {f : Fld} (u i : Nat) (hf : f ∉ finishFields) (hout : f ≠ .MB_STAT_OUTSTANDING) :
    (complete cmd d st interim r0 r1 r2 s).r f u i = (enterCpl d (cplEntry cmd st interim d r0 r1 r2) s).r f u i := by
  rw [complete_eq d s hst]
  split
  · rfl
  · rw [finishCmd_r _ _ _ _ _ hf, State.r_w_ne _ _ _ _ _ _ _ _ hout]

/-- OUTSTANDING falls with a final completion only (R332). -/
theorem complete_outstanding : (complete cmd d st interim r0 r1 r2 s).r .MB_STAT_OUTSTANDING d.mb =
    if interim then s.r .MB_STAT_OUTSTANDING d.mb else (s.r .MB_STAT_OUTSTANDING d.mb - 1) % 2 ^ Fld.width .MB_STAT_OUTSTANDING := by
  have henter := enterCpl_r d (cplEntry cmd st interim d r0 r1 r2) s (f := .MB_STAT_OUTSTANDING) d.mb 0 (by decide)
  rw [complete_eq d s hst]
  split
  · exact henter
  · rw [finishCmd_r _ _ _ _ _ (by decide), State.r_w_self, henter]

end

/-- Settles O16. Finishing the command touches no memory, so what a completion changes there is its entry. -/
theorem completionsWriteTheirEntryOnly : Obligations.CompletionsWriteTheirEntryOnly := by
  unfold Obligations.CompletionsWriteTheirEntryOnly
  intro cmd d st interim r0 r1 r2 s hst
  have hmem := complete_mem cmd d interim r0 r1 r2 s hst
  refine ⟨fun hwaits => ?heldBack, fun hnow => ⟨?entry, ?advances, fun a ha => ?outside⟩, fun sp hsp => ?otherSpaces,
    complete_outstanding cmd d interim r0 r1 r2 s hst⟩
  case heldBack => rw [hmem, enterCpl_waits _ _ _ hwaits, mirror_mem]
  case entry =>
    rw [State.loadN, State.space_congr hmem, enterCpl_now_space _ _ _ hnow, State.storeN, State.space_store]
    exact (rdn_wrn ..).trans (Nat.mod_eq_of_lt (phasedEntry_lt ..))
  case advances => rw [complete_r _ _ _ _ _ _ _ hst _ _ (by decide) (by decide), enterCpl_now_prod _ _ _ hnow]
  case outside =>
    change ((complete cmd d st interim r0 r1 r2 s).space 3).rd a = (s.space 3).rd a
    rw [State.space_congr hmem, enterCpl_now_space _ _ _ hnow]
    exact s.store_out _ _ _ _ (by rwa [length_bytesOf])
  case otherSpaces => rw [State.space_congr hmem, enterCpl_space_of_ne _ _ _ hsp]

end Sys2Proof.Machine
end

section
/-! SUPPORT. Doorbells (R326), quotas (R359), the beat offset (R298, R303) and throttle ticks (R423). -/

namespace Sys2Proof.Machine

open Sys2Proof

/-! ## Doorbells -/

/-- A mailbox error sets ERR with its cause, and touches no register beside them but those of the event. -/
theorem mbErr_stat (n cause : Nat) (s : State) :
    (mbErr n cause s).r .MB_STAT_ERR n = 1 ∧ (mbErr n cause s).r .MB_STAT_ECAUSE n = cause % 2 ^ Fld.width .MB_STAT_ECAUSE ∧
      (mbErr n cause s).r .MB_PROD_COUNT n = s.r .MB_PROD_COUNT n := by
  unfold mbErr
  refine ⟨?_, ?_, ?_⟩ <;> rw [event_r _ _ _ _ _ _ (by decide)]
  · exact State.r_setF _ _ _ _ rfl
  · rw [State.r_setF_ne _ _ _ _ _ _ _ (by decide), State.r_w_self]
  · rw [State.r_setF_ne _ _ _ _ _ _ _ (by decide), State.r_w_ne _ _ _ _ _ _ _ _ (by decide)]

section
variable {path : Path} {n v : Nat} {s : State}

theorem mbDb_disabled (h : s.rb .MB_CFG_EN n = false) : mbDb path n v s = mbErr n 2 s := by
  simp only [mbDb, h, Bool.not_false, Bool.true_or, if_true]

theorem mbDb_draining (h : s.mbox.draining.contains n = true) : mbDb path n v s = mbErr n 2 s := by
  simp only [mbDb, h, Bool.or_true, if_true]

variable (hen : s.rb .MB_CFG_EN n = true) (hdrain : s.mbox.draining.contains n = false) (hv : v < 2 ^ 32)
include hen hdrain hv

theorem mbDb_present (h : v = s.r .MB_PROD_COUNT n) : mbDb path n v s = s := by
  have hsame : v % 2 ^ 32 = s.r .MB_PROD_COUNT n := (Nat.mod_eq_of_lt hv).trans h
  simp only [mbDb, hen, hdrain, if_pos hsame, Bool.not_true, Bool.or_false, Bool.false_eq_true, if_false]

/-- A value within the free entries becomes the producer count. -/
theorem mbDb_ahead (hne : v ≠ s.r .MB_PROD_COUNT n)
    (h : dist32 v (s.r .MB_PROD_COUNT n) ≤ s.mbSize n - dist32 (s.r .MB_PROD_COUNT n) (s.r .MB_CONS_COUNT n)) :
    mbDb path n v s = mirrorMb n { s.w .MB_PROD_COUNT n v with
      mbox := { s.mbox with doors := tset [] s.mbox.doors n (tget [] s.mbox.doors n ++ [(v, path)]) } } := by
  simp only [mbDb, hen, hdrain, Nat.mod_eq_of_lt hv, if_neg hne, if_pos h, Bool.not_true, Bool.or_false, Bool.false_eq_true, if_false]

theorem mbDb_tooFar (hne : v ≠ s.r .MB_PROD_COUNT n)
    (h : s.mbSize n - dist32 (s.r .MB_PROD_COUNT n) (s.r .MB_CONS_COUNT n) < dist32 v (s.r .MB_PROD_COUNT n)) :
    mbDb path n v s = mbErr n 2 s := by
  simp only [mbDb, hen, hdrain, Nat.mod_eq_of_lt hv, if_neg hne, if_neg (Nat.not_le.mpr h), Bool.not_true, Bool.or_false,
    Bool.false_eq_true, if_false]

end

/-- A doorbell beside the present value that the ring cannot take, or to a mailbox that takes none, is an error. -/
theorem mbDb_error {path : Path} {n v : Nat} {s : State} (hv : v < 2 ^ 32)
    (h : s.rb .MB_CFG_EN n = false ∨
      s.mbSize n - dist32 (s.r .MB_PROD_COUNT n) (s.r .MB_CONS_COUNT n) < dist32 v (s.r .MB_PROD_COUNT n))
    (hne : s.rb .MB_CFG_EN n = true → v ≠ s.r .MB_PROD_COUNT n) : mbDb path n v s = mbErr n 2 s := by
  cases hen : s.rb .MB_CFG_EN n with
  | false => exact mbDb_disabled hen
  | true =>
    cases hdrain : s.mbox.draining.contains n with
    | true => exact mbDb_draining hdrain
    | false => exact mbDb_tooFar hen hdrain hv (hne hen) (h.resolve_left (by simp [hen]))

/-- Settles O24. -/
theorem doorbellsMoveTheProducerCount : Obligations.DoorbellsMoveTheProducerCount := by
  unfold Obligations.DoorbellsMoveTheProducerCount
  intro path mb v s hv
  refine ⟨mbDb path mb v s, rfl, fun hen hdrain => mbDb_present hen hdrain hv, fun hen hdrain hahead hfree => ?moves, fun h hne => ?error⟩
  case moves =>
    have hne : v ≠ s.r .MB_PROD_COUNT mb := by
      rintro rfl
      simp [dist32] at hahead
    rw [mbDb_ahead hen hdrain hv hne hfree]
    refine ⟨?_, mirrorMb_mem .., fun f u i hf => ?_⟩
    · rw [State.r_congr (mirrorMb_regs _ _)]
      exact (s.r_w_self ..).trans (Nat.mod_eq_of_lt hv)
    · rw [State.r_congr (mirrorMb_regs _ _)]
      exact s.r_w_key .MB_PROD_COUNT f mb v 0 u i fun hkey => hf ⟨(RKey.mk.inj hkey).1, Fin.ext (RKey.mk.inj hkey).2.1⟩
  case error =>
    rw [mbDb_error hv h hne]
    obtain ⟨herr, hcause, hprod⟩ := mbErr_stat mb.val 2 s
    exact ⟨hprod, herr, hcause⟩

/-! ## Quotas -/

theorem releaseCr_disp (n h d np : Nat) (s : State) : (releaseCr n h d np s).disp = s.disp := by
  have hif : ∀ (k v : Nat) (t : State), (if k = 0 then t else ctrlWord n 2 v t).disp = t.disp := by
    intro k v t
    split <;> rfl
  simp only [releaseCr, hif]
  rfl

theorem msgFreed_disp (x : Item) (s : State) : (msgFreed x s).disp = s.disp := by
  unfold msgFreed
  dsimp only
  split
  · exact releaseCr_disp ..
  · split
    · exact releaseCr_disp ..
    · rfl

theorem cuFill_disp (g : Nat) (s : State) : (cuFill g s).disp = s.disp := by simp [cuFill, State.hi]

theorem raceCancel_disp (s : State) : (raceCancel s).disp = s.disp := by simp [raceCancel, State.inc]

/-- Taking refused items in again sends no admitted item away. -/
theorem readmitFrom_items {x : Item} (l : List Item) : ∀ s : State, x ∈ s.disp.items → x ∈ (readmitFrom l s).disp.items := by
  induction l with
  | nil => exact fun _ h => h
  | cons y r ih =>
    intro s h
    have hfill : ∀ t : State, (if (y.cls == 0) = true then cuFill y.prod t else t).disp = t.disp := by
      intro t
      split
      · exact cuFill_disp ..
      · rfl
    unfold readmitFrom
    split
    · apply ih
      simp only [msgFreed_disp, hfill]
      split
      · rw [raceCancel_disp]
        exact h
      · exact List.mem_append_left _ h
    · exact ih s h

theorem readmit_items {x : Item} {s : State} (h : x ∈ s.disp.items) : x ∈ (readmit s).disp.items := readmitFrom_items _ s h

/-- A field of 16 bits stores 16 bits of an image as they are. -/
theorem bits_mod_self (v hi lo : Nat) : bits v hi lo % 2 ^ (hi + 1 - lo) = bits v hi lo := Nat.mod_mod _ _

theorem wImg_duQuota (v c : Nat) (s : State) :
    s.wImg .DU_QUOTA 0 v c = (s.w .DU_QUOTA_MAX 0 (bits v 31 16) c).w .DU_QUOTA_GUAR 0 (bits v 15 0) c := rfl

theorem wImg_duClass (v c : Nat) (s : State) :
    s.wImg .DU_CLASS 0 v c = (s.w .DU_CLASS_PRIO 0 (bits v 31 29) c).w .DU_CLASS_PLIM 0 (bits v 15 0) c := rfl

/-- What a quota register holds after a write that is taken, and what a class register does. -/
theorem readmit_duQuota (c v : Nat) (s : State) :
    (readmit (s.wImg .DU_QUOTA 0 v c)).r .DU_QUOTA_GUAR 0 c = bits v 15 0 ∧
      (readmit (s.wImg .DU_QUOTA 0 v c)).r .DU_QUOTA_MAX 0 c = bits v 31 16 := by
  constructor <;> rw [(readmit_from _).r _ _ _ (by decide), wImg_duQuota]
  · exact (State.r_w_self ..).trans (bits_mod_self ..)
  · rw [State.r_w_ne _ _ _ _ _ _ _ _ (by decide)]
    exact (State.r_w_self ..).trans (bits_mod_self ..)

theorem readmit_duClass (c v : Nat) (s : State) :
    (readmit (s.wImg .DU_CLASS 0 v c)).r .DU_CLASS_PLIM 0 c = bits v 15 0 := by
  rw [(readmit_from _).r _ _ _ (by decide), wImg_duClass]
  exact (State.r_w_self ..).trans (bits_mod_self ..)

/-- Settles O25. A write that is taken stores its register and takes refused items in; no other effect reaches either. -/
theorem quotaWritesKeepTheSums : Obligations.QuotaWritesKeepTheSums := by
  unfold Obligations.QuotaWritesKeepTheSums
  intro c quota v s
  cases quota with
  | true =>
    refine ⟨duWrite c true v s, rfl, fun hbad => if_neg ?_, fun hok => ?_⟩
    · exact Bool.eq_false_iff.mp hbad
    · have htaken : duWrite c true v s = readmit (s.wImg .DU_QUOTA 0 v c) := if_pos hok
      rw [htaken]
      exact ⟨fun _ => readmit_duQuota c v s, nofun, fun x hx => readmit_items hx⟩
  | false =>
    refine ⟨duWrite c false v s, rfl, fun hbad => if_neg ?_, fun hok => ?_⟩
    · exact Bool.eq_false_iff.mp hbad
    · have htaken : duWrite c false v s = readmit (s.wImg .DU_CLASS 0 v c) := if_pos hok
      rw [htaken]
      exact ⟨nofun, fun _ => readmit_duClass c v s, fun x hx => readmit_items hx⟩

/-! ## The beat offset -/

/-- A residue of 48 bits. -/
theorem unsint_spec (i : Int) : unsint 48 i < 2 ^ 48 ∧ ((2 ^ 48 : Nat) : Int) ∣ i - unsint 48 i := by
  have hpos : 0 ≤ i % ((2 ^ 48 : Nat) : Int) := Int.emod_nonneg _ (by decide)
  unfold unsint
  omega

/-- Settles O23. The new offset is the residue of old offset and change in a beat, and the beats between them leave the counter. -/
theorem beatOffCarriesIntoTheBeat : Obligations.BeatOffCarriesIntoTheBeat := by
  unfold Obligations.BeatOffCarriesIntoTheBeat
  intro x s _
  have hoff : (moveBoff x s).r .GY_BOFF_BEAT_OFF =
      (((s.r .GY_BOFF_BEAT_OFF : Int) + x) % (BEAT_ETU : Int)).toNat % 2 ^ Fld.width .GY_BOFF_BEAT_OFF := by
    unfold moveBoff showResid
    rw [State.r_w_ne _ _ _ _ _ _ _ _ (by decide), State.r_w_ne _ _ _ _ _ _ _ _ (by decide)]
    exact s.r_w_self ..
  have hbeat : (moveBoff x s).guy.beat = unsint 48 ((s.guy.beat : Int) - ((s.r .GY_BOFF_BEAT_OFF : Int) + x) / (BEAT_ETU : Int)) := rfl
  have hwidth : Fld.width .GY_BOFF_BEAT_OFF = 22 := rfl
  have hetu : ((BEAT_ETU : Nat) : Int) = 4194304 := rfl
  have hpegs : (moveBoff x s).guy.pegs = s.guy.pegs.map (fun p => { p with a := p.a - x, d := p.d - x }) := rfl
  obtain ⟨hlt, hdvd⟩ := unsint_spec ((s.guy.beat : Int) - ((s.r .GY_BOFF_BEAT_OFF : Int) + x) / (BEAT_ETU : Int))
  rw [hwidth, hetu] at hoff
  rw [← hbeat, hetu] at hdvd
  rw [← hbeat] at hlt
  refine ⟨by omega, hlt, ?_, by simp [hpegs, Function.comp_def], by simp [hpegs, Function.comp_def]⟩
  omega

/-! ## Throttle ticks -/

/-- A device with its ticks at a TLIM of 70 °C, whose host has set TLIM back to its reset value and whose group 0 has no working sensor. -/
def failedGroupState : State :=
  { State.reset.w .THM_STATE_CAP_STEP 0 5 with
    pwr := { porstLow := false, ticking := true, tlim := 70,
             sensors := [(0, { failed := true }), (1, { failed := true }), (2, { failed := true })] } }

/-- Refutes O22: a group whose sensors have all failed counts as TLIM (R422). The tick first takes the new TLIM into force, so that group
0 is at TLIM and k goes up; by the TLIM in force before the tick it lies below the hysteresis, where the statement wants k down. -/
theorem not_throttleTicksMoveKByOne : ¬ Obligations.ThrottleTicksMoveKByOne := by
  unfold Obligations.ThrottleTicksMoveKByOne
  intro h
  obtain ⟨t, ht, hstep, -⟩ := h failedGroupState (by decide) (by decide) (by decide) (by decide)
  have hrun : exec .throttleTick failedGroupState = .next (throttleStep failedGroupState) :=
    congrArg Host.Outcome.next (if_neg (by decide))
  obtain rfl := Host.Outcome.next.inj (hrun.symm.trans ht)
  exact absurd hstep (by decide +kernel)

end Sys2Proof.Machine
end

section
/-! SUPPORT. Order keys in service (R361), and the indices of keys (R387, R388). -/

namespace Sys2Proof.Machine

open Sys2Proof

/-! ## What a server takes -/

/-- A server takes an admitted item. -/
theorem foldl_better_mem (s : State) (l : List Item) : ∀ x : Item, l.foldl s.better x ∈ x :: l := by
  induction l with
  | nil => exact fun x => List.mem_singleton_self x
  | cons y r ih =>
    intro x
    have hpick : s.better x y = x ∨ s.better x y = y := by
      unfold State.better
      dsimp only
      split
      · exact .inr rfl
      · exact .inl rfl
    have hmem := ih (s.better x y)
    rcases hpick with h | h <;> rw [h] at hmem <;> simp only [List.foldl_cons, h, List.mem_cons] at hmem ⊢ <;> tauto

theorem choose_takes {s : State} {v : Nat} {x : Item} (h : s.choose v = some x) : x ∈ s.disp.items ∧ s.takes v x = true := by
  unfold State.choose at h
  split at h
  · exact absurd h (by simp)
  · next y r hl =>
    obtain rfl := Option.some.inj h
    have hmem : r.foldl s.better y ∈ s.disp.items.filter (s.takes v) := hl ▸ foldl_better_mem s r y
    exact List.mem_filter.mp hmem

/-- The item that a server takes has an order key of which no item is in service, or none. -/
theorem takes_alone {s : State} {v : Nat} {x : Item} (h : s.takes v x = true) :
    x.key = 0xFFFF ∨ ∀ y ∈ s.disp.items, y.key = x.key → y.inService = false := by
  simp only [State.takes, State.candidate, Bool.and_eq_true, Bool.or_eq_true, beq_iff_eq, Bool.not_eq_true', List.any_eq_false,
    List.mem_filter, and_imp, Bool.not_eq_true] at h
  obtain ⟨⟨⟨⟨-, hkey | ⟨hnone, -⟩⟩, -⟩, -⟩, -⟩ := h
  · exact .inl hkey
  · exact .inr hnone

/-! ## An item put into service -/

/-- The items after one of them has been put into service. -/
def servedItems (v now : Nat) (x : Item) (l : List Item) : List Item :=
  l.map (fun y => if y.id = x.id then { y with st := .service v now } else y)

theorem serve_items (v : Nat) (x : Item) (s : State) : (serve v x s).disp.items = servedItems v s.now x s.disp.items := by
  unfold serve servedItems
  dsimp only
  split <;> split <;> simp [State.inc]

/-- An item after the dispatch is the one taken, or as it was. -/
theorem mem_servedItems {v now : Nat} {x y : Item} {l : List Item} (hnodup : (l.map (·.id)).Nodup) (hx : x ∈ l)
    (hy : y ∈ servedItems v now x l) : (y.id = x.id ∧ y.key = x.key) ∨ (y ∈ l ∧ y.id ≠ x.id) := by
  obtain ⟨z, hz, rfl⟩ := List.mem_map.mp hy
  by_cases hid : z.id = x.id
  · obtain rfl : z = x := List.inj_on_of_nodup_map hnodup hz hx hid
    simp
  · simp [hid, hz]

/-- Items that are in service are never put into service. -/
theorem servedItems_oneInService {s t : State} {v : Nat} {x : Item} (h : oneInService s) (hx : x ∈ s.disp.items)
    (halone : x.key = 0xFFFF ∨ ∀ y ∈ s.disp.items, y.key = x.key → y.inService = false)
    (ht : t.disp.items = servedItems v s.now x s.disp.items) : oneInService t := by
  obtain ⟨hnodup, hone⟩ := h
  have hidle : ∀ {y : Item} {a b : Nat}, y ∈ s.disp.items → y.st = .service a b → y.key = x.key → y.key ≠ 0xFFFF → False := by
    intro y a b hy hst hkey hne
    rcases halone with hnone | hall
    · exact hne (hkey.trans hnone)
    · simpa [Item.inService, hst] using hall y hy hkey
  refine ⟨?_, ?_⟩
  · have hids : (servedItems v s.now x s.disp.items).map (·.id) = s.disp.items.map (·.id) := by
      simp only [servedItems, List.map_map]
      refine List.map_congr_left fun y _ => ?_
      simp only [Function.comp]
      split <;> rfl
    rw [ht, hids]
    exact hnodup
  · rw [ht]
    intro y hy z hz a b c d hyst hzst hkey hne
    rcases mem_servedItems hnodup hx hy with ⟨hyid, hykey⟩ | ⟨hyold, -⟩ <;>
      rcases mem_servedItems hnodup hx hz with ⟨hzid, hzkey⟩ | ⟨hzold, -⟩
    · exact hyid.trans hzid.symm
    · exact (hidle hzold hzst (hkey.symm.trans hykey) (hkey ▸ hne)).elim
    · exact (hidle hyold hyst (hkey.trans hzkey) hne).elim
    · exact hone y hyold z hzold a b c d hyst hzst hkey hne

/-- The event of a full result ring leaves the dispatch unit. -/
theorem ringFull_disp (s : State) : (ringFull s).disp = s.disp := by
  unfold ringFull
  split
  · rw [event_disp]
    simp only [State.setF, State.setW]
    split <;> rfl
  · rfl

/-- What a dispatch does to the items. -/
theorem execWorkItemDispatch_items {v : Fin 17} {s t : State} (ht : execWorkItemDispatch v s = .next t) :
    t.disp = s.disp ∨ ∃ u x, u.disp = s.disp ∧ u.choose v = some x ∧ t = serve v x u := by
  have hfull : (if v.val = 0 then ringFull s else s).disp = s.disp := by
    split
    · exact ringFull_disp s
    · rfl
  obtain rfl := Host.Outcome.next.inj ht
  dsimp only
  generalize (if v.val = 0 then ringFull s else s) = u at hfull ⊢
  split
  · exact .inl hfull
  · split
    · next x hx => exact .inr ⟨u, x, hfull, hx, rfl⟩
    · exact .inl hfull

/-- Settles O21. -/
theorem oneItemOfAKeyInService : Obligations.OneItemOfAKeyInService := by
  unfold Obligations.OneItemOfAKeyInService
  refine ⟨⟨List.nodup_nil, nofun⟩, fun v s t hs ht => ?_⟩
  have hcongr : ∀ {u : State}, u.disp = s.disp → oneInService u := by
    intro u hu
    unfold oneInService
    rw [hu]
    exact hs
  rcases execWorkItemDispatch_items ht with hsame | ⟨u, x, hu, hchoose, rfl⟩
  · exact hcongr hsame
  · obtain ⟨hx, htakes⟩ := choose_takes hchoose
    exact servedItems_oneInService (hcongr hu) hx (takes_alone htakes) (serve_items v x u)

/-! ## Keys at a start -/

/-- A key that starts at its RES_END, beside one of a list that has its identifier and RES_END. -/
def StartedFrom (l : List Key) (k : Key) : Prop := k.next = k.resEnd ∧ ∃ j ∈ l, j.keyId = k.keyId ∧ j.resEnd = k.resEnd

theorem startedFrom_start {l : List Key} {k : Key} (h : k ∈ l) : StartedFrom l k.start := ⟨rfl, k, h, rfl, rfl⟩

/-- The start of one session key, with its record where it is exhausted. -/
def startKey (t : State) (k : Key) : State :=
  if k.start.state = k.state then
    { t with sec := { t.sec with sess := t.sec.sess.map (fun x => if x.keyId = k.keyId then k.start else x) } }
  else putKey k.start t

/-- It stands for every key of its identifier, and leaves the others and the identity key. -/
theorem startKey_sess {t : State} {k x : Key} (h : x ∈ (startKey t k).sec.sess) : x = k.start ∨ (x ∈ t.sec.sess ∧ x.keyId ≠ k.keyId) := by
  unfold startKey at h
  split at h
  · obtain ⟨y, hy, rfl⟩ := List.mem_map.mp h
    by_cases hid : y.keyId = k.keyId
    · simp [hid]
    · simp [hid, hy]
  · rcases List.mem_append.mp h with hx | hx
    · obtain ⟨hx, hid⟩ := List.mem_filter.mp hx
      have hne : x.keyId ≠ k.start.keyId := by simpa using hid
      exact .inr ⟨hx, hne⟩
    · exact .inl (List.mem_singleton.mp hx)

theorem startKey_ident (t : State) (k : Key) : (startKey t k).sec.ident = t.sec.ident := by
  unfold startKey
  split <;> rfl

/-- Once every key of a list has started, none is left of before. -/
theorem foldl_startKey {keys : List Key} (l : List Key) (hl : ∀ k ∈ l, k ∈ keys) : ∀ t : State,
    (∀ x ∈ t.sec.sess, StartedFrom keys x ∨ x ∈ l) →
    (l.foldl startKey t).sec.ident = t.sec.ident ∧ ∀ x ∈ (l.foldl startKey t).sec.sess, StartedFrom keys x := by
  induction l with
  | nil => exact fun t ht => ⟨rfl, fun x hx => (ht x hx).resolve_right List.not_mem_nil⟩
  | cons k r ih =>
    intro t ht
    obtain ⟨hident, hsess⟩ := ih (fun j hj => hl j (List.mem_cons_of_mem _ hj)) (startKey t k) fun x hx => by
      rcases startKey_sess hx with rfl | ⟨hx, hid⟩
      · exact .inl (startedFrom_start (hl k List.mem_cons_self))
      · exact (ht x hx).imp_right fun hmem => (List.mem_cons.mp hmem).resolve_left fun e => hid (e ▸ rfl)
    exact ⟨hident.trans (startKey_ident t k), hsess⟩

/-- Without an ACTIVE key the NEXT one becomes active, with its indices. -/
def activateNext (s : State) : State :=
  if s.activeKey.isSome then s
  else match s.keyIn 2 with
    | some k => { putKey { k with state := 3 } s with sec := { (putKey { k with state := 3 } s).sec with skeyDue := true } }
    | none => s

theorem activateNext_sec {keys : List Key} {s : State} (h : ∀ x ∈ s.sec.sess, StartedFrom keys x) :
    (activateNext s).sec.ident = s.sec.ident ∧ ∀ x ∈ (activateNext s).sec.sess, StartedFrom keys x := by
  unfold activateNext
  split
  · exact ⟨rfl, h⟩
  · split
    · next k hk =>
      refine ⟨rfl, fun x hx => ?_⟩
      rcases List.mem_append.mp hx with hx | hx
      · exact h x (List.mem_of_mem_filter hx)
      · obtain rfl := List.mem_singleton.mp hx
        exact h k (List.mem_of_find?_eq_some hk)
    · exact ⟨rfl, h⟩

theorem showKeys_sec (s : State) : (showKeys s).sec = s.sec := by
  unfold showKeys
  dsimp only
  split <;> rfl

/-- The start of the identity key, with its record where it is exhausted. -/
def startIdent (s : State) : State :=
  if s.sec.ident.start.state = s.sec.ident.state then { s with sec := { s.sec with ident := s.sec.ident.start } }
  else putIdent s.sec.ident.start { s with sec := { s.sec with ident := s.sec.ident.start } }

theorem startIdent_sec (s : State) : (startIdent s).sec = { s.sec with ident := s.sec.ident.start } := by
  unfold startIdent
  split <;> rfl

/-- A start counts the burned indices, then starts the identity key and the session keys one by one. -/
theorem startKeys_eq (s : State) : ∃ u : State, u.sec = s.sec ∧
    startKeys s = showKeys (activateNext ((startIdent u).sec.sess.foldl startKey (startIdent u))) := by
  refine ⟨lifeAdd 0x16 0 32 8 ((s.sec.sess.map (fun k => k.resEnd - k.next)).foldl (· + ·) 0)
    (lifeAdd 0x16 0 12 4 (s.sec.ident.resEnd - s.sec.ident.next) s), rfl, ?_⟩
  rfl

/-- Settles O36. -/
theorem keysSpendReservedIndicesOnly : Obligations.KeysSpendReservedIndicesOnly := by
  unfold Obligations.KeysSpendReservedIndicesOnly
  refine ⟨fun s => ?starts, fun k hstate hspent => ?exhausted, fun r rest k s hsigs hkey hspent => ?refused⟩
  case starts =>
    obtain ⟨u, hu, hstart⟩ := startKeys_eq s
    have hident : (startIdent u).sec.ident = s.sec.ident.start := by rw [startIdent_sec, hu]
    have hsess : (startIdent u).sec.sess = s.sec.sess := by rw [startIdent_sec, hu]
    obtain ⟨hident', hsess'⟩ := foldl_startKey (keys := s.sec.sess) s.sec.sess (fun _ h => h) (startIdent u) fun x hx =>
      .inr (hsess ▸ hx)
    obtain ⟨hident'', hsess''⟩ := activateNext_sec hsess'
    rw [hstart, hsess, showKeys_sec, hident'', hident', hident]
    exact ⟨rfl, hsess''⟩
  case exhausted =>
    rcases hstate with h | h <;> simp [Key.start, h, hspent]
  case refused =>
    change execSignatureDone s = _
    simp [execSignatureDone, hsigs, hkey, hspent]

end Sys2Proof.Machine
end

section
/-! SUPPORT. When a host command is turned away or waits (R9, R332, R420, R454). -/

namespace Sys2Proof.Machine

open Sys2Proof

/-! ## A host command is one run of its checks and its body -/

/-- A next state that a host command may answer: a run as R331 orders it, or that of a command which runs before READY as well. -/
def HostRun (cmd : Nat) (d : Desc) (s t : State) : Prop :=
  (∃ pre body, t = runCmd cmd d pre body s) ∨ (beforeReady cmd ∧ ∃ pre body, t = runAlways cmd d pre body s)

/-- Every host command is such a run. -/
theorem exec_hostRun {c : Instr} {cmd : Nat} {d : Desc} (s : State) (h : hostCmd c = some (cmd, d)) :
    ∃ t, exec c s = .next t ∧ HostRun cmd d s t := by
  unfold hostCmd at h
  split at h
  case h_85 => contradiction
  case h_1 => obtain ⟨rfl, rfl⟩ := Prod.mk.inj (Option.some.inj h); exact ⟨_, rfl, .inr ⟨.inl rfl, _, _, rfl⟩⟩
  case h_2 => obtain ⟨rfl, rfl⟩ := Prod.mk.inj (Option.some.inj h); exact ⟨_, rfl, .inr ⟨.inr rfl, _, _, rfl⟩⟩
  all_goals
    obtain ⟨rfl, rfl⟩ := Prod.mk.inj (Option.some.inj h)
    exact ⟨_, rfl, .inl ⟨_, _, rfl⟩⟩

/-! ## What every such run does where it is turned away -/

section
variable {cmd : Nat} {d : Desc} {s t : State}

/-- A mailbox taken over, for a command that the survivor does not run. -/
theorem runCmd_taken {pre : List (Bool × Nat)} {body : State → State × Reply} (hstart : s.startable cmd d = true)
    (hready : s.ready = true) (htaken : (s.taken' d.mb && !takenCmd cmd d) = true) :
    runCmd cmd d pre body s = complete cmd d ST_FAULT false 0 0 0 (started d s) := by
  have hr : (started d s).ready = true := hready
  have ht : ((started d s).taken' d.mb && !takenCmd cmd d) = true := htaken
  simp only [runCmd, hstart, hr, ht, if_true, Bool.not_true, Bool.false_eq_true, if_false]

theorem HostRun.reserved (h : HostRun cmd d s t) (hstart : s.startable cmd d = true) (hready : s.ready = true)
    (hmine : (s.taken' d.mb && !takenCmd cmd d) = false) (hrsv : d.rsv ≠ 0) :
    t = complete cmd d ST_RANGE false 0 0 0 (started d s) := by
  rcases h with ⟨pre, body, rfl⟩ | ⟨-, pre, body, rfl⟩
  · exact runCmd_rsv hstart hready hmine hrsv
  · have hb : (d.rsv != 0) = true := by simpa using hrsv
    simp only [runAlways, hstart, if_true, firstBad, hb]

theorem HostRun.notReady (h : HostRun cmd d s t) (hstart : s.startable cmd d = true) (hready : s.ready = false)
    (hlater : ¬beforeReady cmd) : t = complete cmd d ST_STATE false 0 0 0 (started d s) := by
  rcases h with ⟨pre, body, rfl⟩ | ⟨hbefore, -⟩
  · exact runCmd_notReady hstart hready
  · exact absurd hbefore hlater

theorem HostRun.taken (h : HostRun cmd d s t) (hstart : s.startable cmd d = true) (hready : s.ready = true)
    (htaken : s.taken' d.mb = true) (hother : takenCmd cmd d = false) :
    t = complete cmd d ST_FAULT false 0 0 0 (started d s) := by
  rcases h with ⟨pre, body, rfl⟩ | ⟨rfl | rfl, -⟩
  · exact runCmd_taken hstart hready (by simp [htaken, hother])
  · exact absurd hother (by simp [takenCmd])
  · exact absurd hother (by simp [takenCmd])

theorem HostRun.waits (h : HostRun cmd d s t) (hstart : s.startable cmd d = false) : t = s := by
  rcases h with ⟨pre, body, rfl⟩ | ⟨-, pre, body, rfl⟩
  · exact runCmd_waits hstart
  · simp only [runAlways, hstart, Bool.false_eq_true, if_false]

/-- The commands that the survivor runs are those that R454 lists. -/
theorem takenCmd_eq_false (h : ¬(cmd ∈ [0x0101, 0x0102, 0x0D07, 0x1003] ∨ cmd = 0x0D08 ∧ d.a0 = 1)) : takenCmd cmd d = false := by
  simp only [List.mem_cons, List.not_mem_nil, or_false, not_or, not_and] at h
  obtain ⟨⟨hinfo, hnop, hseal, hstatus⟩, hlot⟩ := h
  by_cases hcmd : cmd = 0x0D08 <;> simp_all [takenCmd]

/-! ## What makes a command wait -/

theorem startable_disabled (h : s.rb .MB_CFG_EN d.mb = false) : s.startable cmd d = false := by
  simp [State.startable, h]

theorem startable_behind {e : Desc} {cmd' : Nat} (h : s.mbox.taken.find? (fun x => x.1.mb == d.mb) = some (e, cmd')) (hne : e ≠ d) :
    s.startable cmd d = false := by
  simp [State.startable, h, hne]

theorem startable_fenced (hfence : d.fence = true) (hbusy : s.unfinished d.mb ≠ 0) : s.startable cmd d = false := by
  simp [State.startable, hfence, hbusy]

end

/-- Settles O26. -/
theorem reservedFieldsAreRefused : Obligations.ReservedFieldsAreRefused := by
  unfold Obligations.ReservedFieldsAreRefused
  intro c cmd d s hcmd hstart hready hmine hrsv
  obtain ⟨t, ht, hrun⟩ := exec_hostRun s hcmd
  rw [ht, hrun.reserved hstart hready hmine hrsv]

/-- Settles O27. -/
theorem commandsAreTurnedAway : Obligations.CommandsAreTurnedAway := by
  unfold Obligations.CommandsAreTurnedAway
  intro c cmd d s hcmd hstart
  obtain ⟨t, ht, hrun⟩ := exec_hostRun s hcmd
  refine ⟨fun hready hlater => ?_, fun hready htaken hother => ?_⟩
  · rw [ht, hrun.notReady hstart hready hlater]
  · rw [ht, hrun.taken hstart hready htaken (takenCmd_eq_false hother)]

/-- Settles O28. -/
theorem commandsStartInRingOrder : Obligations.CommandsStartInRingOrder := by
  unfold Obligations.CommandsStartInRingOrder
  intro c cmd d s hcmd hwait
  obtain ⟨t, ht, hrun⟩ := exec_hostRun s hcmd
  have hstart : s.startable cmd d = false := by
    rcases hwait with hdisabled | ⟨e, cmd', hfirst, hne⟩ | ⟨hfence, hbusy⟩
    · exact startable_disabled hdisabled
    · exact startable_behind hfirst hne
    · exact startable_fenced hfence hbusy
  rw [ht, hrun.waits hstart]

end Sys2Proof.Machine
end

section
/-! SUPPORT. The frame of a row: the registers, groups and pitches that it may touch. -/

namespace Sys2Proof.Machine

open Sys2Proof

/-- A state that a row can reach which writes no memory and no channel, of the registers those of P, of the groups those of G, and of the
pitches those of Q only. -/
structure Keeps (P : Fld → Nat → Nat → Prop) (G Q : Nat → Prop) (s t : State) : Prop where
  mem : t.mem = s.mem
  chan : t.chan = s.chan
  pitch : (∀ k, ¬Q k) → t.pitch = s.pitch
  pt : ∀ k, ¬Q k → t.pt k = s.pt k
  gp : ∀ k, ¬G k → t.gp k = s.gp k
  r : ∀ f u i, ¬P f u i → t.r f u i = s.r f u i

section
variable {P : Fld → Nat → Nat → Prop} {G Q : Nat → Prop} {s t : State}

theorem Keeps.refl : Keeps P G Q s s := ⟨rfl, rfl, fun _ => rfl, fun _ _ => rfl, fun _ _ => rfl, fun _ _ _ _ => rfl⟩

/-! ## Updates of the state -/

variable (h : Keeps P G Q s t)
include h

/-- An update of other parts of the state. -/
theorem Keeps.same {u : State} (hmem : u.mem = t.mem) (hregs : u.regs = t.regs) (hchan : u.chan = t.chan) (hpitch : u.pitch = t.pitch)
    (hgrp : u.grp = t.grp) : Keeps P G Q s u where
  mem := hmem.trans h.mem
  chan := hchan.trans h.chan
  pitch hq := hpitch.trans (h.pitch hq)
  pt k hk := by rw [State.pt, hpitch]; exact h.pt k hk
  gp k hk := by rw [State.gp, hgrp]; exact h.gp k hk
  r f u i hf := (State.r_congr hregs f u i).trans (h.r f u i hf)

theorem Keeps.w (f : Fld) (u v : Nat) (i : Nat := 0) (hf : P f u i) : Keeps P G Q s (t.w f u v i) where
  mem := h.mem
  chan := h.chan
  pitch := h.pitch
  pt := h.pt
  gp := h.gp
  r g u' i' hg := by
    rw [State.r_w_key _ _ _ _ _ _ _ _ fun e => hg (by obtain ⟨rfl, rfl, rfl⟩ := RKey.mk.inj e; exact hf)]
    exact h.r g u' i' hg

theorem Keeps.noteUp (k : RKey) (v : Nat) : Keeps P G Q s (noteUp k v t) :=
  h.same (noteUp_mem ..) (noteUp_regs ..) (noteUp_chan ..) (noteUp_pitch ..) (noteUp_grp ..)

theorem Keeps.inc (f : Fld) (u : Nat := 0) (i : Nat := 0) (n : Nat := 1) (hf : P f u i) : Keeps P G Q s (t.inc f u i n) :=
  (h.w f u _ i hf).noteUp _ _

theorem Keeps.hi (f : Fld) (u v : Nat) (hf : P f u 0) : Keeps P G Q s (t.hi f u v) := (h.w f u _ 0 hf).noteUp _ _

theorem Keeps.setF (f : Fld) (u : Nat := 0) (i : Nat := 0) (hf : P f u i) : Keeps P G Q s (t.setF f u i) := by
  unfold State.setF State.setW
  dsimp only
  split
  · exact (h.w f u _ i hf).same rfl rfl rfl rfl rfl
  · exact h.w f u _ i hf

theorem Keeps.onCyc (f : Cyc → Cyc) : Keeps P G Q s (onCyc f t) := h.same rfl rfl rfl rfl rfl
theorem Keeps.onLp (n : Nat) (f : LPort → LPort) : Keeps P G Q s (t.onLp n f) := h.same rfl rfl rfl rfl rfl
theorem Keeps.onLn (n : Nat) (f : Lane → Lane) : Keeps P G Q s (t.onLn n f) := h.same rfl rfl rfl rfl rfl

theorem Keeps.onGp (g : Nat) (f : Grp → Grp) (hg : G g) : Keeps P G Q s (t.onGp g f) where
  mem := h.mem
  chan := h.chan
  pitch := h.pitch
  pt := h.pt
  gp k hk := (State.onGp_gp_ne t g f (m := k) fun e => hk (by rwa [e])).trans (h.gp k hk)
  r := h.r

theorem Keeps.onPt (p : Nat) (f : Pitch → Pitch) (hp : Q p) : Keeps P G Q s (t.onPt p f) where
  mem := h.mem
  chan := h.chan
  pitch hq := absurd hp (hq p)
  pt k hk := (State.onPt_pt_ne t p f (m := k) fun e => hk (by rwa [e])).trans (h.pt k hk)
  gp := h.gp
  r := h.r

theorem Keeps.onSq (g : Nat) (f : Seqr → Seqr) (hg : G g) : Keeps P G Q s (t.onSq g f) := h.onGp g _ hg

theorem Keeps.forAll (l : List Nat) {k : Nat → State → State} (hk : ∀ n t, Keeps P G Q s t → Keeps P G Q s (k n t)) :
    Keeps P G Q s (forAll l k t) := forAll_preserves h fun n _ => hk n

end

end Sys2Proof.Machine
end

section
/-! SUPPORT. The frame of the link-layer rows that raise no event (R264 to R288). -/

namespace Sys2Proof.Machine

open Sys2Proof

/-- A state that the link layer can reach: of the registers only its own are written, and no group or pitch. -/
abbrev LinkKeeps (s t : State) : Prop := Keeps (fun f _ _ => f ∈ linkFields) (fun _ => False) (fun _ => False) s t

section
variable {s t : State} (h : LinkKeeps s t)
include h

/-! ## Sending -/

theorem pump_linkKeeps (n : Nat) : LinkKeeps s (t.pump n) := by
  unfold State.pump
  split
  · exact h.onLp _ _
  · exact h

theorem ctrlWord_linkKeeps (n code v : Nat) : LinkKeeps s (ctrlWord n code v t) := h.onLp _ _

theorem dropWord_linkKeeps (n code : Nat) : LinkKeeps s (dropWord n code t) := h.onLp _ _

theorem dropIdle_linkKeeps (n : Nat) : LinkKeeps s (dropIdle n t) := h.onLp _ _

theorem lifeAdd_linkKeeps (rid inst off n v : Nat) : LinkKeeps s (lifeAdd rid inst off n v t) := h.same rfl rfl rfl rfl rfl

theorem idleWord_linkKeeps (n code : Nat) : LinkKeeps s (idleWord n code t) := ctrlWord_linkKeeps (dropIdle_linkKeeps h n) _ _ _

theorem sendNak_linkKeeps (n : Nat) : LinkKeeps s (sendNak n t) :=
  ctrlWord_linkKeeps ((h.inc .LK_ERR_NAK_CNT n (hf := by decide)).onLp _ _) _ _ _

theorem send_linkKeeps (n : Nat) (k : Pkt) : LinkKeeps s (t.send n k) := by
  unfold State.send
  split
  · split
    · exact h.inc _ _ (hf := by decide)
    · exact h
  · exact pump_linkKeeps (h.onLp _ _) n

theorem releaseCr_linkKeeps (n hdr d np : Nat) : LinkKeeps s (releaseCr n hdr d np t) := by
  have hword : ∀ {u : State} (c : Prop) [Decidable c] (k v : Nat), LinkKeeps s u → LinkKeeps s (if c then u else ctrlWord n k v u) := by
    intro u c _ k v hu
    split
    · exact hu
    · exact ctrlWord_linkKeeps hu _ _ _
  exact hword _ _ _ (hword _ _ _ (hword _ _ _ (h.onLp _ _)))

theorem finishMrd_linkKeeps (n : Nat) (x : Txn) (cst : Nat) (data : List Byte) : LinkKeeps s (finishMrd n x cst data t) :=
  send_linkKeeps (releaseCr_linkKeeps h _ _ _ _) _ _

/-! ## Attempts and training -/

theorem setPhase_linkKeeps (n ph : Nat) : LinkKeeps s (setPhase n ph t) := (h.onLp _ _).w _ _ _ _ (by decide)

theorem startAttempt_linkKeeps (n k : Nat) : LinkKeeps s (startAttempt n k t) := by
  have hdetect : LinkKeeps s ((setPhase n PDETECT (t.w .LK_STATE_ATTEMPT n k)).onLp n (fun x => { x with attemptAt := t.now })) :=
    (setPhase_linkKeeps (h.w _ _ _ _ (by decide)) _ _).onLp _ _
  unfold startAttempt
  dsimp only
  split
  · exact setPhase_linkKeeps hdetect _ _
  · exact hdetect

theorem retrain_linkKeeps (n : Nat) : LinkKeeps s (retrain n t) := by
  have hclear := (h.inc .LK_CNT_RETRAIN_CNT n (hf := by decide)).w .LK_STATE_LMAP n 0 (hf := by decide)
  unfold retrain
  dsimp only
  refine startAttempt_linkKeeps ((hclear.onLp _ _).forAll _ fun i u hu => ?_) n 0
  split
  · exact hu
  · exact hu.w _ _ _ _ (by decide)

theorem setFir_linkKeeps (l pre post : Nat) : LinkKeeps s (setFir l pre post t) := by
  unfold setFir
  exact h.onLn _ _

theorem setLane_linkKeeps (l v : Nat) : LinkKeeps s (setLane l v t) := h.w _ _ _ _ (by decide)

theorem portUp_linkKeeps (n : Nat) : LinkKeeps s (portUp n t) := by
  unfold portUp
  refine pump_linkKeeps ((setPhase_linkKeeps ?_ _ _).onLp _ _) n
  have hlanes := h.forAll ((maskBits 4 (t.r .LK_CFG_LANES n)).filter (fun i => t.r .LK_LANE_LSTATE n i != LEXCLUDED))
    (k := fun i t => (t.w .LK_LANE_LSTATE n LACTIVE i).onLn (4 * n + i) (fun x => { x.renew with activeAt := t.now }))
    fun i u hu => (hu.w _ _ _ _ (by decide)).onLn _ _
  exact ((hlanes.w _ _ _ _ (by decide)).w _ _ _ _ (by decide)).w _ _ _ _ (by decide)

/-! ## Lanes and maps -/

theorem restripe_linkKeeps (n m g : Nat) : LinkKeeps s (restripe n m g t) := by
  unfold restripe
  split
  · exact retrain_linkKeeps h n
  · have hmap := ((h.w .LK_STATE_LMAP n m 0 (by decide)).w .LK_STATE_GEN n g 0 (by decide)).inc .LK_CNT_RESTRIPE_CNT n (hf := by decide)
    exact sendNak_linkKeeps (ctrlWord_linkKeeps (hmap.onLp _ _) _ _ _) n

theorem dropLanes_linkKeeps (n m : Nat) : LinkKeeps s (dropLanes n m t) := by
  refine h.forAll _ fun i u hu => ?_
  split
  · exact hu.w _ _ _ _ (by decide)
  · exact hu

theorem adoptMap_linkKeeps (n m g : Nat) : LinkKeeps s (adoptMap n m g t) := by
  refine ctrlWord_linkKeeps (Keeps.onLp (Keeps.inc (Keeps.w (Keeps.w (Keeps.forAll (dropLanes_linkKeeps h n m) _ fun i u hu => ?_) _ _ _ _
    (by decide)) _ _ _ _ (by decide)) _ _ _ _ (by decide)) _ _) _ _ _
  dsimp only
  split
  · exact (hu.w _ _ _ _ (by decide)).onLn _ _
  · exact hu

theorem restripeIn_linkKeeps (n map gen : Nat) : LinkKeeps s (restripeIn n map gen t) := by
  unfold restripeIn
  dsimp only
  split
  · exact h
  · split
    · split
      · exact dropWord_linkKeeps (h.onLp _ _) _ _
      · exact restripe_linkKeeps (dropLanes_linkKeeps h _ _) _ _ _
    · split
      · exact retrain_linkKeeps h n
      · split
        · exact ctrlWord_linkKeeps h _ _ _
        · exact adoptMap_linkKeeps h _ _ _

theorem restripeAckIn_linkKeeps (n map gen : Nat) : LinkKeeps s (restripeAckIn n map gen t) := by
  unfold restripeAckIn
  split
  · exact dropWord_linkKeeps (h.onLp _ _) _ _
  · exact h

theorem soakIn_linkKeeps (l : Nat) (pass : Bool) : LinkKeeps s (soakIn l pass t) := by
  unfold soakIn
  split
  · exact h.onLn _ _
  · exact h

theorem soakDone_linkKeeps (l : Nat) (uncorrectable serHigh : Bool) : LinkKeeps s (soakDone l uncorrectable serHigh t) := by
  have hword := ctrlWord_linkKeeps h (l / 4) 8 (2 * l + b2n (!uncorrectable && !serHigh))
  unfold soakDone
  dsimp only
  split
  · exact restripe_linkKeeps ((setLane_linkKeeps hword _ _).onLn _ _) _ _ _
  · exact (setLane_linkKeeps hword _ _).onLn _ _

/-! ## Replay and credits -/

theorem replayAll_linkKeeps (n : Nat) : LinkKeeps s (replayAll n t) := by
  have hcount : LinkKeeps s ((t.inc .LK_CNT_REPLAY_CNT n).onLp n (fun x => { x with
      replays := x.replays + 1, progressAt := t.now, rxUnacked := 0 })) := (h.inc _ _ (hf := by decide)).onLp _ _
  unfold replayAll
  dsimp only
  split
  · exact h
  · split
    · exact retrain_linkKeeps hcount n
    · exact hcount

theorem ackBefore_linkKeeps (n f : Nat) : LinkKeeps s (ackBefore n f t) := by
  unfold ackBefore
  dsimp only
  split
  · split
    · exact h
    · exact pump_linkKeeps (h.onLp _ _) n
  · split
    · exact h
    · exact pump_linkKeeps (h.onLp _ _) n

theorem endStream_linkKeeps (n : Nat) : LinkKeeps s (endStream n t) := retrain_linkKeeps (h.onLp _ _) n

theorem badFrame_linkKeeps (n : Nat) : LinkKeeps s (badFrame n t) := by
  have hcount := h.inc .LK_ERR_CRC_CNT n (hf := by decide)
  unfold badFrame
  dsimp only
  split
  · exact hcount
  · exact sendNak_linkKeeps hcount n

theorem nakIn_linkKeeps (n fseq : Nat) : LinkKeeps s (nakIn n fseq t) := by
  unfold nakIn
  split
  · exact h
  · split
    · exact replayAll_linkKeeps (ackBefore_linkKeeps h _ _) n
    · exact badFrame_linkKeeps h n

theorem creditIn_linkKeeps (n kind count : Nat) : LinkKeeps s (creditIn n kind count t) := by
  unfold creditIn
  split
  · exact pump_linkKeeps (h.onLp _ _) n
  · exact pump_linkKeeps (h.onLp _ _) n
  · exact pump_linkKeeps (h.onLp _ _) n
  · exact badFrame_linkKeeps h n

/-! ## Sleep -/

theorem goIdle_linkKeeps (n : Nat) : LinkKeeps s (goIdle n t) := dropWord_linkKeeps ((h.w _ _ _ _ (by decide)).onLp _ _) _ _

theorem idleReqIn_linkKeeps (n : Nat) : LinkKeeps s (idleReqIn n t) := by
  unfold idleReqIn
  split
  · exact h
  · split
    · exact goIdle_linkKeeps h n
    · split
      · exact goIdle_linkKeeps (idleWord_linkKeeps h _ _) n
      · exact idleWord_linkKeeps h _ _

theorem idleAckIn_linkKeeps (n : Nat) : LinkKeeps s (idleAckIn n t) := by
  unfold idleAckIn
  split
  · exact goIdle_linkKeeps h n
  · exact h

theorem idleNakIn_linkKeeps (n : Nat) : LinkKeeps s (idleNakIn n t) := by
  unfold idleNakIn
  split
  · exact dropWord_linkKeeps (h.onLp _ _) _ _
  · exact h

theorem wakeTxIn_linkKeeps (n : Nat) : LinkKeeps s (wakeTxIn n t) := by
  unfold wakeTxIn
  split
  · exact h.onLp _ _
  · exact h

end

/-! ## The rows -/

/-- A row that answers such a state. -/
def LinkRow (s : State) (o : Out) : Prop := ∃ t, o = .next t ∧ LinkKeeps s t

theorem linkRow_next {s t : State} (h : LinkKeeps s t) : LinkRow s (.next t) := ⟨t, rfl, h⟩

/-- A row that acts under a condition. -/
theorem linkRow_ite {s t u : State} (c : Prop) [Decidable c] (ht : LinkKeeps s t) (hu : LinkKeeps s u) :
    LinkRow s (.next (if c then t else u)) := by
  split
  · exact linkRow_next ht
  · exact linkRow_next hu

theorem execIdleDelayTimeout_linkRow (port : Fin 12) (s : State) : LinkRow s (execIdleDelayTimeout port s) := by
  refine linkRow_ite _ .refl ?_
  split
  · split
    · exact Keeps.refl.onLp _ _
    · exact .refl
  · split
    · exact .refl
    · exact idleWord_linkKeeps (Keeps.refl.onLp _ _) _ _

theorem execMrdTimeout_linkRow (port : Fin 12) (tag : Nat) (s : State) : LinkRow s (execMrdTimeout port tag s) := by
  refine linkRow_next ?_
  dsimp only
  split
  · exact finishMrd_linkKeeps (Keeps.refl.onLp _ _) _ _ _ _
  · exact .refl

theorem execSignalDetect_linkRow (port : Fin 12) (s : State) : LinkRow s (execSignalDetect port s) := by
  have hset : LinkKeeps s (s.setF .LK_STATE_SIGDET port.val) := Keeps.refl.setF _ _ (hf := by decide)
  exact linkRow_ite _ (setPhase_linkKeeps hset _ _) hset

theorem execExitBurst_linkRow (port : Fin 12) (s : State) : LinkRow s (execExitBurst port s) := by
  refine linkRow_ite _ (pump_linkKeeps (Keeps.onLp (Keeps.w (Keeps.forAll (dropIdle_linkKeeps .refl _) _ fun i t ht => ?_) _ _ _ _
    (by decide)) _ _) _) .refl
  exact ht.onLn _ _

theorem execEqualizeDone_linkRow (port : Fin 12) (fir : List (Nat × Nat)) (s : State) : LinkRow s (execEqualizeDone port fir s) :=
  linkRow_ite _ (setPhase_linkKeeps (Keeps.refl.forAll _ fun _ _ ht => setFir_linkKeeps ht _ _ _) _ _) .refl

theorem execLaneTrainDone_linkRow (lane : Fin 48) (pre post : Nat) (s : State) : LinkRow s (execLaneTrainDone lane pre post s) :=
  linkRow_ite _ ((setLane_linkKeeps (setFir_linkKeeps .refl _ _ _) _ _).onLn _ _) .refl

theorem execLaneHour_linkRow (lane : Fin 48) (bin : Nat) (s : State) : LinkRow s (execLaneHour lane bin s) :=
  linkRow_ite _ .refl (lifeAdd_linkKeeps (Keeps.refl.onLn _ _) _ _ _ _ _)

/-- Every row of the link layer that raises no event keeps its frame. -/
theorem exec_linkRow {c : Instr} (h : linkQuiet c = true) (s : State) : LinkRow s (exec c s) := by
  unfold exec
  cases c with
  | nak port fseq => exact linkRow_next (nakIn_linkKeeps .refl _ _)
  | idleDelayTimeout port => exact execIdleDelayTimeout_linkRow port s
  | alignDone port => exact linkRow_ite _ .refl (portUp_linkKeeps .refl _)
  | restripeAck port map gen => exact linkRow_next (restripeAckIn_linkKeeps .refl _ _ _)
  | ackSendTimer port => exact linkRow_ite _ (Keeps.refl.onLp _ _) .refl
  | idleNak port => exact linkRow_next (idleNakIn_linkKeeps .refl _)
  | credit port kind count => exact linkRow_next (creditIn_linkKeeps .refl _ _ _)
  | ackTimeout port => exact linkRow_ite _ (replayAll_linkKeeps .refl _) .refl
  | cpl port hdr data => exact linkRow_ite _ (endStream_linkKeeps .refl _) .refl
  | idleReq port => exact linkRow_next (idleReqIn_linkKeeps .refl _)
  | laneTrainDone lane pre post => exact execLaneTrainDone_linkRow lane pre post s
  | mrdTimeout port tag => exact execMrdTimeout_linkRow port tag s
  | backoffEnd port => exact linkRow_ite _ (startAttempt_linkKeeps .refl _ _) .refl
  | wakeTx port => exact linkRow_next (wakeTxIn_linkKeeps .refl _)
  | idleAck port => exact linkRow_next (idleAckIn_linkKeeps .refl _)
  | restripe port map gen => exact linkRow_next (restripeIn_linkKeeps .refl _ _ _)
  | equalizeDone port fir => exact execEqualizeDone_linkRow port fir s
  | signalDetect port => exact execSignalDetect_linkRow port s
  | exitBurst port => exact execExitBurst_linkRow port s
  | soakEnd lane uncorrectable serHigh => exact linkRow_ite _ .refl (soakDone_linkKeeps .refl _ _ _)
  | soak lane pass => exact linkRow_next (soakIn_linkKeeps .refl _ _)
  | laneHour lane bin => exact execLaneHour_linkRow lane bin s
  | _ => exact absurd h nofun

/-- Settles O29. -/
theorem linkRowsTouchTheLinkOnly : Obligations.LinkRowsTouchTheLinkOnly := by
  unfold Obligations.LinkRowsTouchTheLinkOnly
  intro c s t hc ht
  obtain ⟨u, hu, hkeeps⟩ := exec_linkRow hc s
  obtain rfl := Host.Outcome.next.inj (ht.symm.trans hu)
  exact ⟨hkeeps.mem, hkeeps.r⟩

end Sys2Proof.Machine
end

section
/-! SUPPORT. The frame of the flow instructions (R124, R125). -/

namespace Sys2Proof.Machine

open Sys2Proof

/-- A state that the flow program of pitch p can reach. -/
abbrev FlowKeeps (p : Nat) (s t : State) : Prop := Keeps (fun f u _ => f ∈ flowFields ∧ u = p) (· = p) (· = p) s t

section
variable {p : Nat} {s t : State} (h : FlowKeeps p s t)
include h

/-! ## Positions -/

theorem raiseInt_flowKeeps (n : Nat) : FlowKeeps p s (raiseInt p n t) := by
  unfold raiseInt
  split
  · exact h
  · exact (h.w _ _ _ _ ⟨by decide, rfl⟩).onSq _ _ rfl

theorem traceSeg_flowKeeps (old : Nat) : FlowKeeps p s (traceSeg p old t) := by
  unfold traceSeg
  dsimp only
  split
  · exact raiseInt_flowKeeps h 0
  · exact h

theorem showStacks_flowKeeps : FlowKeeps p s (showStacks p t) := by
  have hdepth := (h.w .PT_STACK_LOOP_DEPTH p (t.pt p).loops.length 0 ⟨by decide, rfl⟩).w .PT_STACK_CALL_DEPTH p (t.pt p).calls.length 0
    ⟨by decide, rfl⟩
  unfold showStacks
  dsimp only
  split
  · exact (hdepth.w _ _ _ _ ⟨by decide, rfl⟩).w _ _ _ _ ⟨by decide, rfl⟩
  · exact (hdepth.w _ _ _ _ ⟨by decide, rfl⟩).w _ _ _ _ ⟨by decide, rfl⟩

theorem latchLevels_flowKeeps (cc : Nat) : FlowKeeps p s (latchLevels p cc t) := by
  unfold latchLevels
  exact h.onPt _ _ rfl

theorem latchEvent_flowKeeps (src sel cc : Nat) : FlowKeeps p s (latchEvent p src sel cc t) := by
  unfold latchEvent
  exact h.onPt _ _ rfl

theorem latchNow_flowKeeps (b : Nat) : FlowKeeps p s (latchNow p b t) := by
  unfold latchNow
  refine List.foldlRecOn _ _ h fun u hu x _ => ?_
  split
  · exact latchEvent_flowKeeps hu _ _ _
  · exact hu

theorem beginPlace_flowKeeps (k n : Nat) (first : Bool) (b : Nat) (iss : Option Issued) : FlowKeeps p s (beginPlace p k n first b iss t) := by
  have hpos := ((h.w .PT_POS_SEG p k 0 ⟨by decide, rfl⟩).w .PT_PASS_PASS p n 0 ⟨by decide, rfl⟩).w .PT_POS_IMODE p 0 0 ⟨by decide, rfl⟩
  unfold beginPlace
  exact showStacks_flowKeeps (latchNow_flowKeeps (latchLevels_flowKeeps ((traceSeg_flowKeeps hpos _).onPt _ _ rfl) _) _)

theorem beginPass_flowKeeps (k n : Nat) (first : Bool) (b : Nat) : FlowKeeps p s (beginPass p k n first b t) :=
  beginPlace_flowKeeps h _ _ _ _ _

theorem beginSeg_flowKeeps (k b : Nat) : FlowKeeps p s (beginSeg p k b t) := beginPass_flowKeeps h _ _ _ _

/-! ## Stops and jumps -/

theorem fixStop_flowKeeps (c : Nat) : FlowKeeps p s (fixStop p c t) := by
  unfold fixStop
  exact (((h.w .PT_RUN_STATE p STOPPING 0 ⟨by decide, rfl⟩).w .PT_RUN_STOP_CAUSE p c 0 ⟨by decide, rfl⟩).onCyc _).onPt _ _ rfl

theorem stopHere_flowKeeps (c : Nat) : FlowKeeps p s (stopHere p c t) := by
  have hfix := fixStop_flowKeeps h c
  unfold stopHere
  dsimp only
  split
  · exact hfix
  · exact showStacks_flowKeeps ((hfix.setF _ _ (hf := ⟨by decide, rfl⟩)).onPt _ _ rfl)

theorem continueAt_flowKeeps (ip chain : Nat) : FlowKeeps p s (continueAt p ip chain t) := by
  unfold continueAt
  split
  · exact stopHere_flowKeeps h 9
  · exact ((h.w _ _ _ _ ⟨by decide, rfl⟩).w _ _ _ _ ⟨by decide, rfl⟩).onPt _ _ rfl

theorem flowNext_flowKeeps : FlowKeeps p s (flowNext p t) := continueAt_flowKeeps h _ _

theorem deferred_flowKeeps : FlowKeeps p s (deferred p t) :=
  (h.setF .PT_RUN_DEFER p (hf := ⟨by decide, rfl⟩)).inc .PT_RUN_DEFER_CNT p (hf := ⟨by decide, rfl⟩)

theorem setFlags_flowKeeps (set clr : Nat) : FlowKeeps p s (setFlags p set clr t) := by
  have hflag := (h.onCyc (fun c => { c with flags := tset 0 c.flags p (tget 0 t.cyc.flags p ||| set) })).w .PT_FLAGS_FLAG p
    (((t.r .PT_FLAGS_FLAG p - (t.r .PT_FLAGS_FLAG p &&& clr)) ||| (tget 0 t.cyc.flags p ||| set)) % 65536) 0 ⟨by decide, rfl⟩
  unfold setFlags
  dsimp only
  split
  · exact latchLevels_flowKeeps hflag _
  · exact hflag

/-! ## Instructions -/

theorem flowRun_flowKeeps (kind : Nat) {body : Nat → Nat → State → State} (hbody : ∀ i b {u}, FlowKeeps p s u → FlowKeeps p s (body i b u)) :
    FlowKeeps p s (flowRun p kind body t) := by
  unfold flowRun
  split
  · exact h
  · split
    · exact h
    · split
      · exact stopHere_flowKeeps h 9
      · exact hbody _ _ (h.onPt _ _ rfl)

theorem loopBegin_flowKeeps (i b : Nat) : FlowKeeps p s (loopBegin p i b t) := by
  unfold loopBegin
  split
  · exact stopHere_flowKeeps h 8
  · exact beginSeg_flowKeeps (h.onPt _ _ rfl) _ _

theorem loopEnd_flowKeeps (i b : Nat) : FlowKeeps p s (loopEnd p i b t) := by
  have hpop : ∀ {u : State} (r : List LoopFrame), FlowKeeps p s u →
      FlowKeeps p s (flowNext p (showStacks p (u.onPt p (fun x => { x with loops := r })))) :=
    fun r hu => flowNext_flowKeeps (showStacks_flowKeeps (hu.onPt _ _ rfl))
  have hmissed : ∀ e : Option Nat, FlowKeeps p s (match e with | some e => if e < (t.pt p).lastB then deferred p t else t | none => t) := by
    intro e
    split
    · split
      · exact deferred_flowKeeps h
      · exact h
    · exact h
  unfold loopEnd
  split
  · exact stopHere_flowKeeps h 8
  · dsimp only
    split
    · exact hpop _ (hmissed _)
    · split
      · exact hpop _ h
      · exact beginSeg_flowKeeps (h.onPt _ _ rfl) _ _

theorem callSeg_flowKeeps (i b : Nat) : FlowKeeps p s (callSeg p i b t) := by
  unfold callSeg
  split
  · exact stopHere_flowKeeps h 8
  · exact beginSeg_flowKeeps (h.onPt _ _ rfl) _ _

theorem retSeg_flowKeeps (i b : Nat) : FlowKeeps p s (retSeg p i b t) := by
  unfold retSeg
  split
  · exact continueAt_flowKeeps (showStacks_flowKeeps (h.onPt _ _ rfl)) _ _
  · exact beginSeg_flowKeeps h _ _

theorem waitSeg_flowKeeps (i b : Nat) : FlowKeeps p s (waitSeg p i b t) :=
  beginPass_flowKeeps ((h.w .PT_POS_IP p _ 0 ⟨by decide, rfl⟩).onPt _ _ rfl) _ _ _ _

theorem setflag_flowKeeps (i b : Nat) : FlowKeeps p s (setflag p i b t) := by
  unfold setflag
  dsimp only
  split
  · exact flowNext_flowKeeps (setFlags_flowKeeps h _ _)
  · exact flowNext_flowKeeps (setFlags_flowKeeps h _ _)

end

/-- Every flow instruction keeps its frame. -/
theorem exec_flowKeeps {c : Instr} {p : Fin 32} (hc : flowPitch c = some p) (s : State) :
    ∃ t, exec c s = .next t ∧ FlowKeeps p.val s t := by
  unfold flowPitch at hc
  split at hc
  case h_1 => obtain rfl := Option.some.inj hc; exact ⟨_, rfl, flowRun_flowKeeps .refl _ fun i b _ h => loopBegin_flowKeeps h i b⟩
  case h_2 => obtain rfl := Option.some.inj hc; exact ⟨_, rfl, flowRun_flowKeeps .refl _ fun i b _ h => loopEnd_flowKeeps h i b⟩
  case h_3 => obtain rfl := Option.some.inj hc; exact ⟨_, rfl, flowRun_flowKeeps .refl _ fun i b _ h => callSeg_flowKeeps h i b⟩
  case h_4 => obtain rfl := Option.some.inj hc; exact ⟨_, rfl, flowRun_flowKeeps .refl _ fun i b _ h => retSeg_flowKeeps h i b⟩
  case h_5 => obtain rfl := Option.some.inj hc; exact ⟨_, rfl, flowRun_flowKeeps .refl _ fun i b _ h => waitSeg_flowKeeps h i b⟩
  case h_6 => obtain rfl := Option.some.inj hc; exact ⟨_, rfl, flowRun_flowKeeps .refl _ fun i b _ h => setflag_flowKeeps h i b⟩
  case h_7 => contradiction

/-- Settles O30. -/
theorem flowInstructionsTouchTheirPitchOnly : Obligations.FlowInstructionsTouchTheirPitchOnly := by
  unfold Obligations.FlowInstructionsTouchTheirPitchOnly
  intro c p s t hc ht
  obtain ⟨u, hu, hkeeps⟩ := exec_flowKeeps hc s
  obtain rfl := Host.Outcome.next.inj (ht.symm.trans hu)
  exact ⟨hkeeps.mem, hkeeps.chan, fun k hk => ⟨hkeeps.pt k hk, hkeeps.gp k hk⟩, hkeeps.r⟩

end Sys2Proof.Machine
end

section
/-! SUPPORT. The rows whose effect lies in no register and no memory, and the consumer counts. -/

namespace Sys2Proof.Machine

open Sys2Proof

/-- A state with the same registers and memories. -/
structure SameStore (s t : State) : Prop where
  regs : t.regs = s.regs
  mem : t.mem = s.mem

section
variable {s t u : State}

theorem SameStore.refl : SameStore s s := ⟨rfl, rfl⟩

theorem SameStore.trans (h : SameStore s t) (k : SameStore t u) : SameStore s u := ⟨k.regs.trans h.regs, k.mem.trans h.mem⟩

/-- A step that happens under a condition. -/
theorem SameStore.ite (c : Prop) [Decidable c] (ht : SameStore s t) (hu : SameStore s u) : SameStore s (if c then t else u) := by
  split
  · exact ht
  · exact hu

end

/-! ## The parts of these rows -/

theorem railRead_sameStore (t : State) (i v : Nat) : SameStore t (railRead t i v) := by
  have hkept : ∀ (c : Prop) [Decidable c] (u : State) (a b x y : Nat),
      SameStore u (if c then setLife 0x11 0 a 2 x (setLife 0x11 0 b 4 y u) else u) := fun c _ u a b x y => .ite c ⟨rfl, rfl⟩ .refl
  exact .ite _ .refl (.trans (hkept _ _ _ _ _ _) (hkept _ _ _ _ _ _))

theorem railSample_sameStore (mv : List (Nat × Nat)) (s : State) : SameStore s (mv.foldl (fun t e => railRead t e.1 e.2) s) :=
  List.foldlRecOn mv _ .refl fun u hu e _ => hu.trans (railRead_sameStore u e.1 e.2)

theorem openUnits_sameStore (p v : Nat) (s : State) : SameStore s (openUnits p v s) :=
  forAll_preserves .refl fun _ _ _ ht => ht.trans ⟨rfl, rfl⟩

/-- An acquisition that opens, reopens or waits. -/
theorem opening_sameStore {s t u : State} (c₁ c₂ : Prop) [Decidable c₁] [Decidable c₂] (ht : SameStore s t) (hu : SameStore s u) :
    SameStore s (if c₁ then (t, true) else if c₂ then (u, true) else (s, false)).1 := by
  split
  · exact ht
  · split
    · exact hu
    · exact .refl

theorem tryOpen_sameStore (p v : Nat) (s : State) : SameStore s (tryOpen p v s).1 := by
  have hopen : ∀ a : Acq → Acq, SameStore s (openUnits p v (s.onAcq p a)) := fun a =>
    .trans (t := s.onAcq p a) ⟨rfl, rfl⟩ (openUnits_sameStore p v _)
  unfold tryOpen
  exact opening_sameStore _ _ (hopen _) ⟨rfl, rfl⟩

theorem markEdges_sameStore (n : Nat) (l : List (Nat × Bool)) : ∀ s : State, SameStore s (markEdges n l s) := by
  induction l with
  | nil => exact fun _ => .refl
  | cons e r ih =>
    intro s
    unfold markEdges
    refine .ite _ .refl ?_
    dsimp only
    refine .trans ?_ (ih _)
    exact ⟨rfl, rfl⟩

theorem settleMark_sameStore (n : Nat) (s : State) : SameStore s (settleMark n s) := markEdges_sameStore n _ s

/-! ## The rows -/

theorem execEchoDrive_sameStore (s : State) : ∃ t, execEchoDrive s = .next t ∧ SameStore s t := by
  refine ⟨_, rfl, ?_⟩
  split
  · exact .ite _ .refl ⟨rfl, rfl⟩
  · exact .refl

theorem execMapSegmentPublish_sameStore (p : Fin 32) (s : State) : ∃ t, execMapSegmentPublish p s = .next t ∧ SameStore s t := by
  refine ⟨_, rfl, .ite _ .refl ?_⟩
  split
  · exact .refl
  · exact ⟨rfl, rfl⟩

theorem execMarkPulseEnd_sameStore (n : Fin 8) (s : State) : ∃ t, execMarkPulseEnd n s = .next t ∧ SameStore s t :=
  ⟨_, rfl, (settleMark_sameStore n.val s).trans (.ite _ ⟨rfl, rfl⟩ .refl)⟩

theorem execXspiTimeout_sameStore (ptype copy : Nat) (s : State) : ∃ t, execXspiTimeout ptype copy s = .next t ∧ SameStore s t :=
  ⟨_, rfl, .ite _ .refl (.ite _ (.ite _ .refl ⟨rfl, rfl⟩) ⟨rfl, rfl⟩)⟩

theorem exec_sameStore {c : Instr} (h : inner c = true) (s : State) : ∃ t, exec c s = .next t ∧ SameStore s t := by
  unfold exec
  cases c with
  | echoDrive => exact execEchoDrive_sameStore s
  | busLineEnd n => exact ⟨_, rfl, rfl, rfl⟩
  | jtagInstruction op => exact ⟨_, rfl, rfl, rfl⟩
  | parkNRelease highNs => exact ⟨_, rfl, rfl, rfl⟩
  | railSample mv => exact ⟨_, rfl, railSample_sameStore mv s⟩
  | mapSegmentPublish p => exact execMapSegmentPublish_sameStore p s
  | xspiTimeout ptype copy => exact execXspiTimeout_sameStore ptype copy s
  | warmrstNRelease => exact ⟨_, rfl, .ite _ .refl (.ite _ ⟨rfl, rfl⟩ ⟨rfl, rfl⟩)⟩
  | challengeExpiry => exact ⟨_, rfl, .ite _ ⟨rfl, rfl⟩ .refl⟩
  | i3cPointer off => exact ⟨_, rfl, .ite _ ⟨rfl, rfl⟩ .refl⟩
  | acquisitionOpen p => exact ⟨_, rfl, .ite _ (tryOpen_sameStore _ _ s) .refl⟩
  | markPulseEnd n => exact execMarkPulseEnd_sameStore n s
  | i3cTimeout => exact ⟨_, rfl, .refl⟩
  | _ => exact absurd h nofun

/-- Settles O31. -/
theorem innerRowsTouchNoRegister : Obligations.InnerRowsTouchNoRegister := by
  unfold Obligations.InnerRowsTouchNoRegister
  intro c s t hc ht
  obtain ⟨u, hu, hsame⟩ := exec_sameStore hc s
  obtain rfl := Host.Outcome.next.inj (ht.symm.trans hu)
  exact ⟨hsame.regs, hsame.mem⟩

/-! ## Consumer counts -/

/-- A state after a write of a consumer count: the count is as before or as written, and of the other registers only RING_FULL. -/
structure Consumed (f : Fld) (u v : Nat) (s t : State) : Prop where
  mem : t.mem = s.mem
  count : t.r f u = s.r f u ∨ t.r f u = v % 2 ^ f.width
  r : ∀ g k i, ¬(g = f ∧ k = u ∧ i = 0) → g ≠ .SEC_STATE_RING_FULL → t.r g k i = s.r g k i

section
variable {f : Fld} {u v : Nat} {s : State}

theorem Consumed.refl : Consumed f u v s s := ⟨rfl, .inl rfl, fun _ _ _ _ _ => rfl⟩

theorem consumed_w {x : Nat} (hx : x % 2 ^ f.width = v % 2 ^ f.width) : Consumed f u v s (s.w f u x) where
  mem := rfl
  count := .inr ((State.r_w_self ..).trans hx)
  r g k i hg _ := State.r_w_key _ _ _ _ _ _ _ _ fun e => hg (by obtain ⟨rfl, rfl, rfl⟩ := RKey.mk.inj e; exact ⟨rfl, rfl, rfl⟩)

theorem consume_consumed (top : Nat) : Consumed f u v s (consume f u v top s) := by
  unfold consume
  split
  · exact consumed_w rfl
  · exact .refl

end

theorem evrCons_consumed (v : Nat) (s : State) : Consumed .EVR_CONS_COUNT 0 v s (evrCons v s) := by
  unfold evrCons
  dsimp only
  split
  · exact .refl
  · exact consumed_w (Nat.mod_mod _ _)

theorem Consumed.ringFull {v : Nat} {s t u : State} (h : Consumed .RES_CONS_COUNT 0 v s t) (hmem : u.mem = t.mem)
    (hregs : u.regs = (t.w .SEC_STATE_RING_FULL 0 0).regs) : Consumed .RES_CONS_COUNT 0 v s u := by
  have hr : ∀ g k i, g ≠ .SEC_STATE_RING_FULL → u.r g k i = t.r g k i := fun g k i hg =>
    (State.r_congr hregs g k i).trans (State.r_w_ne _ _ _ _ _ _ _ _ hg)
  refine ⟨hmem.trans h.mem, ?_, fun g k i hne hfull => (hr g k i hfull).trans (h.r g k i hne hfull)⟩
  rw [hr _ _ _ (by decide)]
  exact h.count

theorem resCons_consumed (v : Nat) (s : State) : Consumed .RES_CONS_COUNT 0 v s (resCons v s) := by
  have hcount : Consumed .RES_CONS_COUNT 0 v s (consume .RES_CONS_COUNT 0 v (s.r .RES_PROD_COUNT) s) := consume_consumed _
  unfold resCons
  dsimp only
  split
  · exact hcount.ringFull rfl rfl
  · exact hcount

theorem exec_consumed {c : Instr} {f : Fld} {u v : Nat} (hc : consumer c = some (f, u, v)) (s : State) :
    ∃ t, exec c s = .next t ∧ Consumed f u v s t := by
  unfold consumer at hc
  split at hc
  case h_1 => obtain ⟨rfl, rfl, rfl⟩ : _ = f ∧ _ = u ∧ _ = v := by simpa using hc
              exact ⟨_, rfl, consume_consumed _⟩
  case h_2 => obtain ⟨rfl, rfl, rfl⟩ : _ = f ∧ _ = u ∧ _ = v := by simpa using hc
              exact ⟨_, rfl, resCons_consumed _ _⟩
  case h_3 => obtain ⟨rfl, rfl, rfl⟩ : _ = f ∧ _ = u ∧ _ = v := by simpa using hc
              exact ⟨_, rfl, consume_consumed _⟩
  case h_4 => obtain ⟨rfl, rfl, rfl⟩ : _ = f ∧ _ = u ∧ _ = v := by simpa using hc
              exact ⟨_, rfl, evrCons_consumed _ _⟩
  case h_5 => contradiction

/-- Settles O33. -/
theorem consumerCountsTouchThemselvesOnly : Obligations.ConsumerCountsTouchThemselvesOnly := by
  unfold Obligations.ConsumerCountsTouchThemselvesOnly
  intro c f u v s t hc ht
  obtain ⟨t', ht', hmem, hcount, hr⟩ := exec_consumed hc s
  obtain rfl := Host.Outcome.next.inj (ht.symm.trans ht')
  exact ⟨hmem, hcount, hr⟩

end Sys2Proof.Machine
end

section
/-! SUPPORT. The frame of plain microwords and of interrupts (R136 to R146). -/

namespace Sys2Proof.Machine

open Sys2Proof

/-- The counts of cancelled work items. -/
abbrev cancelFields : List Fld := [.DU_CANCEL_CANCEL, .DU_CANCEL_RCANCEL]

/-! ## Posts of a sequencer -/

/-- The order key of a sequencer is one of Table DSP-4, so its post is never refused for its key. -/
theorem keyOk_sequencer {g : Nat} (hg : g < 32) : keyOk (0x40 + g) = true := by
  have hlow : 0x40 ≤ 0x40 + g := by omega
  have hhigh : 0x40 + g < 0x60 := by omega
  simp [keyOk, hlow, hhigh]

section
variable {P : Fld → Nat → Nat → Prop} {G Q : Nat → Prop} {s t : State} (h : Keeps P G Q s t) {g : Nat}
include h

theorem raceCancel_keeps (hcancel : ∀ f ∈ cancelFields, ∀ u i, P f u i) : Keeps P G Q s (raceCancel t) :=
  (h.inc .DU_CANCEL_CANCEL (hf := hcancel _ (by decide) _ _)).inc .DU_CANCEL_RCANCEL (hf := hcancel _ (by decide) _ _)

theorem post_keeps (hcancel : ∀ f ∈ cancelFields, ∀ u i, P f u i) {key : Nat} (hkey : keyOk key = true) (cls prod type payload : Nat)
    (held : Bool) : Keeps P G Q s (post cls prod type key payload held t) := by
  have hnext : Keeps P G Q s { t with disp := { t.disp with nextId := t.disp.nextId + 1 } } := h.same rfl rfl rfl rfl rfl
  unfold post
  simp only [hkey, Bool.true_and, if_true]
  split
  · split
    · exact raceCancel_keeps hnext hcancel
    · exact hnext.same rfl rfl rfl rfl rfl
  · exact hnext.same rfl rfl rfl rfl rfl

theorem romPost_keeps (hcancel : ∀ f ∈ cancelFields, ∀ u i, P f u i) (hg : g < 32) (type dst : Nat) :
    Keeps P G Q s (romPost g type dst t) := post_keeps h hcancel (keyOk_sequencer hg) _ _ _ _ _

theorem romOpen_keeps (hcancel : ∀ f ∈ cancelFields, ∀ u i, P f u i) (hg : g < 32) (type : Nat) : Keeps P G Q s (romOpen g type t) := by
  unfold romOpen
  exact romPost_keeps (h.same (u := t.fresh.2) rfl rfl rfl rfl rfl) hcancel hg _ _

theorem Keeps.ite {u : State} (c : Prop) [Decidable c] (hu : Keeps P G Q s u) : Keeps P G Q s (if c then t else u) := by
  split
  · exact h
  · exact hu

/-- An entry of the ROM marks work or posts a record. -/
theorem enterRom_keeps (hcancel : ∀ f ∈ cancelFields, ∀ u i, P f u i) (hg : g < 32) (hG : G g) : Keeps P G Q s (enterRom g t) := by
  unfold enterRom
  refine h.ite _ ?_
  dsimp only
  split
  · exact h.onSq _ _ hG
  · exact h.onSq _ _ hG
  · exact (romOpen_keeps (h.onSq _ _ hG) hcancel hg _).ite _ (h.onSq _ _ hG)
  · exact h.onSq _ _ hG
  · exact (romPost_keeps h hcancel hg _ _).ite _ h
  · exact (romOpen_keeps h hcancel hg _).ite _ h
  · exact h

end

/-! ## Interrupts -/

/-- A state that an interrupt of a group can reach. -/
abbrev InterruptKeeps (g : Nat) (s t : State) : Prop :=
  Keeps (fun f u _ => (f ∈ [Fld.SQ_INTP_PEND, .SQ_INTP_LAT_MAX, .SQ_USTAT_CMD_REJ, .SQ_UPC_UPC, .SQ_UPC_UPATCH] ∧ u = g) ∨
    f ∈ cancelFields) (· = g) (fun _ => False) s t

section
variable {g : Nat} {s t : State} (h : InterruptKeeps g s t)
include h

theorem raiseInt_interruptKeeps (n : Nat) : InterruptKeeps g s (raiseInt g n t) := by
  unfold raiseInt
  exact h.ite _ ((h.w _ _ _ _ (.inl ⟨by decide, rfl⟩)).onSq _ _ rfl)

theorem sqCmd_interruptKeeps (code seg : Nat) : InterruptKeeps g s (sqCmd g code seg t) := by
  unfold sqCmd
  exact (h.setF _ _ (hf := .inl ⟨by decide, rfl⟩)).ite _ (raiseInt_interruptKeeps (h.onSq _ _ rfl) 2)

theorem takeInt_interruptKeeps (hg : g < 32) (n vector req : Nat) : InterruptKeeps g s (takeInt g n vector req t) := by
  have htaken := (h.w .SQ_INTP_PEND g (t.r .SQ_INTP_PEND g - 2 ^ n) 0 (.inl ⟨by decide, rfl⟩)).hi .SQ_INTP_LAT_MAX g
    (min 65535 ((t.w .SQ_INTP_PEND g (t.r .SQ_INTP_PEND g - 2 ^ n)).now - req)) (.inl ⟨by decide, rfl⟩)
  unfold takeInt
  exact enterRom_keeps (((htaken.onSq _ _ rfl).w _ _ _ _ (.inl ⟨by decide, rfl⟩)).w _ _ _ _ (.inl ⟨by decide, rfl⟩))
    (fun f hf _ _ => .inr hf) hg rfl

end

theorem exec_interruptKeeps {c : Instr} {g : Fin 32} (hc : interruptRow c = some g) (s : State) :
    ∃ t, exec c s = .next t ∧ InterruptKeeps g.val s t := by
  have htake := fun n vector req => takeInt_interruptKeeps (g := g.val) (s := s) .refl g.isLt n vector req
  unfold interruptRow at hc
  split at hc
  case h_1 => obtain rfl := Option.some.inj hc; exact ⟨_, rfl, sqCmd_interruptKeeps .refl _ _⟩
  case h_2 => obtain rfl := Option.some.inj hc; exact ⟨_, rfl, sqCmd_interruptKeeps .refl _ _⟩
  case h_3 => obtain rfl := Option.some.inj hc; exact ⟨_, rfl, sqCmd_interruptKeeps .refl _ _⟩
  case h_4 =>
    obtain rfl := Option.some.inj hc
    exact ⟨_, rfl, Keeps.refl.ite _ ((htake ..).ite _ ((htake ..).ite _ (htake ..)))⟩
  case h_5 => contradiction

/-- Settles O34. -/
theorem interruptRowsTouchTheirSequencerOnly : Obligations.InterruptRowsTouchTheirSequencerOnly := by
  unfold Obligations.InterruptRowsTouchTheirSequencerOnly
  intro c g s t hc ht
  obtain ⟨u, hu, hkeeps⟩ := exec_interruptKeeps hc s
  obtain rfl := Host.Outcome.next.inj (ht.symm.trans hu)
  exact ⟨hkeeps.mem, hkeeps.chan, hkeeps.pitch fun _ => id, hkeeps.gp, fun f v i hf hcancel => hkeeps.r f v i (not_or.mpr ⟨hf, hcancel⟩)⟩

/-! ## The operation of a plain microword -/

/-- What a register code reads in a sequencer, beside the flags of the group and the length of its table. -/
def Seqr.code (x : Seqr) (flag len k : Nat) : Nat :=
  match k with
  | 0 => x.acc
  | 1 => x.t0
  | 2 => x.t1
  | 3 => x.t2
  | 4 => x.sh.seg
  | 5 => x.sh.pass
  | 6 => x.sh.ip
  | 7 => x.sh.pend
  | 8 => x.sh.ldep
  | 9 => x.sh.cdep
  | 10 => x.entIdx
  | 11 => flag
  | 12 => x.rtn
  | 13 => x.cmd
  | 14 => len
  | _ => 0

theorem uReg_eq_code (s : State) (g k : Nat) :
    s.uReg g k = (s.gp g).sq.code (s.r .PT_FLAGS_FLAG g) (s.r .SQ_TBL_LEN_COUNT g) k := rfl

theorem uReg_onSq (s : State) (g k : Nat) (f : Seqr → Seqr) :
    (s.onSq g f).uReg g k = (f (s.gp g).sq).code (s.r .PT_FLAGS_FLAG g) (s.r .SQ_TBL_LEN_COUNT g) k := by
  rw [uReg_eq_code, State.onSq, State.onGp_gp]
  rfl

/-- A state after the operation of a microword: no register and no memory is written, and of the register codes only those of W. -/
structure Worked (g : Nat) (W : Nat → Prop) (s t : State) : Prop where
  keeps : Keeps (fun _ _ _ => False) (· = g) (fun _ => False) s t
  stopped : (t.gp g).sq.stopped = (s.gp g).sq.stopped
  gap : (t.gp g).sq.gap = (s.gp g).sq.gap
  uReg : ∀ k, ¬W k → t.uReg g k = s.uReg g k

section
variable {g : Nat} {W : Nat → Prop} {s t : State}

theorem Worked.refl : Worked g W s s := ⟨.refl, rfl, rfl, fun _ _ => rfl⟩

variable (h : Worked g W s t)
include h

/-- An operation on the sequencer that leaves all but the codes of W. -/
theorem Worked.onSq (f : Seqr → Seqr) (hstopped : (f (t.gp g).sq).stopped = (t.gp g).sq.stopped)
    (hgap : (f (t.gp g).sq).gap = (t.gp g).sq.gap) (huReg : ∀ k, ¬W k → (t.onSq g f).uReg g k = t.uReg g k) : Worked g W s (t.onSq g f) where
  keeps := h.keeps.onSq _ _ rfl
  stopped := by rw [State.onSq, State.onGp_gp]; exact hstopped.trans h.stopped
  gap := by rw [State.onSq, State.onGp_gp]; exact hgap.trans h.gap
  uReg k hk := (huReg k hk).trans (h.uReg k hk)

/-- One that no code reads. -/
theorem Worked.onFlags (f : Seqr → Seqr) (hstopped : (f (t.gp g).sq).stopped = (t.gp g).sq.stopped)
    (hgap : (f (t.gp g).sq).gap = (t.gp g).sq.gap) (hcode : (f (t.gp g).sq).code = (t.gp g).sq.code) : Worked g W s (t.onSq g f) :=
  h.onSq f hstopped hgap fun k _ => by rw [uReg_onSq, uReg_eq_code, hcode]

theorem setFlagsZN_worked (v : Nat) : Worked g W s (setFlagsZN g v t) := h.onFlags _ rfl rfl rfl
theorem setC_worked (c : Bool) : Worked g W s (setC g c t) := h.onFlags _ rfl rfl rfl

/-- A write of a code changes what that code reads only. -/
theorem setReg_worked {dst : Nat} (hdst : W dst) (v : Nat) : Worked g W s (setReg g dst v t) := by
  unfold setReg
  dsimp only
  split
  case h_9 => exact h
  all_goals
    refine h.onSq _ rfl rfl fun k hk => ?_
    have hne : k ≠ _ := fun hkd => hk (hkd ▸ hdst)
    rw [uReg_onSq, uReg_eq_code]
    unfold Seqr.code
    split
    case h_16 => rfl
    all_goals simp only at hne ⊢
    all_goals exact absurd rfl hne

end

/-- The operation of a plain microword writes DST at most. -/
def PlainOp (g : Nat) (w : Micro) (b : Bool) (op : State → State) : Prop := ∀ t, Worked g (fun k => b = true ∧ k = w.dst) t (op t)

theorem aluOp_worked {g : Nat} {w : Micro} {b : Bool} (v : Nat) (c : Option Bool) (t : State) :
    Worked g (fun k => b = true ∧ k = w.dst) t (aluOp g w b v c t) := by
  have hwrite : Worked g (fun k => b = true ∧ k = w.dst) t (if b then setReg g w.dst v t else t) := by
    split
    · next hb => exact setReg_worked .refl ⟨hb, rfl⟩ v
    · exact .refl
  unfold aluOp
  dsimp only
  split
  · exact setC_worked (setFlagsZN_worked hwrite v) _
  · exact setFlagsZN_worked hwrite v

theorem aluWord_plain (g opc : Nat) (w : Micro) (b : Bool) (f : Nat → Nat → Nat × Option Bool) (s : State) :
    ∃ op, PlainOp g w b op ∧ (Host.Outcome.next (aluWord g opc w b f s) : Out) = .next (plainWord g opc w op s) :=
  ⟨_, fun t => aluOp_worked _ _ t, rfl⟩

/-- Every plain microword is a word with such an operation. -/
theorem exec_plainMicro {c : Instr} {g : Fin 32} {opc : Nat} {w : Micro} {b : Bool} (hc : plainMicro c = some (g, opc, w, b)) (s : State) :
    ∃ op, PlainOp g.val w b op ∧ exec c s = .next (plainWord g.val opc w op s) := by
  unfold plainMicro at hc
  split at hc
  case h_14 => contradiction
  all_goals simp only [Option.some.injEq, Prod.mk.injEq] at hc
  case h_1 => obtain ⟨rfl, rfl, rfl, rfl⟩ := hc
              exact ⟨_, fun _ => .refl, rfl⟩
  case h_2 => obtain ⟨rfl, rfl, rfl, rfl⟩ := hc
              exact ⟨_, fun _ => setReg_worked .refl ⟨rfl, rfl⟩ _, rfl⟩
  case h_3 => obtain ⟨rfl, rfl, rfl, rfl⟩ := hc
              exact ⟨_, fun _ => setReg_worked .refl ⟨rfl, rfl⟩ _, rfl⟩
  all_goals
    obtain ⟨rfl, rfl, rfl, rfl⟩ := hc
    unfold exec
    exact aluWord_plain _ _ _ _ _ _

/-! ## The fetch and the end of a plain word -/

/-- A state that a plain word can reach. -/
abbrev PlainKeeps (g : Nat) (s t : State) : Prop :=
  Keeps (fun f u _ => (f ∈ [Fld.SQ_UPC_UPC, .SQ_UPC_UPATCH] ∧ u = g) ∨ f ∈ cancelFields) (· = g) (fun _ => False) s t

section
variable {g : Nat} {s t : State}

theorem fetched_plainKeeps (h : PlainKeeps g s t) : PlainKeeps g s (fetched g t) :=
  (h.w _ _ _ _ (.inl ⟨by decide, rfl⟩)).w _ _ _ _ (.inl ⟨by decide, rfl⟩)

theorem shadow_plainKeeps (h : PlainKeeps g s t) : PlainKeeps g s (shadow g t) := by
  unfold shadow
  exact (h.onSq _ _ rfl).ite _ h

theorem Worked.plainKeeps {W : Nat → Prop} {u : State} (h : Worked g W t u) (ht : PlainKeeps g s t) : PlainKeeps g s u where
  mem := h.keeps.mem.trans ht.mem
  chan := h.keeps.chan.trans ht.chan
  pitch hq := (h.keeps.pitch hq).trans (ht.pitch hq)
  pt k hk := (h.keeps.pt k hk).trans (ht.pt k hk)
  gp k hk := (h.keeps.gp k hk).trans (ht.gp k hk)
  r f u i hf := (h.keeps.r f u i id).trans (ht.r f u i hf)

end

/-- The shadow registers do not depend on the address of the word. -/
theorem shadow_fetched_gp (g : Nat) (s : State) : (shadow g (fetched g s)).gp g = (shadow g s).gp g := by
  unfold shadow
  have hvis : (fetched g s).vis g = s.vis g := by simp [State.vis, State.rb, fetched, State.r_w_ne]
  have hgp : (fetched g s).gp g = s.gp g := rfl
  rw [hvis, hgp]
  split
  · simp [State.onSq, hgp]
  · exact hgp

/-- A supplied word of a clean store runs its operation between the fetch and the end of the word. -/
theorem word_supplied {g opc : Nat} {w : Micro} {reti : Bool} {body : State → State × Option (Nat × Bool)} {s : State}
    (hs : s.supplies g opc w = true) (hecc : w.ecc = .clean) :
    word g opc w reti body s = wordRest g w reti (body (shadow g (fetched g s))).2 (body (shadow g (fetched g s))).1 := by
  simp only [State.supplies, Bool.and_eq_true] at hs
  obtain ⟨⟨hfetch, hfits⟩, hword⟩ := hs
  have hclean : s.eccFits g .clean = true := hecc ▸ hfits
  simp [word, hfetch, hclean, hecc, hword]

theorem plainWord_supplied {g opc : Nat} {w : Micro} {op : State → State} {s : State} (hs : s.supplies g opc w = true)
    (hecc : w.ecc = .clean) : plainWord g opc w op s = wordRest g w false none (op (shadow g (fetched g s))) := word_supplied hs hecc

/-- A sequencer that is supplied a word has not stopped. -/
theorem stopped_of_supplies {g opc : Nat} {w : Micro} {s : State} (hs : s.supplies g opc w = true) : (s.gp g).sq.stopped = false := by
  simp only [State.supplies, State.fetches, Bool.and_eq_true, Bool.not_eq_true'] at hs
  exact hs.1.1.1.2

/-- The end of a plain word between two INT words, within its store. -/
theorem wordEnd_plain {g : Nat} {w : Micro} {t : State} (hint : w.int = false) (hgap : (t.gp g).sq.gap < 15)
    (hin : t.r .SQ_UPC_UPC g + 1 < storeEnd (t.rb .SQ_UPC_UPATCH g)) : ∃ a pt,
    wordEnd g w false none t =
      enterRom g (((t.w .SQ_UPC_UPC g a).w .SQ_UPC_UPATCH g pt).onSq g (fun x => { x with gap := x.gap + 1, lastInt := false })) := by
  have hpast : ¬storeEnd (t.rb .SQ_UPC_UPATCH g) ≤ t.r .SQ_UPC_UPC g + 1 := by omega
  have hgap' : ¬16 ≤ (t.gp g).sq.gap + 1 := by omega
  unfold wordEnd
  cases t.condHolds g w.cond
  · simp only [Option.isNone_none, Bool.not_false, Bool.and_self, Bool.true_and, decide_eq_true_eq, hpast, if_false, hint, Bool.or_self,
      Bool.false_eq_true, State.onSq, State.onGp_gp, State.w_gp, hgap']
    exact ⟨_, _, rfl⟩
  · simp only [Bool.not_true, Bool.and_false, Bool.false_and, Bool.false_eq_true, if_false, hint, Bool.or_self, State.onSq,
      State.onGp_gp, State.w_gp, hgap']
    exact ⟨_, _, rfl⟩

/-- A post leaves every register code. -/
theorem romPost_uReg {g : Nat} (hg : g < 32) (type dst k : Nat) (s : State) : (romPost g type dst s).uReg g k = s.uReg g k := by
  have hpost : Keeps (fun f _ _ => f ∈ cancelFields) (fun _ => False) (fun _ => False) s (romPost g type dst s) :=
    romPost_keeps .refl (fun _ hf _ _ => hf) hg _ _
  rw [uReg_eq_code, uReg_eq_code, hpost.gp g id, hpost.r _ _ _ (by decide), hpost.r _ _ _ (by decide)]

theorem romOpen_uReg {g : Nat} (hg : g < 32) (type k : Nat) (s : State) : (romOpen g type s).uReg g k = s.uReg g k := by
  unfold romOpen
  exact romPost_uReg hg _ _ _ _

/-- So does an entry of the ROM, which marks work or posts. -/
theorem enterRom_uReg {g : Nat} (hg : g < 32) (k : Nat) (s : State) : (enterRom g s).uReg g k = s.uReg g k := by
  have hmark : ∀ f : Seqr → Seqr, (f (s.gp g).sq).code = (s.gp g).sq.code → (s.onSq g f).uReg g k = s.uReg g k := fun f hf => by
    rw [uReg_onSq, uReg_eq_code, hf]
  have hite : ∀ (c : Prop) [Decidable c] {t u : State}, t.uReg g k = s.uReg g k → u.uReg g k = s.uReg g k →
      (if c then t else u).uReg g k = s.uReg g k := by
    intro c _ t u ht hu
    split
    · exact ht
    · exact hu
  unfold enterRom
  refine hite _ rfl ?_
  dsimp only
  split
  · exact hmark _ rfl
  · exact hmark _ rfl
  · exact hite _ ((romOpen_uReg hg _ _ _).trans (hmark _ rfl)) (hmark _ rfl)
  · refine hmark _ ?_
    split <;> rfl
  · exact hite _ (romPost_uReg hg _ _ _ _) rfl
  · exact hite _ (romOpen_uReg hg _ _ _) rfl
  · rfl

/-! ## The whole word -/

theorem shadow_regs (g : Nat) (s : State) : (shadow g s).regs = s.regs := by
  unfold shadow
  split <;> rfl

theorem shadow_sq (g : Nat) (s : State) :
    ((shadow g s).gp g).sq.stopped = (s.gp g).sq.stopped ∧ ((shadow g s).gp g).sq.gap = (s.gp g).sq.gap := by
  unfold shadow
  split
  · rw [State.onSq, State.onGp_gp]
    exact ⟨rfl, rfl⟩
  · exact ⟨rfl, rfl⟩

/-- The fetch changes no code but through the address. -/
theorem shadow_fetched_uReg (g k : Nat) (s : State) : (shadow g (fetched g s)).uReg g k = (shadow g s).uReg g k := by
  rw [uReg_eq_code, uReg_eq_code, shadow_fetched_gp]
  congr 1 <;> rw [State.r_congr (shadow_regs g _), State.r_congr (shadow_regs g s)] <;> simp [fetched, State.r_w_ne]

/-- The fetch shows its address, which fits the register within a store. -/
theorem fetched_upc {g : Nat} {s : State} (hin : (s.fetchAt g).1 + 1 < storeEnd (s.fetchAt g).2) :
    (fetched g s).r .SQ_UPC_UPC g = (s.fetchAt g).1 ∧ (fetched g s).rb .SQ_UPC_UPATCH g = (s.fetchAt g).2 := by
  have hlt : (s.fetchAt g).1 < 2 ^ Fld.width .SQ_UPC_UPC := by
    have hend : storeEnd (s.fetchAt g).2 ≤ 16384 := by
      unfold storeEnd
      split <;> decide
    have hwidth : 2 ^ Fld.width .SQ_UPC_UPC = 16384 := rfl
    omega
  refine ⟨?_, ?_⟩
  · rw [fetched, State.r_w_ne _ _ _ _ _ _ _ _ (by decide), State.r_w_self, Nat.mod_eq_of_lt hlt]
  · rw [fetched, State.rb, State.r_w_self]
    cases (s.fetchAt g).2 <;> rfl

/-- Where a word runs, its operation finds the address and store of the fetch, and ends within the store. -/
theorem plainWord_frame {g opc : Nat} {w : Micro} {b : Bool} {op : State → State} {s : State} (hg : g < 32) (hop : PlainOp g w b op)
    (hs : s.supplies g opc w = true) (hecc : w.ecc = .clean) (hint : w.int = false) (hgap : (s.gp g).sq.gap < 15)
    (hin : (s.fetchAt g).1 + 1 < storeEnd (s.fetchAt g).2) :
    PlainKeeps g s (plainWord g opc w op s) ∧
      ∀ k, (b = true → k ≠ w.dst) → (plainWord g opc w op s).uReg g k = (shadow g s).uReg g k := by
  have hwork := hop (shadow g (fetched g s))
  rw [plainWord_supplied hs hecc]
  generalize op (shadow g (fetched g s)) = u at hwork ⊢
  have hr : ∀ f v i, u.r f v i = (fetched g s).r f v i := fun f v i =>
    (hwork.keeps.r f v i id).trans (State.r_congr (shadow_regs g _) f v i)
  obtain ⟨hupc, hpatch⟩ := fetched_upc hin
  obtain ⟨hshadowStop, hshadowGap⟩ := shadow_sq g s
  have hstopped : (u.gp g).sq.stopped = false := by
    rw [hwork.stopped, shadow_fetched_gp, hshadowStop, stopped_of_supplies hs]
  have hgap' : (u.gp g).sq.gap < 15 := by rwa [hwork.gap, shadow_fetched_gp, hshadowGap]
  have hin' : u.r .SQ_UPC_UPC g + 1 < storeEnd (u.rb .SQ_UPC_UPATCH g) := by
    have hpatch' : u.rb .SQ_UPC_UPATCH g = (s.fetchAt g).2 := by rw [State.rb, hr]; exact hpatch
    rwa [hr, hupc, hpatch']
  obtain ⟨a, pt, hend⟩ := wordEnd_plain hint hgap' hin'
  rw [wordRest, if_neg (by simp [hstopped]), hend]
  have hkeeps : PlainKeeps g s u := hwork.plainKeeps (shadow_plainKeeps (fetched_plainKeeps .refl))
  refine ⟨enterRom_keeps (((hkeeps.w _ _ _ _ (.inl ⟨by decide, rfl⟩)).w _ _ _ _ (.inl ⟨by decide, rfl⟩)).onSq _ _ rfl)
    (fun f hf _ _ => .inr hf) hg rfl, fun k hk => ?_⟩
  have hmoved : (((u.w .SQ_UPC_UPC g a).w .SQ_UPC_UPATCH g pt).onSq g (fun x => { x with gap := x.gap + 1, lastInt := false })).uReg g k =
      u.uReg g k := by
    rw [uReg_onSq, uReg_eq_code, State.r_w_ne _ _ _ _ _ _ _ _ (by decide), State.r_w_ne _ _ _ _ _ _ _ _ (by decide),
      State.r_w_ne _ _ _ _ _ _ _ _ (by decide), State.r_w_ne _ _ _ _ _ _ _ _ (by decide)]
    rfl
  rw [enterRom_uReg hg, hmoved, hwork.uReg k (fun h => hk h.1 h.2), shadow_fetched_uReg]

/-- Settles O32. -/
theorem plainMicrowordsWriteTheirDestinationOnly : Obligations.PlainMicrowordsWriteTheirDestinationOnly := by
  unfold Obligations.PlainMicrowordsWriteTheirDestinationOnly
  intro c g opc w b s t hc hs hecc hint hgap hin ht
  obtain ⟨op, hop, hexec⟩ := exec_plainMicro hc s
  obtain rfl := Host.Outcome.next.inj (ht.symm.trans hexec)
  obtain ⟨hkeeps, huReg⟩ := plainWord_frame g.isLt hop hs hecc hint hgap hin
  exact ⟨hkeeps.mem, hkeeps.chan, hkeeps.pitch fun _ => id, hkeeps.gp, fun f u i hf hcancel => hkeeps.r f u i (not_or.mpr ⟨hf, hcancel⟩),
    fun k _ hk => huReg k hk⟩

end Sys2Proof.Machine
end

section
/-! SUPPORT. Packets, messages and the service buses take effect (R287 to R292, R314, R473). -/

namespace Sys2Proof.Machine

open Sys2Proof

/-- Settles O39. -/
theorem accessesTakeEffect : Obligations.AccessesTakeEffect := by
  unfold Obligations.AccessesTakeEffect
  refine ⟨?mrd, ?mrdTimeout, ?cpl, ?mwr, ?msg, ?startAt, ?i3cWrite, ?i3cPointer, ?emergencyPark, ?i3cTimeout, ?jtagInstruction⟩
  case mrd =>
    intro port h corrected s ⟨hup, hform, hpool, hvcm⟩
    have haddr : ¬h.addr < 0x10000 := by omega
    have hready : (decide (0x800000000 ≤ h.addr) && !s.vcmUp) = false := by
      by_cases hle : 0x800000000 ≤ h.addr
      · simp [hvcm hle]
      · simp [hle]
    change execMrd port h corrected s = _
    simp [execMrd, mrdIn, hup, hform, haddr, hready]
  case mrdTimeout =>
    intro port tag e s h
    change execMrdTimeout port tag s = _
    simp [execMrdTimeout, h]
  case cpl =>
    intro port h data s hup
    change execCpl port h data s = _
    simp [execCpl, hup]
  case mwr =>
    intro port h data s h
    obtain ⟨h₁, h₂⟩ := h
    change execMwr port h data s = _
    unfold execMwr
    simp only [h₁, h₂]
    rfl
  case msg =>
    intro port h data s ⟨hup, hform, hrole⟩
    change execMsg port h data s = _
    simp [execMsg, msgIn, hup, hform, hrole]
  case startAt =>
    intro port id mask peg seg report s ⟨hup, hrole, hnew⟩
    have hrole' : (s.role port.val == HOST || s.role port.val == MESH) = true := by simpa using hrole
    exact congrArg Host.Outcome.next (if_neg (by rw [hup, hrole', hnew]; decide))
  case i3cWrite =>
    intro off data s h
    change execI3cWrite off data s = _
    simp [execI3cWrite, h]
  case i3cPointer =>
    intro off s h
    change execI3cPointer off s = _
    simp [execI3cPointer, h]
  case emergencyPark => exact fun _ => rfl
  case i3cTimeout => exact fun _ => rfl
  case jtagInstruction => exact fun _ _ => rfl

end Sys2Proof.Machine
end

section
/-! SUPPORT. The calibration commands and their ends take effect (R222, R233, R241). -/

namespace Sys2Proof.Machine

open Sys2Proof

/-- Settles O40. -/
theorem calibrationTakesEffect : Obligations.CalibrationTakesEffect := by
  unfold Obligations.CalibrationTakesEffect
  refine ⟨?calRun, ?calRunDone, ?calCommit, ?calCommitDone, ?calDiscard, ?calSysoff⟩
  case calRun => exact fun d s ⟨ha, hp, hc⟩ => congrArg Host.Outcome.next (runLate_admitted ha hp hc rfl)
  case calRunDone =>
    intro units phases j m mx what force c v₀ v₁ s h
    obtain ⟨h₁, h₂, h₃, h₄, h₅⟩ := h
    change execCalRunDone units phases s = _
    simp [execCalRunDone, h₁, h₂, h₃, h₄, h₅]
  case calCommit => exact fun d s ⟨ha, hp, hc⟩ => congrArg Host.Outcome.next (runLate_admitted ha hp hc rfl)
  case calCommitDone =>
    intro d point s hjob
    change execCalCommitDone s = _
    by_cases hpoint : point < 5 <;> simp [execCalCommitDone, hjob, hpoint]
  case calDiscard => exact fun d s ⟨ha, hp⟩ => congrArg Host.Outcome.next (runBody_admitted ha hp)
  case calSysoff => exact fun d s ⟨ha, hp, hc⟩ => congrArg Host.Outcome.next (runAct_admitted ha hp hc)

end Sys2Proof.Machine
end

section
/-! SUPPORT. Stamps, measurements and the TDC commands take effect (R195 to R216). -/

namespace Sys2Proof.Machine

open Sys2Proof

/-- Settles O41. -/
theorem measurementsTakeEffect : Obligations.MeasurementsTakeEffect := by
  unfold Obligations.MeasurementsTakeEffect
  refine ⟨?tdcStamp, ?tdcArmInstant, ?freqGateWindow, ?measurementTimeout, ?tdcSetup, ?tdcArm, ?tdcResult, ?tdcAbort, ?tdcRelease,
    ?tdcStrip⟩
  case tdcStamp =>
    intro code cml rising coarse fine s ⟨h₁, h₂⟩
    change execTdcStamp code cml rising coarse fine s = _
    simp [execTdcStamp, h₁, h₂]
  case tdcArmInstant =>
    intro code a s ⟨harm, hnow, hstate⟩
    have hguard : ¬((decide (s.now < a) || (s.mstate code.val != MREADY && s.mstate code.val != MDONE)) = true) := by
      rcases hstate with h | h <;> rw [h] <;> simp [hnow, MREADY, MDONE]
    change execTdcArmInstant code s = _
    simp only [execTdcArmInstant, harm, if_neg hguard]
  case freqGateWindow =>
    intro code s ⟨hstate, htype, hgate, hend⟩
    have hwindow : (s.ms code.val).windowEnd = some (((s.ms code.val).freqFrom + mdGateCc (s.ms code.val).desc) * ETU) := by
      rcases hgate with h | h <;> simp [Meas.windowEnd, htype, h]
    change execFreqGateWindow code s = _
    simp [execFreqGateWindow, hwindow, hstate, Nat.mul_le_mul_right ETU hend]
  case measurementTimeout =>
    intro code s ⟨hstate, hend⟩
    change execMeasurementTimeout code s = _
    have hdue : (s.mstate code.val == MACTIVE && decide ((s.ms code.val).started + 1000 * mdTimeout (s.ms code.val).desc ≤ s.now)) = true := by
      simp [hstate, hend]
    have hactive : ¬(s.mstate code.val != MACTIVE) = true := by simp [hstate]
    exact congrArg Host.Outcome.next ((if_pos hdue).trans (if_neg hactive))
  case tdcSetup => exact fun d s ⟨ha, hp, hc⟩ => congrArg Host.Outcome.next (runDone_admitted ha hp hc)
  case tdcArm => exact fun d s ⟨ha, hp, hc⟩ => congrArg Host.Outcome.next (runDone_admitted ha hp hc)
  case tdcResult => exact fun d s ⟨ha, hp, hc⟩ => congrArg Host.Outcome.next (runDone_admitted ha hp hc)
  case tdcAbort => exact fun d s ⟨ha, hp, hc⟩ => congrArg Host.Outcome.next (runDone_admitted ha hp hc)
  case tdcRelease => exact fun d s ⟨ha, hp, hc⟩ => congrArg Host.Outcome.next (runDone_admitted ha hp hc)
  case tdcStrip => exact fun d s ⟨ha, hp, hc⟩ => congrArg Host.Outcome.next (runAct_admitted ha hp hc)

end Sys2Proof.Machine
end

section
/-! SUPPORT. The CAP commands take effect (R158 to R184). -/

namespace Sys2Proof.Machine

open Sys2Proof

/-- Settles O42. -/
theorem captureCommandsTakeEffect : Obligations.CaptureCommandsTakeEffect := by
  unfold Obligations.CaptureCommandsTakeEffect
  refine ⟨?capConfig, ?capTrigset, ?capBus, ?capArm, ?capTrig, ?capDisarm, ?capClear, ?capFirstfail⟩
  case capConfig => exact fun d s ⟨ha, hp, hc⟩ => congrArg Host.Outcome.next (runAct_admitted ha hp hc)
  case capTrigset => exact fun d s ⟨ha, hp, hc⟩ => congrArg Host.Outcome.next (runAct_admitted ha hp hc)
  case capBus => exact fun d s ⟨ha, hp, hc⟩ => congrArg Host.Outcome.next (runAct_admitted ha hp hc)
  case capArm => exact fun d s ⟨ha, hp, hc⟩ => congrArg Host.Outcome.next (runDone_admitted ha hp hc)
  case capTrig => exact fun d s ⟨ha, hp, hc⟩ => congrArg Host.Outcome.next (runDone_admitted ha hp hc)
  case capDisarm => exact fun d s ⟨ha, hp⟩ => congrArg Host.Outcome.next (runBody_admitted ha hp)
  case capClear => exact fun d s ⟨ha, hp, hc⟩ => congrArg Host.Outcome.next (runDone_admitted ha hp hc)
  case capFirstfail => exact fun d s ⟨ha, hp, hc⟩ => congrArg Host.Outcome.next (runDone_admitted ha hp hc)

end Sys2Proof.Machine
end

section
/-! SUPPORT. Mailbox, ring and register accesses take effect (R325, R326, R333, R359, R366, R400). -/

namespace Sys2Proof.Machine

open Sys2Proof

/-- A consumer count moves up to its producer's. -/
theorem consume_within {f : Fld} {u v top : Nat} {s : State} (hold : s.r f u ≤ v) (htop : v ≤ top) : consume f u v top s = s.w f u v := by
  simp [consume, hold, htop]

/-- Settles O43. -/
theorem mailboxAndRingWritesTakeEffect : Obligations.MailboxAndRingWritesTakeEffect := by
  unfold Obligations.MailboxAndRingWritesTakeEffect
  refine ⟨?mbEnable, ?mbDisable, ?mbDb, ?mbCplConsWrite, ?evrEnable, ?evrConsWrite, ?cuStailWrite, ?resConsWrite, ?twMresConsWrite,
    ?duQuotaWrite, ?rcRead, ?latchedPairRead, ?registerWrite⟩
  case mbEnable =>
    intro mb cfg v s ⟨hv, hoff, hlog, hhalf, hplaced⟩
    have hon : bit v 31 = true := by
      have hlt : cfg % 2 ^ 31 < 2 ^ 31 := Nat.mod_lt _ (by decide)
      rw [hv, bit, Nat.testBit_eq_decide_div_mod_eq]
      simp only [decide_eq_true_eq]
      omega
    have hguard : ¬(decide (6 < bits v 27 25) || (mbFields mb.val v s).partnerHalf mb.val ||
        !placed (mbRings (bits v 27 25) (bits v 15 0) ((mbFields mb.val v s).r .MB_CPLCFG_CPL_PAGE mb.val))
          ((mbFields mb.val v s).mbTaken mb.val ++ (mbFields mb.val v s).evrTaken ++ (mbFields mb.val v s).twinTaken)) = true := by
      rw [hhalf, hplaced]
      simp [hlog]
    change Host.Outcome.next (mbCfg mb.val (cfg % 2 ^ 31 + 2 ^ 31) s) = _
    rw [← hv, mbCfg, hoff, hon, mbEnable]
    exact congrArg Host.Outcome.next (if_neg hguard)
  case mbDisable =>
    intro mb s ⟨hon, hidle⟩
    change execMbDisable mb s = _
    simp only [execMbDisable, mbDisable, hon, hidle, if_true, Bool.false_eq_true, if_false]
  case mbDb =>
    exact fun path mb v s ⟨hon, hidle, hv, hne, hroom⟩ => congrArg Host.Outcome.next (mbDb_ahead hon hidle hv hne hroom)
  case mbCplConsWrite =>
    intro mb v s ⟨hv, hdist⟩
    change execMbCplConsWrite mb v s = _
    simp only [execMbCplConsWrite, mbCplCons, Nat.mod_eq_of_lt hv, Nat.not_lt.mpr hdist, if_false]
  case evrEnable =>
    intro cfg s ⟨hoff, hcfg, hlog, hplaced⟩
    have hon : bit (cfg + 2 ^ 31) 31 = true := by
      rw [bit, Nat.testBit_eq_decide_div_mod_eq]
      simp only [decide_eq_true_eq]
      omega
    change execEvrEnable cfg s = _
    simp only [execEvrEnable, evrCfg, Nat.mod_eq_of_lt hcfg, hon, hoff, hlog, hplaced, decide_true, Bool.and_self, Bool.not_false, if_true,
      b2n]
  case evrConsWrite =>
    intro v s ⟨hv, hdist⟩
    change execEvrConsWrite v s = _
    simp only [execEvrConsWrite, evrCons, Nat.mod_eq_of_lt hv, Nat.not_lt.mpr hdist, if_false]
  case cuStailWrite =>
    exact fun g v s ⟨hold, htop⟩ => congrArg Host.Outcome.next (consume_within hold htop)
  case resConsWrite =>
    intro v s ⟨hold, htop, hfree⟩
    change Host.Outcome.next (resCons v s) = _
    rw [resCons, consume_within hold htop]
    exact congrArg Host.Outcome.next (if_pos hfree)
  case twMresConsWrite =>
    exact fun v s ⟨hold, htop⟩ => congrArg Host.Outcome.next (consume_within hold htop)
  case duQuotaWrite =>
    intro c quota v s hok
    change execDuQuotaWrite c quota v s = _
    cases quota <;> simp_all [execDuQuotaWrite, duWrite]
  case rcRead =>
    intro path off x s ⟨h₁, h₂, h₃⟩
    change execRcRead path off s = _
    simp [execRcRead, h₁, h₂, h₃]
  case latchedPairRead =>
    intro path off x s ⟨h₁, h₂, h₃⟩
    change execLatchedPairRead path off s = _
    simp [execLatchedPairRead, h₁, h₂, h₃]
  case registerWrite =>
    intro path off v x s ⟨hpath, halign, hin, hreach, hat, hsize⟩
    change execRegisterWrite path off false v s = _
    simp [execRegisterWrite, csrAccess, csrWrite, csrWrite4, hpath, halign, hin, hreach, hat, hsize]

end Sys2Proof.Machine
end

section
/-! SUPPORT. Descriptors and the SYS and COAT commands take effect (R2, R327, R339, R344 to R347). -/

namespace Sys2Proof.Machine

open Sys2Proof

/-- Settles O44. -/
theorem commandsOfSysAndCoatsTakeEffect : Obligations.CommandsOfSysAndCoatsTakeEffect := by
  unfold Obligations.CommandsOfSysAndCoatsTakeEffect
  refine ⟨?descriptorTake, ?unsupportedCommand, ?sysInfo, ?sysNop, ?coatLoad, ?coatApply, ?coatWaitTimeout, ?coatList⟩
  case descriptorTake =>
    intro mb s ⟨h₁, h₂, h₃⟩
    change execDescriptorTake mb s = _
    simp [execDescriptorTake, h₁, h₂, h₃]
  case unsupportedCommand =>
    intro d cmd s ⟨hknown, hcode, hstart, hready, hmine⟩
    have hguard : ¬(known cmd || decide (65536 ≤ cmd) || !s.startable cmd d) = true := by simp [hknown, hcode, hstart]
    have hready' : (started d s).ready = true := hready
    have hmine' : (started d s).taken' d.mb = false := hmine
    change execUnsupportedCommand d cmd s = _
    simp only [execUnsupportedCommand, if_neg hguard, hready', hmine', Bool.not_true, Bool.false_eq_true, if_false]
  case sysInfo => exact fun d s ⟨ha, hp, hc⟩ => congrArg Host.Outcome.next (runAlways_passes ha hp hc)
  case sysNop => exact fun d s ⟨ha, hp, hc⟩ => congrArg Host.Outcome.next (runAlways_passes ha hp hc)
  case coatLoad =>
    intro d s ⟨ha, hp, hc⟩
    change execCoatLoad d s = _
    unfold execCoatLoad
    rw [runChecked_admitted ha hp hc]
    cases coatCheck (loadAt d) (started d s) <;> rfl
  case coatApply =>
    intro d s ⟨ha, hp, hc⟩
    change execCoatApply d s = _
    unfold execCoatApply
    rw [runChecked_admitted ha hp hc]
    cases coatCheck (applyAt d) (started d s) with
    | ok t => rfl
    | error e =>
      obtain ⟨st, i, own⟩ := e
      dsimp only
      split
      · split
        · next hfull => rw [if_pos (show 4 ≤ s.mbox.waits.length from hfull)]; rfl
        · next hroom => rw [if_neg (show ¬4 ≤ s.mbox.waits.length from hroom)]; rfl
      · rfl
  case coatWaitTimeout =>
    intro k w s ⟨h₁, h₂⟩
    change execCoatWaitTimeout k s = _
    simp [execCoatWaitTimeout, h₁, h₂]
  case coatList => exact fun d s ⟨ha, hp⟩ => congrArg Host.Outcome.next (runBody_admitted ha hp)

end Sys2Proof.Machine
end

section
/-! SUPPORT. Placing, judging, triggering and recording take effect (R56 to R68, R157 to R188). -/

namespace Sys2Proof.Machine

open Sys2Proof

/-- Settles O45. -/
theorem judgementTakesEffect : Obligations.JudgementTakesEffect := by
  unfold Obligations.JudgementTakesEffect
  refine ⟨?edgePlacement, ?strobeSample, ?judgementResolve, ?disarmEnd, ?evaluation, ?triggerTimeout, ?busLineEnd, ?acquisitionOpen,
    ?rearm, ?recordRelease, ?xtrigEdge, ?chPark, ?parkNAssert, ?parkNRelease, ?underrun⟩
  case edgePlacement =>
    intro c sig p s ⟨h₁, h₂⟩
    change execEdgePlacement c sig s = _
    simp [execEdgePlacement, h₁, h₂]
  case strobeSample =>
    intro c cmh cml p s ⟨h₁, h₂⟩
    change execStrobeSample c cmh cml s = _
    simp [execStrobeSample, h₁, h₂]
  case judgementResolve =>
    intro c p s ⟨h₁, h₂⟩
    change execJudgementResolve c s = _
    simp [execJudgementResolve, h₁, h₂]
  case disarmEnd =>
    intro p c s ⟨hat, hnow, hready⟩
    change Host.Outcome.next (disarm p.val s) = _
    simp [disarm, hat, hnow, hready]
  case evaluation => exact fun _ _ => rfl
  case triggerTimeout =>
    intro p s ⟨h₁, h₂⟩
    change execTriggerTimeout p s = _
    simp [execTriggerTimeout, h₁, h₂]
  case busLineEnd => exact fun _ _ => rfl
  case acquisitionOpen =>
    intro p s h
    change execAcquisitionOpen p s = _
    simp [execAcquisitionOpen, h]
  case rearm =>
    intro p s h
    change execRearm p s = _
    simp [execRearm, h]
  case recordRelease =>
    intro g p s h
    change execRecordRelease g s = _
    simp [execRecordRelease, h]
  case xtrigEdge =>
    intro n rising tPs durPs s t ⟨hlevel, hlong, ht⟩
    subst ht
    change execXtrigEdge n rising tPs durPs s = _
    simp only [execXtrigEdge, if_neg hlevel, if_neg (Nat.not_lt.mpr hlong), beq_iff_eq]
    rfl
  case chPark => exact fun d s ⟨ha, hp, hc⟩ => congrArg Host.Outcome.next (runDone_admitted ha hp hc)
  case parkNAssert =>
    intro lowNs s h
    change execParkNAssert lowNs s = _
    simp [execParkNAssert, h]
  case parkNRelease => exact fun _ _ => rfl
  case underrun =>
    intro p g h a r s ⟨h₁, h₂, h₃, h₄⟩
    change execUnderrun p g s = _
    simp_all [execUnderrun]

end Sys2Proof.Machine
end

section
/-! SUPPORT. The link layer and the LINK commands take effect (R264 to R296). -/

namespace Sys2Proof.Machine

open Sys2Proof

/-- Settles O46. -/
theorem linkLayerTakesEffect : Obligations.LinkLayerTakesEffect := by
  unfold Obligations.LinkLayerTakesEffect
  refine ⟨?laneLockTimeout, ?restripe, ?restripeAck, ?laneTrainDone, ?soak, ?soakEnd, ?slowLaneCheck, ?frameReceive, ?nak,
    ?ackTimeout, ?ackSendTimer, ?credit, ?creditStall, ?codewordReceive, ?signalDetect, ?signalLoss, ?capabilityBlock, ?equalizeDone,
    ?alignDone, ?trainingTimeout, ?backoffEnd, ?idleDelayTimeout, ?idleReq, ?idleAck, ?idleNak, ?exitBurst, ?wakeTx, ?linkConfig,
    ?linkEnable, ?linkDisable, ?linkLane, ?linkAperture, ?linkStatus⟩
  case laneLockTimeout => exact fun _ _ => rfl
  case restripe =>
    intro port map gen s ⟨hup, hpend, hmap, hnew⟩
    change Host.Outcome.next (restripeIn port.val map gen s) = _
    have hup' : (s.pst port.val != PUP) = false := by simp [hup]
    simp only [restripeIn, hup', hpend, hmap, if_false, Bool.false_eq_true, Bool.and_eq_true, decide_eq_true_eq, if_neg hnew]
  case restripeAck =>
    exact fun port map gen s hpend => congrArg Host.Outcome.next (if_pos hpend)
  case laneTrainDone =>
    intro lane pre post s ⟨h₁, h₂, h₃, h₄⟩
    change execLaneTrainDone lane pre post s = _
    simp [execLaneTrainDone, h₁, h₂, h₃, h₄]
  case soak =>
    exact fun lane pass s hsoak => congrArg Host.Outcome.next (if_pos (by simpa using hsoak))
  case soakEnd =>
    intro lane uncorrectable serHigh s ⟨h₁, h₂, h₃, h₄⟩
    change execSoakEnd lane uncorrectable serHigh s = _
    simp [execSoakEnd, h₁, h₂, h₃, h₄]
  case slowLaneCheck =>
    intro port counts i s ⟨h₁, h₂, h₃⟩
    change execSlowLaneCheck port counts s = _
    simp [execSlowLaneCheck, h₁, h₂, h₃]
  case frameReceive => exact fun _ _ _ => rfl
  case nak =>
    intro port fseq s ⟨hup, hspan⟩
    change Host.Outcome.next (nakIn port.val fseq s) = _
    simp [nakIn, hup, hspan]
  case ackTimeout =>
    intro port s ⟨h₁, h₂, h₃⟩
    change execAckTimeout port s = _
    simp [execAckTimeout, h₁, h₂, h₃]
  case ackSendTimer =>
    intro port s ⟨h₁, h₂⟩
    change execAckSendTimer port s = _
    simp [execAckSendTimer, h₁, h₂]
  case credit =>
    intro port kind count s hkind
    change Host.Outcome.next (creditIn port.val kind count s) = _
    rcases kind with _ | _ | _ | k
    · rfl
    · rfl
    · rfl
    · exact absurd hkind (by omega)
  case creditStall =>
    intro port k r s ⟨hq, htype, hsend, hstall, hwait⟩
    have htype' : (k.h.ttype == 2 || k.h.ttype == 5 || k.h.ttype == 6) = true := by simpa [or_assoc] using htype
    change execCreditStall port s = _
    simp only [execCreditStall, hq, htype', hsend, hstall, hwait, Bool.not_false, Bool.and_self, decide_true, if_true]
  case codewordReceive =>
    intro lane tag line uncorrectable commaMissed marker s ⟨h₁, h₂⟩
    change execCodewordReceive lane tag line uncorrectable commaMissed marker s = _
    simp [execCodewordReceive, h₁, h₂]
  case signalDetect =>
    intro port s h
    change execSignalDetect port s = _
    simp [execSignalDetect, h]
  case signalLoss =>
    intro port lanes s t ⟨hwhole, ht, hphase⟩
    subst ht
    have hphase' : ((((s.w .LK_STATE_SIGDET port.val 0).lp port.val).phase == PHANDSHAKE ||
        ((s.w .LK_STATE_SIGDET port.val 0).lp port.val).phase == PEQUALIZE) ||
        ((s.w .LK_STATE_SIGDET port.val 0).lp port.val).phase == PALIGN) = true := by
      simpa only [Bool.or_eq_true, beq_iff_eq, or_assoc] using hphase
    change execSignalLoss port lanes s = _
    simp only [execSignalLoss, if_pos hwhole, hphase', if_true]
  case capabilityBlock =>
    intro port cap s ⟨hphase, hkind, hrole, hrsv⟩
    have hkind' : (cap.kind == 1 || cap.kind == 2 || cap.kind == 0x10 || cap.kind == 0x11) = true := by
      simpa [or_assoc] using hkind
    have hphase' : ((s.lp port.val).phase != PHANDSHAKE) = false := by simp [hphase]
    change execCapabilityBlock port cap s = _
    simp [execCapabilityBlock, hphase', hkind', Nat.not_le.mpr hrole, hrsv]
  case equalizeDone =>
    intro port fir s h
    change execEqualizeDone port fir s = _
    simp [execEqualizeDone, h]
  case alignDone =>
    intro port s h
    change execAlignDone port s = _
    simp [execAlignDone, h]
  case trainingTimeout =>
    intro port s ⟨h₁, h₂⟩
    change execTrainingTimeout port s = _
    simp [execTrainingTimeout, h₁, h₂]
  case backoffEnd =>
    intro port s ⟨h₁, h₂⟩
    change execBackoffEnd port s = _
    simp [execBackoffEnd, h₁, h₂]
  case idleDelayTimeout =>
    intro port s ⟨h₁, h₂, h₃⟩
    change execIdleDelayTimeout port s = _
    simp [execIdleDelayTimeout, h₁, h₂, h₃]
  case idleReq =>
    intro port s ⟨hup, hnative, hsent⟩
    change Host.Outcome.next (idleReqIn port.val s) = _
    simp [idleReqIn, hup, hnative, hsent]
  case idleAck =>
    intro port s ⟨hup, hsent⟩
    change Host.Outcome.next (idleAckIn port.val s) = _
    simp [idleAckIn, hup, hsent]
  case idleNak =>
    intro port s ⟨hup, hsent⟩
    change Host.Outcome.next (idleNakIn port.val s) = _
    simp [idleNakIn, hup, hsent]
  case exitBurst =>
    intro port s h
    change execExitBurst port s = _
    simp [execExitBurst, h]
  case wakeTx =>
    intro port s ⟨hup, hcompat⟩
    change Host.Outcome.next (wakeTxIn port.val s) = _
    simp [wakeTxIn, hup, hcompat]
  case linkConfig => exact fun d s ⟨ha, hp, hc⟩ => congrArg Host.Outcome.next (runAct_admitted ha hp hc)
  case linkEnable => exact fun d s ⟨ha, hp⟩ => congrArg Host.Outcome.next (runBody_admitted ha hp)
  case linkDisable => exact fun d s ⟨ha, hp, hc⟩ => congrArg Host.Outcome.next (runDone_admitted ha hp hc)
  case linkLane => exact fun d s ⟨ha, hp, hc⟩ => congrArg Host.Outcome.next (runDone_admitted ha hp hc)
  case linkAperture => exact fun d s ⟨ha, hp, hc⟩ => congrArg Host.Outcome.next (runAct_admitted ha hp hc)
  case linkStatus => exact fun d s ⟨ha, hp⟩ => congrArg Host.Outcome.next (runBody_admitted ha hp)

end Sys2Proof.Machine
end

section
/-! SUPPORT. The effect of every microword (R141). -/

namespace Sys2Proof.Machine

open Sys2Proof

/-- Settles O47. A supplied word runs its operation between the fetch and the end of the word. -/
theorem microwordsRun : Obligations.MicrowordsRun := by
  unfold Obligations.MicrowordsRun
  refine ⟨?_, ?_, ?_, ?_, ?_, ?_, ?_, ?_, ?_, ?_, ?_, ?_, ?_, ?_, ?_, ?_, ?_, ?_, ?_, ?_, ?_, ?_, ?_, ?_, ?_, ?_, ?_, ?_, ?test,
    ?disp, ?reti⟩
  case test => exact fun _ _ _ _ ⟨hs, hecc⟩ => congrArg Host.Outcome.next (plainWord_supplied hs hecc)
  case disp => exact fun _ _ _ ⟨hs, hecc⟩ => congrArg Host.Outcome.next (word_supplied hs hecc)
  case reti => exact fun _ _ _ ⟨hs, hecc⟩ => congrArg Host.Outcome.next (word_supplied hs hecc)
  all_goals exact fun _ _ _ ⟨hs, hecc⟩ => congrArg Host.Outcome.next (plainWord_supplied hs hecc)

end Sys2Proof.Machine
end

section
/-! SUPPORT. Sequencer commands, interrupts and primer runs take effect (R144 to R154). -/

namespace Sys2Proof.Machine

open Sys2Proof

/-- A step completes with the status of its first failing check, and otherwise with its effect. -/
theorem reply_checked (cmd : Nat) (d : Desc) (l : List (Bool × Nat)) (after s : State) :
    reply cmd d (checked l (after, .done ST_OK) s).2 (checked l (after, .done ST_OK) s).1 =
      if (firstBad l).isNone then complete cmd d ST_OK false 0 0 0 after
      else complete cmd d ((firstBad l).getD 0) false 0 0 0 s := by
  unfold checked
  cases firstBad l <;> rfl

/-- Settles O48. -/
theorem sequencerEventsTakeEffect : Obligations.SequencerEventsTakeEffect := by
  unfold Obligations.SequencerEventsTakeEffect
  refine ⟨?reservedOpcode, ?sqCmdArm, ?sqCmdResume, ?sqCmdSnap, ?interruptTake, ?primerTimeout, ?seqService, ?seqPrime⟩
  case reservedOpcode =>
    exact fun g w s ⟨hs, hecc⟩ => congrArg (fun t => Host.Outcome.next (settle t)) (plainWord_supplied hs hecc)
  case sqCmdArm =>
    exact fun g seg s hfree => congrArg Host.Outcome.next (if_neg (by simp [hfree]))
  case sqCmdResume =>
    exact fun g s hfree => congrArg Host.Outcome.next (if_neg (by simp [hfree]))
  case sqCmdSnap =>
    exact fun g s hfree => congrArg Host.Outcome.next (if_neg (by simp [hfree]))
  case interruptTake =>
    intro g s ⟨h₁, h₂, h₃, h₄, h₅, h₆⟩
    change execInterruptTake g s = _
    simp [execInterruptTake, h₁, h₂, h₃, h₄, h₅, h₆]
  case primerTimeout =>
    intro g s ⟨h₁, h₂⟩
    change execPrimerTimeout g s = _
    simp [execPrimerTimeout, h₁, h₂]
  case seqService => exact fun d s ⟨ha, hp⟩ => congrArg Host.Outcome.next (runBody_admitted ha hp)
  case seqPrime =>
    intro d pkg p s ⟨ha, hp, hpkg, hplain⟩
    subst hpkg hplain
    change execSeqPrime d s = _
    unfold execSeqPrime
    rw [runCmd_admitted ha hp]
    exact congrArg Host.Outcome.next (reply_checked ..)

end Sys2Proof.Machine
end

section
/-! SUPPORT. CH.CONFIG and the TSET commands take effect (R45 to R50). -/

namespace Sys2Proof.Machine

open Sys2Proof

/-- Settles O49. -/
theorem timingAndChannelCommandsTakeEffect : Obligations.TimingAndChannelCommandsTakeEffect := by
  unfold Obligations.TimingAndChannelCommandsTakeEffect
  refine ⟨?chConfig, ?tsetWrite, ?tsetRead, ?tsetInvalidate⟩
  case chConfig => exact fun d s ⟨ha, hp, hc⟩ => congrArg Host.Outcome.next (runAct_admitted ha hp hc)
  case tsetWrite => exact fun d s ⟨ha, hp, hc⟩ => congrArg Host.Outcome.next (runAct_admitted ha hp hc)
  case tsetRead => exact fun d s ⟨ha, hp⟩ => congrArg Host.Outcome.next (runBody_admitted ha hp)
  case tsetInvalidate => exact fun d s ⟨ha, hp, hc⟩ => congrArg Host.Outcome.next (runAct_admitted ha hp hc)

end Sys2Proof.Machine
end

section
/-! SUPPORT. The PAT commands and the rings take effect (R69 to R99). -/

namespace Sys2Proof.Machine

open Sys2Proof

/-- Settles O50. -/
theorem patternCommandsTakeEffect : Obligations.PatternCommandsTakeEffect := by
  unfold Obligations.PatternCommandsTakeEffect
  refine ⟨?patBind, ?patBindDone, ?patQuota, ?patRing, ?patStage, ?patStageDone, ?stageChunkTimeout, ?patPrepare, ?patPrepareDone,
    ?patRelease, ?srCommit, ?deepStoreRowFeed⟩
  case patBind => exact fun d portFail s ⟨ha, hp, hc⟩ => congrArg Host.Outcome.next (runLate_admitted ha hp hc rfl)
  case patBindDone =>
    intro g j s ⟨h₁, h₂⟩
    change execPatBindDone g s = _
    simp [execPatBindDone, h₁, h₂]
  case patQuota => exact fun d s ⟨ha, hp, hc⟩ => congrArg Host.Outcome.next (runAct_admitted ha hp hc)
  case patRing => exact fun d s ⟨ha, hp, hc⟩ => congrArg Host.Outcome.next (runAct_admitted ha hp hc)
  case patStage => exact fun d portFail s ⟨ha, hp⟩ => congrArg Host.Outcome.next (runCmd_admitted ha hp)
  case patStageDone =>
    rintro g pf d x base count a sp n t u w s ⟨hjob, hopen, hcopied, rfl, rfl⟩
    change execPatStageDone g pf s = _
    unfold execPatStageDone
    rw [hjob]
    dsimp only
    rw [if_neg (Bool.eq_false_iff.mp hopen), hcopied]
    rfl
  case stageChunkTimeout =>
    intro g d x r since s ⟨h₁, h₂⟩
    change execStageChunkTimeout g s = _
    simp [execStageChunkTimeout, h₁, h₂]
  case patPrepare =>
    intro d t s ⟨ha, hp, hprep, ht, hfault⟩
    subst ht
    change execPatPrepare d s = _
    unfold execPatPrepare
    rw [runCmd_admitted ha hp]
    simp only [hprep, Bool.false_eq_true, if_false, hfault]
    rfl
  case patPrepareDone =>
    intro p j s ⟨h₁, h₂, h₃, h₄⟩
    change execPatPrepareDone p s = _
    simp [execPatPrepareDone, h₁, h₂, h₃, h₄]
  case patRelease => exact fun d s ⟨ha, hp, hc⟩ => congrArg Host.Outcome.next (runDone_admitted ha hp hc)
  case srCommit =>
    intro r v s ⟨hahead, hroom, hv⟩
    have hguard : ¬(decide (v ≤ s.r .SR_HEAD_HEAD r.val) || decide (s.ringSize r.val < v - s.r .SR_TAIL_TAIL r.val) ||
        decide (2 ^ 64 ≤ v)) = true := by
      simp only [Bool.or_eq_true, decide_eq_true_eq]
      omega
    change Host.Outcome.next (srCommit r.val v s) = _
    rw [srCommit, if_neg hguard]
    rfl
  case deepStoreRowFeed =>
    intro r rows z s ⟨hsrc, hrows, huse, hhdr, hdata, hroom⟩
    change Host.Outcome.next (feedRows r.val (rows + 1) s) = _
    simp only [feedRows, hsrc, hrows, huse, hhdr, hdata, Nat.not_lt.mpr hroom, decide_false, bne_self_eq_false, Bool.or_self,
      Bool.false_eq_true, if_false]

end Sys2Proof.Machine
end

section
/-! SUPPORT. Sensors, supplies, resets and start phases take effect (R410 to R431). -/

namespace Sys2Proof.Machine

open Sys2Proof

/-- Settles O51. -/
theorem powerTakesEffect : Obligations.PowerTakesEffect := by
  unfold Obligations.PowerTakesEffect
  refine ⟨?thermalSample, ?dieTrip, ?throttleTick, ?avsTick, ?pmbusTimeout, ?porstNAssert, ?porstNRelease, ?warmrstNAssert,
    ?warmrstNRelease, ?pwrfailNAssert, ?flushDone, ?xspiTimeout, ?startPhaseEnd, ?thmConfig, ?thmRead, ?thmShutrec, ?sysAckShutdown⟩
  case thermalSample =>
    intro die hbm s h
    change execThermalSample die hbm s = _
    simp [execThermalSample, h]
  case dieTrip =>
    intro sensor s ⟨h₁, h₂⟩
    change execDieTrip sensor s = _
    simp [execDieTrip, h₁, h₂]
  case throttleTick =>
    intro s ⟨h₁, h₂, h₃⟩
    change execThrottleTick s = _
    simp [execThrottleTick, h₁, h₂, h₃]
  case avsTick =>
    intro ack mv ma margin s ⟨h₁, h₂, h₃⟩
    change execAvsTick ack mv ma margin s = _
    simp [execAvsTick, h₁, h₂, h₃]
  case pmbusTimeout =>
    intro s h
    change execPmbusTimeout s = _
    simp [execPmbusTimeout, h]
  case porstNAssert =>
    intro lowNs s h
    change execPorstNAssert lowNs s = _
    simp [execPorstNAssert, h]
  case porstNRelease =>
    intro s h
    change execPorstNRelease s = _
    simp [execPorstNRelease, h]
  case warmrstNAssert =>
    intro lowNs t s ⟨h₁, h₂, h₃⟩
    change execWarmrstNAssert lowNs s = _
    simp [execWarmrstNAssert, h₁, h₂, h₃]
  case warmrstNRelease =>
    intro s h
    change execWarmrstNRelease s = _
    simp [execWarmrstNRelease, h]
  case pwrfailNAssert =>
    intro lowNs s ⟨hlong, hrun⟩
    simp only [State.stopped, Bool.or_eq_false_iff] at hrun
    obtain ⟨⟨⟨⟨hporst, hwarm⟩, hflush⟩, hdead⟩, hshut⟩ := hrun
    change execPwrfailNAssert lowNs s = _
    simp only [execPwrfailNAssert, Nat.not_lt.mpr hlong, hporst, hwarm, hflush, hdead, hshut, Bool.or_self, Bool.false_eq_true, if_false]
  case flushDone =>
    intro badCopies s h
    change execFlushDone badCopies s = _
    simp [execFlushDone, h]
  case xspiTimeout =>
    intro ptype copy s ⟨h₁, h₂, h₃, h₄⟩
    change execXspiTimeout ptype copy s = _
    simp_all [execXspiTimeout]
  case startPhaseEnd =>
    intro die selfTestFail vcmFail td0 s ⟨hrun, hfirst, hlast⟩
    change execStartPhaseEnd die selfTestFail vcmFail td0 s = _
    rw [execStartPhaseEnd, hrun]
    generalize s.pwr.phase = k at hfirst hlast
    interval_cases k <;> simp [endPhase]
  case thmConfig => exact fun d s ⟨ha, hp, hc⟩ => congrArg Host.Outcome.next (runDone_admitted ha hp hc)
  case thmRead => exact fun d s ⟨ha, hp⟩ => congrArg Host.Outcome.next (runBody_admitted ha hp)
  case thmShutrec => exact fun d s ⟨ha, hp⟩ => congrArg Host.Outcome.next (runBody_admitted ha hp)
  case sysAckShutdown => exact fun d s ⟨ha, hp, hc⟩ => congrArg Host.Outcome.next (runDone_admitted ha hp hc)

end Sys2Proof.Machine
end

section
/-! SUPPORT. Boundaries, flow instructions, starts and stops take effect (R114 to R134). -/

namespace Sys2Proof.Machine

open Sys2Proof

theorem reached_of_cycleOf {s : State} {p phi b : Nat} (hcycle : s.cycleOf p phi = some b) (hnow : b ≤ s.now) :
    s.reached p phi = true := by
  simp [State.reached, hcycle, hnow]

/-- The instruction at the present boundary runs, as no more than the eighth since the last pass. -/
theorem flowRun_runs {p kind i b : Nat} {body : Nat → Nat → State → State} {s : State} (hat : s.flowAt p = some i)
    (hkind : finKind i = kind) (hchain : (s.pt p).chain < 8) (hcycle : s.cycleOf p (s.pt p).next = some b) :
    flowRun p kind body s = body i b (s.onPt p (fun x => { x with chain := x.chain + 1 })) := by
  have hkind' : (finKind i != kind) = false := by simp [hkind]
  simp only [flowRun, hat, hkind', Nat.not_le.mpr hchain, hcycle, Option.getD_some, Bool.false_eq_true, if_false]

/-- Settles O52. -/
theorem sequencersPlay : Obligations.SequencersPlay := by
  unfold Obligations.SequencersPlay
  refine ⟨?boundary, ?loopBegin, ?loopEnd, ?call, ?ret, ?wait, ?setflag, ?vectorStart, ?seqStart, ?startDeadline, ?startInstant,
    ?seqStop, ?stopInstant, ?stoppingComplete, ?markPulseEnd, ?refStamp, ?refMissingTimeout, ?holdLimit, ?grefTimeout, ?grefFreqCheck⟩
  case boundary =>
    intro p b s ⟨hrun, hend, hflow, hcycle, hnow, hstop, hdefer⟩
    change Host.Outcome.next (boundary p.val s) = _
    simp [boundary, hrun, hend, hflow, reached_of_cycleOf hcycle hnow, hcycle, hstop, hdefer]
  case loopBegin =>
    exact fun p i b s ⟨hat, hkind, hchain, hcycle⟩ => congrArg Host.Outcome.next (flowRun_runs hat hkind hchain hcycle)
  case loopEnd =>
    exact fun p i b s ⟨hat, hkind, hchain, hcycle⟩ => congrArg Host.Outcome.next (flowRun_runs hat hkind hchain hcycle)
  case call =>
    intro p i b s ⟨hat, hkind, hchain, hcycle, hroom⟩
    change Host.Outcome.next (flowRun p.val 2 (callSeg p.val) s) = _
    have hdepth : ¬16 ≤ ((s.onPt p.val (fun x => { x with chain := x.chain + 1 })).pt p.val).calls.length := by
      rw [State.onPt_pt]
      exact Nat.not_le.mpr hroom
    rw [flowRun_runs hat hkind hchain hcycle, callSeg, if_neg hdepth]
    rfl
  case ret =>
    exact fun p i b s ⟨hat, hkind, hchain, hcycle⟩ => congrArg Host.Outcome.next (flowRun_runs hat hkind hchain hcycle)
  case wait =>
    exact fun p i b s ⟨hat, hkind, hchain, hcycle⟩ => congrArg Host.Outcome.next (flowRun_runs hat hkind hchain hcycle)
  case setflag =>
    intro p i b s t ⟨hat, hkind, hchain, hcycle, ht⟩
    subst ht
    exact congrArg Host.Outcome.next (flowRun_runs hat hkind hchain hcycle)
  case vectorStart =>
    intro p reads l z t s ⟨hrun, hend, hflow, hreached, hstop, ht, hl, hlack, hset⟩
    subst ht hl
    change Host.Outcome.next (settle (vectorStart p.val reads s)) = _
    simp only [vectorStart, hrun, hend, hflow, hreached, hstop, hlack, hset, bne_self_eq_false, Bool.not_true, Option.isSome_none,
      Bool.or_self, Bool.false_eq_true, if_false]
  case seqStart =>
    intro d peg seg t s ⟨ha, hp, hpeg, hseg, hchecks, ht⟩
    subst hpeg hseg ht
    change Host.Outcome.next (seqStart d s) = _
    unfold seqStart
    rw [runCmd_admitted ha hp]
    simp only [startPitches, hchecks]
    rfl
  case startDeadline =>
    intro d s ⟨h₁, h₂, h₃⟩
    change execStartDeadline d s = _
    simp_all [execStartDeadline]
  case startInstant =>
    intro p phi a t u s ⟨hnow, harmed, ht, hu⟩
    subst ht hu
    change Host.Outcome.next (startInstant p.val s) = _
    simp only [startInstant, hnow, harmed]
    rfl
  case seqStop => exact fun d s ⟨ha, hp⟩ => congrArg Host.Outcome.next (runBody_admitted ha hp)
  case stopInstant =>
    intro p c b s ⟨hrun, hend, hflow, hcycle, hnow, hstop⟩
    change execStopInstant p s = _
    simp [execStopInstant, hrun, hend, hflow, reached_of_cycleOf hcycle hnow, hcycle, hstop]
  case stoppingComplete =>
    intro p t s ⟨h₁, h₂, h₃⟩
    change execStoppingComplete p s = _
    simp_all [execStoppingComplete]
  case markPulseEnd =>
    intro n t s ⟨h₁, h₂, h₃, h₄, h₅⟩
    change execMarkPulseEnd n s = _
    simp_all [execMarkPulseEnd]
  case refStamp => exact fun _ _ _ _ _ => rfl
  case refMissingTimeout =>
    intro p s ⟨hgref, htrk, hmissing⟩
    change Host.Outcome.next (settle (refMissing p.val s)) = _
    simp [refMissing, hgref, htrk, hmissing]
  case holdLimit =>
    intro p a s ⟨hloss, htrk, hlimit, hpast⟩
    change Host.Outcome.next (settle (holdLimit p.val s)) = _
    simp [holdLimit, hloss, htrk, hlimit, hpast]
  case grefTimeout =>
    exact fun s hmissing => congrArg (fun t => Host.Outcome.next (settle t)) (if_pos hmissing)
  case grefFreqCheck => exact fun _ _ => rfl

end Sys2Proof.Machine
end

section
/-! SUPPORT. The SEC commands and the key unit take effect (R383 to R406). -/

namespace Sys2Proof.Machine

open Sys2Proof

/-- Settles O53. -/
theorem securityCommandsTakeEffect : Obligations.SecurityCommandsTakeEffect := by
  unfold Obligations.SecurityCommandsTakeEffect
  refine ⟨?secQuote, ?secLog, ?secCert, ?secKeystate, ?secOwner, ?secDebug, ?challengeExpiry, ?secSeal, ?secLot, ?secRing,
    ?reservationWriteDone, ?signatureDone, ?sessionKeyGenerated, ?sealTimer⟩
  case secQuote => exact fun d s ⟨ha, hp, hc⟩ => congrArg Host.Outcome.next (runLater_admitted ha hp hc rfl)
  case secLog => exact fun d s ⟨ha, hp, hc⟩ => congrArg Host.Outcome.next (runChecked_admitted ha hp hc)
  case secCert => exact fun d s ⟨ha, hp⟩ => congrArg Host.Outcome.next (runBody_admitted ha hp)
  case secKeystate => exact fun d s ⟨ha, hp⟩ => congrArg Host.Outcome.next (runBody_admitted ha hp)
  case secOwner =>
    intro d s ⟨ha, hp, hc⟩
    change execSecOwner d s = _
    unfold execSecOwner
    rw [runChecked_admitted ha hp hc]
    split <;> rfl
  case secDebug =>
    intro d s ⟨ha, hp, hc⟩
    change execSecDebug d s = _
    unfold execSecDebug
    rw [runCmd_admitted ha hp]
    by_cases hask : d.a0 = 0
    · simp only [hask, if_true]
    · simp only [hask, if_false, checked_passes (hc hask)]
      split <;> rfl
  case challengeExpiry =>
    intro s h
    change execChallengeExpiry s = _
    simp [execChallengeExpiry, h]
  case secSeal =>
    intro d s ⟨ha, hp, hc, hmine⟩
    have hmine' : (started d s).taken' d.mb = false := hmine
    have hjob : ({ started d s with jobs := (started d s).jobs ++ [.seal d] } : State).taken' d.mb = false := hmine
    change execSecSeal d s = _
    unfold execSecSeal
    rw [runChecked_admitted ha hp hc]
    simp only [hjob, Bool.false_eq_true, if_false]
    rfl
  case secLot =>
    intro d s ⟨ha, hp, hc, hmine⟩
    have hmine' : (!(started d s).taken' d.mb) = true := by rw [show (started d s).taken' d.mb = false from hmine]; rfl
    change execSecLot d s = _
    unfold execSecLot
    rw [runCmd_admitted ha hp]
    dsimp only
    rw [checked_passes]
    · simp only [hmine', if_true]
      rfl
    · exact hc
  case secRing => exact fun d s ⟨ha, hp, hc⟩ => congrArg Host.Outcome.next (runDone_admitted ha hp hc)
  case reservationWriteDone =>
    intro r rest k s ⟨hwrite, hsigs, hkey⟩
    change execReservationWriteDone true s = _
    simp only [execReservationWriteDone, hwrite, hsigs, hkey, if_true]
    cases r <;> rfl
  case signatureDone =>
    intro d count head rest k s ⟨h₁, h₂, h₃, h₄, h₅⟩
    change execSignatureDone s = _
    simp [execSignatureDone, h₁, h₂, h₃, h₄, h₅]
  case sessionKeyGenerated =>
    intro k s ⟨h₁, h₂, h₃⟩
    change execSessionKeyGenerated s = _
    simp [execSessionKeyGenerated, h₁, h₂, h₃]
  case sealTimer =>
    intro t s ⟨h₁, h₂⟩
    change execSealTimer s = _
    simp [execSealTimer, h₁, h₂]

end Sys2Proof.Machine
end

section
/-! SUPPORT. The SEQ table, program, flag, counter and marker commands take effect (R121, R127, R132). -/

namespace Sys2Proof.Machine

open Sys2Proof

/-- Settles O54. -/
theorem seqCommandsTakeEffect : Obligations.SeqCommandsTakeEffect := by
  unfold Obligations.SeqCommandsTakeEffect
  refine ⟨?seqLoad, ?seqProg, ?seqFlag, ?seqCounter, ?seqHalt, ?seqMark, ?seqLoadDone⟩
  case seqLoad => exact fun d s ⟨ha, hp, hc⟩ => congrArg Host.Outcome.next (runLate_admitted ha hp hc rfl)
  case seqProg =>
    intro d prog s ⟨ha, hp, hprog, hc⟩
    subst hprog
    change execSeqProg d s = _
    unfold execSeqProg
    rw [runCmd_admitted ha hp]
    dsimp only
    rw [checked_passes hc]
    rfl
  case seqFlag => exact fun d s ⟨ha, hp⟩ => congrArg Host.Outcome.next (runBody_admitted ha hp)
  case seqCounter => exact fun d s ⟨ha, hp⟩ => congrArg Host.Outcome.next (runBody_admitted ha hp)
  case seqHalt => exact fun d s ⟨ha, hp, hc⟩ => congrArg Host.Outcome.next (runDone_admitted ha hp hc)
  case seqMark => exact fun d s ⟨ha, hp, hc⟩ => congrArg Host.Outcome.next (runAct_admitted ha hp hc)
  case seqLoadDone =>
    intro p portFail d x sp a n base s t ⟨h₁, h₂, h₃⟩
    change execSeqLoadDone p portFail s = _
    simp_all [execSeqLoadDone]

end Sys2Proof.Machine
end

section
/-! SUPPORT. Pegs, beats, PTP and the TIME commands take effect (R298 to R321). -/

namespace Sys2Proof.Machine

open Sys2Proof

/-- Settles O55. -/
theorem timeTakesEffect : Obligations.TimeTakesEffect := by
  unfold Obligations.TimeTakesEffect
  refine ⟨?gpegPulse, ?echoDrive, ?reflectionTimeout, ?pegWindowMiss, ?timeGuycfg, ?timeAlign, ?timeAlignTimeout, ?timeAccept,
    ?timePtpcfg, ?timeSet, ?timeRead, ?timeFwd, ?ptp, ?announceTimeout, ?ptpMessageInterval, ?tsqEntryTimeout, ?tsqHoldTimeout⟩
  case gpegPulse =>
    intro coarse fine width64 t u s ⟨h₁, h₂⟩
    change execGpegPulse coarse fine width64 s = _
    simp_all [execGpegPulse]
  case echoDrive =>
    intro c s ⟨h₁, h₂⟩
    change execEchoDrive s = _
    simp [execEchoDrive, h₁, h₂]
  case reflectionTimeout =>
    intro e s ⟨h₁, h₂, h₃⟩
    change execReflectionTimeout s = _
    simp [execReflectionTimeout, h₁, h₂, h₃]
  case pegWindowMiss =>
    intro n s ⟨h₁, h₂, h₃⟩
    change execPegWindowMiss s = _
    simp_all [execPegWindowMiss]
  case timeGuycfg => exact fun d s ⟨ha, hp, hc⟩ => congrArg Host.Outcome.next (runAct_admitted ha hp hc)
  case timeAlign => exact fun d s ⟨ha, hp, hc⟩ => congrArg Host.Outcome.next (runLate_admitted ha hp hc rfl)
  case timeAlignTimeout =>
    intro z s ⟨h₁, h₂⟩
    change execTimeAlignTimeout s = _
    simp [execTimeAlignTimeout, h₁, h₂]
  case timeAccept => exact fun d s ⟨ha, hp, hc⟩ => congrArg Host.Outcome.next (runDone_admitted ha hp hc)
  case timePtpcfg => exact fun d s ⟨ha, hp, hc⟩ => congrArg Host.Outcome.next (runAct_admitted ha hp hc)
  case timeSet => exact fun d s ⟨ha, hp, hc⟩ => congrArg Host.Outcome.next (runDone_admitted ha hp hc)
  case timeRead => exact fun d s ⟨ha, hp⟩ => congrArg Host.Outcome.next (runBody_admitted ha hp)
  case timeFwd => exact fun d s ⟨ha, hp⟩ => congrArg Host.Outcome.next (runBody_admitted ha hp)
  case ptp =>
    intro port m t s ⟨h₁, h₂, h₃, h₄, h₅, h₆⟩
    change execPtp port m s = _
    simp_all [execPtp]
  case announceTimeout =>
    intro s ⟨h₁, h₂⟩
    change execAnnounceTimeout s = _
    simp [execAnnounceTimeout, h₁, h₂]
  case ptpMessageInterval =>
    intro port kind s ⟨h₁, h₂, h₃⟩
    change execPtpMessageInterval port kind s = _
    simp [execPtpMessageInterval, h₁, h₂, h₃]
  case tsqEntryTimeout =>
    intro port s h
    change execTsqEntryTimeout port s = _
    simp [execTsqEntryTimeout, h]
  case tsqHoldTimeout =>
    intro port q s ⟨h₁, h₂⟩
    change execTsqHoldTimeout port s = _
    simp [execTsqHoldTimeout, h₁, h₂]

end Sys2Proof.Machine
end

section
/-! SUPPORT. Pitch formation, references and timeline maps take effect (R15 to R37). -/

namespace Sys2Proof.Machine

open Sys2Proof

/-- Settles O56. -/
theorem timelinesTakeEffect : Obligations.TimelinesTakeEffect := by
  unfold Obligations.TimelinesTakeEffect
  refine ⟨?seqFollow, ?phRegisterWrite, ?seqForm, ?groupRamp, ?acqTimeout, ?grefReturn, ?multiplierLock, ?tdcx00CalDone,
    ?mapSegmentPublish⟩
  case seqFollow => exact fun d s ⟨ha, hp, hc⟩ => congrArg Host.Outcome.next (runAct_admitted ha hp hc)
  case phRegisterWrite =>
    intro p r v s hchecks
    change Host.Outcome.next (phWrite p.val (PhReg.reg r) v s) = _
    simp only [phWrite, firstBad_none hchecks]
  case seqForm => exact fun d s ⟨ha, hp, hc⟩ => congrArg Host.Outcome.next (runChecked_admitted ha hp hc)
  case groupRamp =>
    intro d l t s hdue
    change execGroupRamp s = _
    simp only [execGroupRamp, hdue]
    cases l.drop 1 <;> rfl
  case acqTimeout =>
    intro p s ⟨h₁, h₂, h₃, h₄⟩
    change execAcqTimeout p s = _
    simp [execAcqTimeout, h₁, h₂, h₃, h₄]
  case grefReturn =>
    intro s ⟨h₁, h₂, h₃⟩
    change execGrefReturn s = _
    simp [execGrefReturn, h₁, h₂, h₃]
  case multiplierLock =>
    intro s ⟨h₁, h₂⟩
    change execMultiplierLock s = _
    simp [execMultiplierLock, h₁, h₂]
  case tdcx00CalDone =>
    intro x s ⟨h₁, h₂⟩
    change execTdcx00CalDone x s = _
    simp [execTdcx00CalDone, h₁, h₂]
  case mapSegmentPublish =>
    intro p m s ⟨hgref, htrk, hzero, hperiod, hnext⟩
    have htrk' : (s.r .PT_STATUS_TRK p.val != 2 && s.r .PT_STATUS_TRK p.val != 3) = false := by
      rcases htrk with h | h <;> simp [h]
    change execMapSegmentPublish p s = _
    simp only [execMapSegmentPublish, hgref, htrk', hzero, hperiod, hnext, decide_false, Bool.or_self, Bool.false_eq_true, if_false]

end Sys2Proof.Machine
end

section
/-! SUPPORT. Pairing, mirroring and heartbeats take effect (R443 to R458). -/

namespace Sys2Proof.Machine

open Sys2Proof

/-- Settles O57. -/
theorem twinTakesEffect : Obligations.TwinTakesEffect := by
  unfold Obligations.TwinTakesEffect
  refine ⟨?twinPair, ?twinPairTimeout, ?twinUnpair, ?twinStatus, ?mirror, ?mirrorAck, ?pair, ?syncDone, ?heartbeatSend, ?heartbeat,
    ?heartbeatMiss, ?failing, ?twinAliveTimeout, ?twinAliveRange, ?twinAliveReturn, ?sidebandTimeout, ?internalFault⟩
  case twinPair => exact fun d s ⟨ha, hp, hc⟩ => congrArg Host.Outcome.next (runLater_admitted ha hp hc rfl)
  case twinPairTimeout =>
    intro d t s ⟨h₁, h₂, h₃⟩
    change execTwinPairTimeout s = _
    simp [execTwinPairTimeout, h₁, h₂, h₃]
  case twinUnpair =>
    intro d u s ⟨ha, hp, hu⟩
    subst hu
    change execTwinUnpair d s = _
    unfold execTwinUnpair
    rw [runCmd_admitted ha hp]
    generalize started d s = u
    by_cases hunpaired : u.tw = TW_UNPAIRED
    · simp only [hunpaired, if_true]
      rfl
    · by_cases htaken : u.tw = TW_TAKEN_OVER
      · simp only [htaken, if_true]
        by_cases hbusy : u.twin.open' = true ∨ ∃ n ∈ u.partnerMbs, u.r .MB_STAT_OUTSTANDING n ≠ 0
        · have hcheck : (u.twin.open' || u.partnerMbs.any (fun n => u.r .MB_STAT_OUTSTANDING n != 0)) = true := by simpa using hbusy
          simp only [checked, firstBad, hcheck, if_true, if_pos hbusy]
          rfl
        · have hcheck : (u.twin.open' || u.partnerMbs.any (fun n => u.r .MB_STAT_OUTSTANDING n != 0)) = false := by
            simpa using hbusy
          simp only [checked, firstBad, hcheck, Bool.false_eq_true, if_false, if_neg hbusy]
          rfl
      · simp only [if_neg hunpaired, if_neg htaken]
        rfl
  case twinStatus => exact fun d s ⟨ha, hp⟩ => congrArg Host.Outcome.next (runBody_admitted ha hp)
  case mirror =>
    intro items s ⟨h₁, h₂⟩
    change execMirror items s = _
    simp [execMirror, h₁, h₂]
  case mirrorAck =>
    intro n s ⟨hpaired, hflight⟩
    have hpaired' : (s.mirrors || s.tw == TW_SUSPECT) = true := by simpa using hpaired
    have hflight' : min n s.twin.inFlight ≠ 0 := by omega
    change execMirrorAck n s = _
    simp only [execMirrorAck, hpaired', hflight', Bool.not_true, decide_false, Bool.or_self, Bool.false_eq_true, if_false]
  case pair =>
    intro ident half senior pages complete s ⟨h₁, h₂⟩
    change execPair ident half senior pages complete s = _
    simp [execPair, h₁, h₂]
  case syncDone =>
    intro s h
    change execSyncDone s = _
    simp [execSyncDone, h]
  case heartbeatSend =>
    intro s ⟨hpaired, halive, hdue⟩
    have hpaired' : (s.tw == TW_PAIRED || s.tw == TW_SUSPECT || s.tw == TW_SEPARATED || s.tw == TW_RESYNC) = true := by
      simpa only [Bool.or_eq_true, beq_iff_eq, or_assoc] using hpaired
    have halive' : (s.twin.aliveOut == 2) = false := by simpa using halive
    change execHeartbeatSend s = _
    simp only [execHeartbeatSend, hpaired', halive', Nat.not_lt.mpr hdue, Bool.not_true, decide_false, Bool.or_self, Bool.false_eq_true,
      if_false]
  case heartbeat =>
    intro seq pstate s htw
    change execHeartbeat seq pstate s = _
    rcases htw with h | h <;> simp [execHeartbeat, h, TW_PAIRED, TW_RESYNC, TW_SEPARATED]
  case heartbeatMiss =>
    intro s ⟨h₁, h₂⟩
    change execHeartbeatMiss s = _
    simp [execHeartbeatMiss, h₁, h₂]
  case failing =>
    intro s h
    change execFailing s = _
    simp [execFailing, h]
  case twinAliveTimeout =>
    intro high t s h
    change execTwinAliveTimeout high s = _
    simp [execTwinAliveTimeout, h]
  case twinAliveRange =>
    intro s h
    change execTwinAliveRange s = _
    simp [execTwinAliveRange, h]
  case twinAliveReturn => exact fun _ => rfl
  case sidebandTimeout =>
    intro t s ⟨h₁, h₂, h₃, h₄, h₅, h₆⟩
    change execSidebandTimeout s = _
    simp [execSidebandTimeout, h₁, h₂, h₃, h₄, h₅, h₆]
  case internalFault =>
    intro groups t s ⟨h₁, h₂, h₃, h₄⟩
    change execInternalFault groups s = _
    simp_all [execInternalFault]

end Sys2Proof.Machine
end

section
/-! SUPPORT. The vector cache memory and the VCM commands take effect (R242 to R263). -/

namespace Sys2Proof.Machine

open Sys2Proof

/-- Settles O58. -/
theorem vectorCacheTakesEffect : Obligations.VectorCacheTakesEffect := by
  unfold Obligations.VectorCacheTakesEffect
  refine ⟨?refreshInterval, ?refreshIssue, ?vcmReadDone, ?vcmWriteDrain, ?rowRepair, ?vcmInfo, ?vcmErrlog, ?vcmFill, ?vcmFillDone,
    ?vcmRetrain, ?vcmRetrainDone, ?vcmScrub⟩
  case refreshInterval =>
    intro vp s ⟨h₁, h₂⟩
    change execRefreshInterval vp s = _
    simp [execRefreshInterval, h₁, h₂]
  case refreshIssue =>
    intro vp allBank s ⟨hup, hmode, hmay⟩
    have hmode' : (allBank != (s.r .VP_STAT_RMODE vp.val == URGENT)) = false := by rw [hmode]; exact bne_self_eq_false _
    change execRefreshIssue vp allBank s = _
    cases allBank <;> simp_all [execRefreshIssue]
  case vcmReadDone =>
    intro a err s ⟨hup, hin, hwrite, hread⟩
    have hguard : (!s.vcmUp || decide (spaceSize 0 ≤ a) || s.waitsWrite (a / 64)) = false := by
      simp [hup, hwrite, Nat.not_le.mpr hin]
    change execVcmReadDone a err s = _
    simp only [execVcmReadDone, hguard, Bool.false_eq_true, if_false]
    by_cases hfull : s.queuedFull (a / 64) = true
    · exact congrArg Host.Outcome.next ((if_pos hfull).trans (if_pos hfull).symm)
    · obtain ⟨hblocked, hpick, hidle⟩ := hread.resolve_left hfull
      simp only [hfull, if_false, hblocked, Bool.false_eq_true]
      cases hp : s.pick (vcmPort a) with
      | some r => simp_all
      | none => simp_all
  case vcmWriteDrain =>
    intro vp e t s ⟨h₁, h₂, h₃, h₄, h₅⟩
    change execVcmWriteDrain vp s = _
    simp_all [execVcmWriteDrain]
  case rowRepair =>
    intro vp q rest s ⟨h₁, h₂⟩
    change execRowRepair vp s = _
    simp [execRowRepair, h₁, h₂]
  case vcmInfo => exact fun d s ⟨ha, hp⟩ => congrArg Host.Outcome.next (runBody_admitted ha hp)
  case vcmErrlog => exact fun d s ⟨ha, hp⟩ => congrArg Host.Outcome.next (runBody_admitted ha hp)
  case vcmFill => exact fun d s ⟨ha, hp, hc⟩ => congrArg Host.Outcome.next (runLate_admitted ha hp hc rfl)
  case vcmFillDone =>
    intro k d a n x s ⟨h₁, h₂⟩
    change execVcmFillDone k s = _
    simp [execVcmFillDone, h₁, h₂]
  case vcmRetrain => exact fun d s ⟨ha, hp, hc⟩ => congrArg Host.Outcome.next (runLate_admitted ha hp hc rfl)
  case vcmRetrainDone =>
    intro fail j s h
    change execVcmRetrainDone fail s = _
    simp [execVcmRetrainDone, h]
  case vcmScrub => exact fun d s ⟨ha, hp⟩ => congrArg Host.Outcome.next (runBody_admitted ha hp)

end Sys2Proof.Machine
end

section
/-! SUPPORT. Work items are posted, woken, dispatched and finished (R355 to R378). -/

namespace Sys2Proof.Machine

open Sys2Proof

/-- Settles O59. -/
theorem workItemsAreServed : Obligations.WorkItemsAreServed := by
  unfold Obligations.WorkItemsAreServed
  refine ⟨?workItemPost, ?workItemReady, ?workItemDispatch, ?duLoadWindow, ?workItemDone, ?flowBudgetTimer, ?flowHangTimer, ?secFlow,
    ?flowEntryReturn, ?flowEntryTimeout⟩
  case workItemPost =>
    intro cls producer type key payload held s h
    change execWorkItemPost cls producer type key payload held s = _
    simp [execWorkItemPost, h]
  case workItemReady =>
    intro id s h
    change execWorkItemReady id s = _
    unfold execWorkItemReady
    simp only [h]
    rfl
  case workItemDispatch =>
    intro server x t s ⟨h₁, h₂, h₃, h₄, h₅⟩
    change execWorkItemDispatch server s = _
    simp_all [execWorkItemDispatch]
  case duLoadWindow =>
    intro t s ⟨h₁, h₂⟩
    change execDuLoadWindow s = _
    simp [execDuLoadWindow, h₁, h₂]
  case workItemDone =>
    intro server results x s ⟨h₁, h₂, h₃⟩
    change execWorkItemDone server results s = _
    simp_all [execWorkItemDone]
  case flowBudgetTimer =>
    intro core site x f z u t s ⟨h₁, h₂, h₃, h₄, h₅, h₆, h₇, h₈⟩
    change execFlowBudgetTimer core site s = _
    simp [execFlowBudgetTimer, h₁, h₂, h₃, h₄, h₅, h₆, h₇, h₈]
  case flowHangTimer =>
    intro core x f u t r s ⟨h₁, h₂, h₃, h₄, h₅, h₆⟩
    change execFlowHangTimer core s = _
    simp [execFlowHangTimer, h₁, h₂, h₃, h₄, h₅, h₆]
  case secFlow =>
    intro d s ⟨ha, hp, hc⟩
    change execSecFlow d s = _
    unfold execSecFlow
    rw [runChecked_admitted ha hp hc]
    by_cases hunload : d.a1 = 0
    · simp only [hunload, if_true]
      rfl
    · simp only [hunload, if_false, checked]
      cases firstBad (flowChecks (started d s) d) <;> rfl
  case flowEntryReturn =>
    intro core d t s h
    change execFlowEntryReturn core s = _
    simp [execFlowEntryReturn, h]
  case flowEntryTimeout =>
    intro core d t s ⟨h₁, h₂⟩
    change execFlowEntryTimeout core s = _
    simp [execFlowEntryTimeout, h₁, h₂]

end Sys2Proof.Machine
end

section
/-! SUPPORT. The REC commands and the record unit's timers take effect (R432 to R442). -/

namespace Sys2Proof.Machine

open Sys2Proof

theorem changing_jobs (s : State) (rid : Nat) : (s.changing rid).2.jobs = s.jobs := by
  unfold State.changing
  split <;> rfl

theorem changing_now (s : State) (rid : Nat) : (s.changing rid).2.now = s.now := by
  unfold State.changing
  split <;> rfl

/-- Settles O60. -/
theorem recordCommandsTakeEffect : Obligations.RecordCommandsTakeEffect := by
  unfold Obligations.RecordCommandsTakeEffect
  refine ⟨?recRead, ?recReadRetry, ?calendarCheck, ?recCalendar, ?recFlush, ?flushTimer, ?lifeSecond, ?railSample, ?laneHour⟩
  case recRead =>
    intro d s ⟨ha, hp, hc⟩
    change execRecRead d s = _
    unfold execRecRead
    rw [runChecked_admitted (l := fun _ => [(recBad d, ST_RANGE)]) ha hp hc]
    simp only [changing_jobs, changing_now]
    split <;> rfl
  case recReadRetry =>
    intro d k t u s ⟨hjob, hu, hlast⟩
    subst hu
    have hgive : ((s.changing d.a0).1 && decide (k + 1 < 8)) = false := by
      cases hbusy : (s.changing d.a0).1 with
      | false => rfl
      | true => simpa using hlast hbusy
    change execRecReadRetry s = _
    simp only [execRecReadRetry, hjob, hgive, changing_jobs, Bool.false_eq_true, if_false]
  case calendarCheck =>
    intro t s h
    change execCalendarCheck s = _
    simp [execCalendarCheck, h]
  case recCalendar => exact fun d s ⟨ha, hp, hc⟩ => congrArg Host.Outcome.next (runDone_admitted ha hp hc)
  case recFlush => exact fun d s ⟨ha, hp⟩ => congrArg Host.Outcome.next (runCmd_admitted ha hp)
  case flushTimer =>
    intro s ⟨h₁, h₂⟩
    change execFlushTimer s = _
    simp [execFlushTimer, h₁, h₂]
  case lifeSecond => exact fun _ => rfl
  case railSample => exact fun _ _ => rfl
  case laneHour =>
    intro lane bin s ⟨h₁, h₂, h₃⟩
    change execLaneHour lane bin s = _
    simp [execLaneHour, h₁, h₂, h₃]

end Sys2Proof.Machine
end
